-- ==== Sys2Proof/Syntax.lean ====
section
/-! DEFINITION. The commands of the block: one constructor of `Instr` for every row of
spec/opcode_table.json, with the operand types they carry.  The table gives a row no operands of
its own: a command carries what the world outside the controller brings at that event (a measured
value, a pin level, a received message, the identity of the channel, phase, port or account it
concerns).  Log entry 2. -/

namespace Sys2Proof

/-- An octet (R8). -/
abbrev Byte := BitVec 8

/-- The three inputs of the power path (chapter 05). -/
inductive Inp where
  | main | pda | pdb
  deriving DecidableEq, Repr

/-- The two Type-C ports (chapter 14). -/
inductive PdId where
  | a | b
  deriving DecidableEq, Repr

/-- The masters that send orders to this controller itself (R476); a Lead's values arrive in ORDERS. -/
inductive Master where
  | host | supervisor
  deriving DecidableEq, Repr

/-- The two columns of the vault (R339). -/
inductive Column where
  | supply | ret
  deriving DecidableEq, Repr

/-- The wake sources of Table 04-5. -/
inductive WakeSource where
  | vmain | vbus | iss | plinth | twPres | window | watchdog | backstop | kiln
  deriving DecidableEq, Repr

/-- The sensors that can trip the Kiln Guard (R437). -/
inductive KilnSource where
  | d0 | d1 | d2 | ntc1
  deriving DecidableEq, Repr

/-- A Plinth frame after its SOF and CRC have been checked (Table 12-2). -/
structure Frame where
  dest : Byte
  src : Byte
  type : Byte
  ctl : Byte
  payload : List Byte
  deriving DecidableEq, Repr

/-- A Window Port transaction as clocked in on WIN_SDI: the whole bytes, and the bits of a last
byte that WIN_CS_N cut short (R491, R496). -/
structure WinFrame where
  bytes : List Byte
  strayBits : Nat
  deriving DecidableEq, Repr

/-- What Boot found on its way to step 10 of Table 04-2. -/
structure BootRead where
  /-- The value of the µs timebase, which restarts at each Boot (R127). -/
  us : Nat
  /-- Read JEDEC ID reply, first byte in [7:0] (R68). -/
  jedec : BitVec 24
  /-- Key hash slots whose OTP words are uncorrectable (R102). -/
  slotEcc : BitVec 4
  /-- Serial number, root secret or owner epoch uncorrectable (R102). -/
  idEcc : Bool
  /-- I_PACK averaged over the 100 µs before Run entry, mA (R29). -/
  iPack : Int
  /-- VSYS sample of the last 10 µs before Run entry, mV (R263). -/
  vsys : Nat
  /-- The key block's known-answer test passed at Boot (Table 20-7). -/
  keyTestOk : Bool
  /-- The start-up Probes of step 9 passed: core self-test, memories, clocks (Tables 04-2 and 11-5). -/
  probesOk : Bool
  /-- KLN count since the last power-on reset, s (R553). -/
  klnSec : Nat
  deriving DecidableEq, Repr

/-- One 100 kHz sample of the channels (R262): the channels that reached CORE in time (R276), shunt
voltages in nV, internal channels in µA, voltages in mV. -/
structure Sample where
  got : BitVec 8
  ism : Int
  isa : Int
  isb : Int
  isc : Int
  isp : Int
  iss : Int
  axs : Nat
  axp : Nat
  vmain : Nat
  vcin : Nat
  vsys : Nat
  vpack : Nat
  vbusa : Nat
  vbusb : Nat
  lswin : Nat
  /-- load switch currents, 0.1 mA (Table 22-1) -/
  lsw : List Nat
  /-- load switch channel temperatures, °C (R414) -/
  tch : List Int
  deriving DecidableEq, Repr

/-- What a Follow sends its Lead at a sample (R441): its pack readings in 0.1 °C and its board band. -/
structure TwinTherm where
  pack : List Int
  board : Nat
  deriving DecidableEq, Repr

/-- One reading of a thermal sensor: the temperature in 0.1 °C, the NTC ratio × 10 000 (NTC
sensors) and the diode voltage in mV (diodes); and what a Follow has sent since the last one (R441). -/
structure SensorReading where
  temp : Int
  ratio : Nat
  diodeMv : Nat
  twin : Option TwinTherm := none
  deriving DecidableEq, Repr

/-- A power data object of a received Source_Capabilities (R378): voltage in 50 mV, current in 10 mA. -/
structure PdoIn where
  fixed : Bool
  v50 : Nat
  i10 : Nat
  deriving DecidableEq, Repr

/-- The header facts of a link frame (Table 17-3). -/
structure LinkHdr where
  seq : BitVec 8
  crcOk : Bool
  deriving DecidableEq, Repr

/-- HEARTBEAT payload (Table 17-4). -/
structure HeartbeatMsg where
  tick : BitVec 32
  /-- the upper half of the sender's tick count, which the frame does not carry and the alignment of R42 needs (log entry 58) -/
  tickHi : BitVec 32
  /-- what the pair shares of the sender's charger and no field of the frame carries: a fault latched (R187), an overvoltage
  that ends every return, and its wish to refuse returns (R185; log entry 103) -/
  charger : BitVec 3
  /-- the sender's last audit failed, which the Follow must know and no field of the frame carries (R460, log entry 134) -/
  auditFailed : Bool
  role : BitVec 8
  lifeMode : BitVec 8
  flags : BitVec 8
  active : BitVec 8
  path : BitVec 8
  ordGen : BitVec 8
  isc : Int
  digest : BitVec 32
  deriving DecidableEq, Repr

/-- IDENT payload (Table 17-4). -/
structure IdentMsg where
  version : BitVec 8
  plinthMaster : Bool
  serial : BitVec 64
  group : BitVec 64
  digest : BitVec 256
  deriving DecidableEq, Repr

/-- CELLS payload (Table 17-4): stack in mV, cells in 0.1 mV. -/
structure CellsMsg where
  closeNo : Nat
  stack : Nat
  cells : List Nat
  deriving DecidableEq, Repr

/-- LEDGER payload (Table 17-4): net charges and residual in µC, V_j in mV, ISP In less Out in mC. -/
structure LedgerMsg where
  closeNo : Nat
  net : Vector Int 8
  resid : Int
  vsys : Nat
  ispNet : Int
  deriving DecidableEq, Repr

/-- POOLDATA payload (Table 17-4): K and L_LOC in tokens, powers in mW. -/
structure PoolMsg where
  k : Nat
  lloc : Nat
  pfwd : Nat
  pch : Nat
  pex : Nat
  auditNo : Nat
  deriving DecidableEq, Repr

/-- One mirror record (Table 17-5). -/
structure MirrorRec where
  supLevel : Nat
  retLevel : Nat
  supReq : Nat
  retReq : Nat
  supEnd : Nat
  retEnd : Nat
  burstE : Nat
  burstEnd : Nat
  supSeq : Nat
  retSeq : Nat
  flags : BitVec 8
  supAge : Nat
  retAge : Nat
  deriving DecidableEq, Repr

/-- MIRROR payload (Table 17-4): records of consecutive accounts from `first`. -/
structure MirrorMsg where
  first : Nat
  recs : List MirrorRec
  deriving DecidableEq, Repr

/-- POLICY payload (Table 17-4). -/
structure PolicyMsg where
  phase : Nat
  heater : Bool
  suspended : Bool
  restOff : Bool
  band : Nat
  ordGen : BitVec 8
  tPre : Nat
  tBulk : Nat
  soc : Nat
  coarse : Bool
  deriving DecidableEq, Repr

/-- ORDERS payload (Table 17-4): generation and (slot, merged value) entries. -/
structure OrdersMsg where
  gen : BitVec 8
  entries : List (Nat × BitVec 32)
  deriving DecidableEq, Repr

/-- CONTROL payload (Table 17-4). -/
structure ControlMsg where
  command : Nat
  tick : Nat
  deriving DecidableEq, Repr

/-- What the ADC delivers at the sample instant of a phase (R241, R242, R256): the VDS of the sensed switch in µV, VSYS and
VCIN in mV, and for the outer loops at the first present phase VSTK in mV, ISS and I_PACK in mA and the current of the
active input, or of the export port and out of it, in mA; none where a sample has not arrived by its instant. -/
structure LoopSample where
  vds : Option Int
  vsys : Option Nat
  vcin : Option Nat
  vstk : Option Nat
  port : Option Int
  iss : Option Int
  isp : Option Int
  deriving DecidableEq, Repr

/-- The commands of the block, in the order of spec/opcode_table.json. -/
inductive Instr where
  -- lifecycle (chapters 01, 04, 23)
  | startSourceQualifies (vmain vpack vsys : Nat) (tmodeHigh : Bool)
  | vauxLoss
  | runEntry (b : BootRead)
  | safeHoldEntry (b : BootRead)
  | rstNAsserted
  | resetRelease (tmodeHigh : Bool)
  | moscLoss
  | klnLoss
  | pwmPllLossOfLock
  | systemPllLossOfLock
  | lockstepMismatch
  | watchdogKeyWrite (key : BitVec 16) (us : Nat)
  | watchdogPeriodBoundary (us : Nat)
  | watchdogBootTimeout
  | watchdogWake
  | dormantEntry
  | dormantWake (src : WakeSource)
  | dormantBackstop
  | backstopWakeTimeout
  | wakePllLock (iPack : Int) (vsys : Nat)
  | pllLockTimeout (sysLocked : Bool)
  | dormantReentry
  | otpBurnComplete (readBackOk : Bool)
  -- the grid (chapter 01)
  | mergeTick (pc : BitVec 32) (twShed : BitVec 4) (lswBad : BitVec 8)
  | modeDecision (iPackAvg : Int)
  | ledgerClose (memoryOk : Bool)
  | vaultAudit (badCopies : List Nat) (copyLost : Bool)
  | plinthCycleStart
  -- Plinth Bus (chapter 12)
  | pollSlotStart (p : Fin 4) (slot : Fin 16) (bad repBad : Bool)
  | burstReq (p : Fin 4) (f : Frame)
  | release (p : Fin 4) (f : Frame)
  | request (p : Fin 4) (f : Frame)
  | returnReq (p : Fin 4) (f : Frame)
  | order (p : Fin 4) (f : Frame)
  | enrol (p : Fin 4) (f : Frame)
  | status (p : Fin 4) (f : Frame)
  | responseMiss (p : Fin 4) (addr : Byte) (corrupted : Bool)
  | collisionReinvite (p : Fin 4) (addr : Byte)
  | restrictedRecallRepeat (p : Fin 4)
  | shedMinimumExpiry (p : Fin 4)
  | shedLineReadbackMismatch (p : Fin 4)
  | shedLineUncommanded (p : Fin 4)
  -- vault (chapter 13)
  | leaseEnd (acct : Nat) (col : Column)
  | loweringTimeout (acct : Nat) (col : Column)
  | grantUndeliveredTimeout (acct : Nat) (col : Column)
  | requestWaitLimit (acct : Nat) (col : Column)
  | deficitCarryExpiry (col : Column)
  | dischargeOverrun
  | burstWindowEnd (acct : Nat)
  | burstPauseEnd (acct : Nat)
  | throttleGraceEnd
  | enforcementOverdraw (issPair : Int)
  | enforcementRelease
  -- orders (chapter 18)
  | inputPriorityOrder (m : Master) (v : BitVec 32)
  | sysFloorOrder (m : Master) (v : BitVec 32)
  | mainInputCurrentLimitOrder (m : Master) (v : BitVec 32)
  | chargeCurrentCeilingOrder (m : Master) (v : BitVec 32)
  | chargeVoltageCeilingOrder (m : Master) (v : BitVec 32)
  | chargeInhibitOrder (m : Master) (v : BitVec 32)
  | loadSwitchOrder (m : Master) (ch : Fin 8) (v : BitVec 32)
  | pdSourceEnableOrder (m : Master) (port : PdId) (v : BitVec 32)
  | tokenPoolCapOrder (m : Master) (v : BitVec 32)
  | shedOrder (m : Master) (p : Fin 4) (v : BitVec 32)
  | dormantInhibitOrder (m : Master) (v : BitVec 32)
  | mainExportOrder (v : BitVec 32)
  | resetOrder (v : BitVec 32)
  | resetOrderExecute
  | restartOrder (m : Master) (v : BitVec 32)
  | dormantRequestOrder (v : BitVec 32)
  | roleHandoverOrder (v : BitVec 32)
  | plannedDetachOrder (v : BitVec 32)
  | reattachOrder (v : BitVec 32)
  | ownerHandoverOrder (v : BitVec 32)
  | clearSupervisorOrders (v : BitVec 32)
  | provisioningOrder (cmd : BitVec 32) (hashes : Vector (BitVec 256) 4)
  -- Window Port (chapters 19, 22)
  | snapshotRead (f : WinFrame)
  | identity (f : WinFrame)
  | orderWrite (f : WinFrame)
  | w1cAcknowledgeWrite (f : WinFrame)
  | newmapAcknowledge (mask : BitVec 64)
  | stagingBegin (len : BitVec 32)
  | stagingData (addr : Nat) (data : List Byte)
  | stagingEnd
  | stagingAbort
  | nvmOperationComplete (ok : Bool)
  | accsel (v : BitVec 32)
  | decryptCommand (v : BitVec 32)
  | decryptComplete
  -- power path (chapter 05)
  | mainQualified
  | mainDisqualified
  | fastInputOvervoltageTrip
  | pdInputQualified (port : PdId)
  | pdInputDisqualified (port : PdId)
  | requalificationDelayEnd (i : Inp)
  | pairConfirmedOff
  | vcinDrainEnd
  | pairConfirmedOn
  | transferComplete
  | transferBoundExpiry
  | pairNotConfirmedOff
  | reverseCurrentTrip
  | batfetLinearEntry
  | batfetFullyOn
  | sysCollapse
  | collapseRecovery
  | batfetUndervoltageOpening
  | batfetNotOff
  | batfetDropFault
  | linearDissipationFault
  | vcpUndervoltage
  | exportVcinReached
  | exportPairConfirmedOn
  | exportPairNotConfirmedOn
  | exportFloorTimeout
  | safeHoldMainQualified
  | safeHoldMainLost
  | safeHoldBatfetTrip
  | twPresNChange (asserted : Bool)
  -- charger (chapter 06)
  | chargeEvaluation (iPackAvg : Int)
  | chargeTimerExpiry
  | restPatternEdge
  | heaterTimeLimit
  | packCurrentAboveShare
  -- cell monitor (chapter 07)
  | conversionWindowEnd (cells : List Nat) (stack : Nat) (switchDiffers : BitVec 16)
  | diagnosticWindowEnd (cells : List Nat) (stack : Nat)
  | ocvCorrection
  -- converter stage (chapter 08)
  | switchingPeriodStart (ph : Fin 4) (smp : LoopSample)
  | bootstrapRefresh (sw : Fin 16) (bootOkAfter : Bool)
  | phaseOvercurrent (ph : Fin 4) (sw : Fin 4) (uv : Nat)
  | stageOvercurrent (iscMa : Nat)
  | chiselOffStep2 (ph : Fin 4)
  | chiselOffComplete (ph : Fin 4)
  | readBackWindowEnd (sw : Fin 16) (edgeOn : Bool) (gateMv : Nat)
  | prechargeEnd (bootOk : BitVec 8)
  | calibrationRunEnd (ph : Fin 4) (vdsUv : Vector Nat 4) (iscMa : Nat)
  -- loop engine (chapter 09)
  | ldi (dest : BitVec 6) (imm : BitVec 16)
  | ldc (dest : BitVec 6) (idx : BitVec 12)
  | mov (dest a : BitVec 6)
  | add (dest a b : BitVec 6)
  | sub (dest a b : BitVec 6)
  | mul (dest a b : BitVec 6)
  | min (dest a b : BitVec 6)
  | max (dest a b : BitVec 6)
  | asr (dest a : BitVec 6) (count : BitVec 6)
  | blt (a b : BitVec 6) (skip : BitVec 8)
  | out (a : BitVec 6)
  | illegalInstruction
  | loopOverrun (d : Fin 8) (cycles : Nat)
  -- ledger (chapter 10)
  | ledgerSample (smp : Sample)
  | missingSample (ch : Fin 8)
  | checkpointDue
  | logScanEnd
  -- faults (chapter 11)
  | probeStart (code : BitVec 16) (inst : BitVec 8)
  | probeResult (code : BitVec 16) (inst : BitVec 8) (pass : Bool) (klnSec : Nat)
  | probeTimeout (code : BitVec 16) (inst : BitVec 8)
  | holdOffExpiry
  | rotationItem (item : Fin 10) (inst : BitVec 8) (pass : Bool) (scrub : Option (BitVec 8))
  | rotationPeriodEnd
  | recordCoalesceExpiry (code : BitVec 16) (inst : BitVec 8)
  -- USB-C ports (chapter 14)
  | ccAttach (port : PdId) (asSource : Bool) (cc2 : Bool) (vconnin : Bool)
  | ccDetach (port : PdId)
  | drpToggle (port : PdId)
  | sourceCapabilities (port : PdId) (pdos : List PdoIn) (eprCapable eprList rev2 : Bool)
  | eprKeepalive (port : PdId) (answered : Bool)
  | pdAccept (port : PdId)
  | psRdy (port : PdId)
  | pdRequest (port : PdId) (pos : Nat) (maxI10 : Nat)
  | sourceTransitionDelayEnd (port : PdId)
  | vbusTransitionComplete (port : PdId)
  | hardReset (port : PdId)
  | vbusDischargeComplete (port : PdId)
  | errorRecoveryEnd (port : PdId)
  | sourceRecoveryEnd (port : PdId)
  | sinktxngWaitEnd (port : PdId)
  | vconnSwap (port : PdId) (vconnin : Bool)
  | prSwap (port : PdId)
  | drSwap (port : PdId)
  | frSwap (port : PdId)
  | getSinkCap (port : PdId)
  | getSourceCap (port : PdId)
  | discoverIdentity (port : PdId)
  | discoverSvids (port : PdId) (listed : Bool)
  | discoverModes (port : PdId) (svid : BitVec 16)
  | enterMode (port : PdId) (svid : BitVec 16)
  | exitMode (port : PdId) (svid : BitVec 16)
  | unstructuredVdm (port : PdId)
  | bist (port : PdId) (carrier : Bool)
  | cableIdentityReply (port : PdId) (fiveAmp : Bool)
  | cableDiscoveryTimeout (port : PdId)
  | moistureMeasurement (port : PdId) (kohm : Vector Nat 4)
  | corrosionTime (port : PdId)
  | vbusOvervoltage (port : PdId)
  | ccSbuOvervoltage (port : PdId)
  | ccSbuOvervoltageRecovery (port : PdId)
  | vconnTrip (port : PdId)
  | bmcReadbackMismatch (port : PdId)
  -- load switches (chapter 15)
  | currentLimitTimeout (ch : Fin 8)
  | shortCircuitTrip (ch : Fin 8)
  | thermalTrip (ch : Fin 8)
  | retryDelayEnd (ch : Fin 8)
  | tripFreeTime (ch : Fin 8)
  | lswinUndervoltage
  | lswinRecovery
  | onStateOpenLoad (ch : Fin 8)
  | offStateTest (ch : Fin 8) (outMv : Nat)
  | missingFreeWheelPath (ch : Fin 8)
  | minimumOffTimeEnd (ch : Fin 8)
  | channelStartStagger
  -- thermal (chapter 16)
  | sensorSample (i : Fin 11) (r : SensorReading)
  | kilnGuardTrip (src : KilnSource)
  | kilnGuardRelease
  -- twin (chapter 17)
  | heartbeat (crcOk agree : Bool) (h : HeartbeatMsg)
  | heartbeatLoss
  | linkTrained
  | ident (hdr : LinkHdr) (m : IdentMsg)
  | identRepeat
  | cells (hdr : LinkHdr) (m : CellsMsg)
  | ledger (hdr : LinkHdr) (m : LedgerMsg)
  | pooldata (hdr : LinkHdr) (m : PoolMsg)
  | mirror (hdr : LinkHdr) (m : MirrorMsg)
  | policy (hdr : LinkHdr) (m : PolicyMsg)
  | orders (hdr : LinkHdr) (m : OrdersMsg)
  | control (hdr : LinkHdr) (m : ControlMsg)
  | controlEffective
  | nak (hdr : LinkHdr) (type seq : BitVec 8)
  | fencingDelayEnd
  | fencingGapSample (lineAsserted : Bool)
  | contestSlot (lineLow : Bool)
  | twTripNAsserted
  | tripReadbackMismatch
  | attachTimeout
  | promotionComplete
  | shareRampEnd
  | shareError
  | twRefclkLoss
  -- owner records (chapter 20)
  | epochFuseProgrammed (readBackOk : Bool)
  | eraseCreditAccrual
  | patinaRecordDue
  -- rows added at the end of the table
  | rstNReleased (tmodeHigh : Bool)
  | moscRestored (tmodeHigh : Bool)
  | shedLineUncommandedCleared (p : Fin 4)
  | channelCooled (ch : Fin 8)
  | vauxSourceChange (vmain vpack vsys : Nat)
  | twTripNReleased
  deriving DecidableEq, Repr

end Sys2Proof
end

