-- ==== Sys2Proof/WellFormed.lean ====
section
/-! DEFINITION. Which commands the world outside the controller can send: an operand that the pins, the bus
or the published tables cannot carry makes a command ill-formed.  Every meaning is total all the same. -/

namespace Sys2Proof

/-- A Plinth frame that can stand on the line: at most 16 payload bytes, and a source that is one device
(Table 12-2). -/
def Frame.fits (f : Frame) : Bool := decide (f.payload.length ≤ 16) && f.src != 0xFF

/-- A transaction whose row is that of its opcode byte (Table 19-3); the stray bits do not make a byte. -/
def WinFrame.fits (op : Byte) (f : WinFrame) : Bool := f.bytes.head? == some op && decide (f.strayBits < 8)

/-- The operands of a command are in their ranges. -/
def wellFormed : Instr → Bool
  | .startSourceQualifies _ _ _ _ => true
  | .vauxLoss => true
  | .runEntry _ => true
  | .safeHoldEntry _ => true
  | .rstNAsserted => true
  | .resetRelease _ => true
  | .moscLoss => true
  | .klnLoss => true
  | .pwmPllLossOfLock => true
  | .systemPllLossOfLock => true
  | .lockstepMismatch => true
  | .watchdogKeyWrite _ _ => true
  | .watchdogPeriodBoundary _ => true
  | .watchdogBootTimeout => true
  | .watchdogWake => true
  | .dormantEntry => true
  | .dormantWake _ => true
  | .dormantBackstop => true
  | .backstopWakeTimeout => true
  | .wakePllLock _ _ => true
  | .pllLockTimeout _ => true
  | .dormantReentry => true
  | .otpBurnComplete _ => true
  | .mergeTick _ _ _ => true
  | .modeDecision _ => true
  | .ledgerClose _ => true
  | .vaultAudit badCopies _ => badCopies.all fun n => decide (n ≤ 4066)
  | .plinthCycleStart => true
  | .pollSlotStart _ _ _ _ => true
  | .burstReq _ f => f.fits
  | .release _ f => f.fits
  | .request _ f => f.fits
  | .returnReq _ f => f.fits
  | .order _ f => f.fits
  | .enrol _ f => f.fits
  | .status _ f => f.fits
  | .responseMiss _ addr _ => addr != 0xFF
  | .collisionReinvite _ addr => addr != 0xFF
  | .restrictedRecallRepeat _ => true
  | .shedMinimumExpiry _ => true
  | .shedLineReadbackMismatch _ => true
  | .shedLineUncommanded _ => true
  | .leaseEnd acct _ => decide (acct ≤ 4066)
  | .loweringTimeout acct _ => decide (acct ≤ 4066)
  | .grantUndeliveredTimeout acct _ => decide (acct ≤ 4066)
  | .requestWaitLimit acct _ => decide (acct ≤ 4066)
  | .deficitCarryExpiry _ => true
  | .dischargeOverrun => true
  | .burstWindowEnd acct => decide (acct ≤ 4066)
  | .burstPauseEnd acct => decide (acct ≤ 4066)
  | .throttleGraceEnd => true
  | .enforcementOverdraw _ => true
  | .enforcementRelease => true
  | .inputPriorityOrder _ _ => true
  | .sysFloorOrder _ _ => true
  | .mainInputCurrentLimitOrder _ _ => true
  | .chargeCurrentCeilingOrder _ _ => true
  | .chargeVoltageCeilingOrder _ _ => true
  | .chargeInhibitOrder _ _ => true
  | .loadSwitchOrder _ _ _ => true
  | .pdSourceEnableOrder _ _ _ => true
  | .tokenPoolCapOrder _ _ => true
  | .shedOrder _ _ _ => true
  | .dormantInhibitOrder _ _ => true
  | .mainExportOrder _ => true
  | .resetOrder _ => true
  | .resetOrderExecute => true
  | .restartOrder _ _ => true
  | .dormantRequestOrder _ => true
  | .roleHandoverOrder _ => true
  | .plannedDetachOrder _ => true
  | .reattachOrder _ => true
  | .ownerHandoverOrder _ => true
  | .clearSupervisorOrders _ => true
  | .provisioningOrder _ _ => true
  | .snapshotRead f => WinFrame.fits 0x0B f
  | .identity f => WinFrame.fits 0x9F f
  | .orderWrite f => WinFrame.fits 0x02 f
  | .w1cAcknowledgeWrite f => WinFrame.fits 0x06 f
  | .newmapAcknowledge _ => true
  | .stagingBegin _ => true
  | .stagingData addr data => decide (addr % 4 = 0) && decide (data.length % 4 = 0) && decide (0 < data.length) && decide (data.length ≤ 256)
  | .stagingEnd => true
  | .stagingAbort => true
  | .nvmOperationComplete _ => true
  | .accsel _ => true
  | .decryptCommand _ => true
  | .decryptComplete => true
  | .mainQualified => true
  | .mainDisqualified => true
  | .fastInputOvervoltageTrip => true
  | .pdInputQualified _ => true
  | .pdInputDisqualified _ => true
  | .requalificationDelayEnd _ => true
  | .pairConfirmedOff => true
  | .vcinDrainEnd => true
  | .pairConfirmedOn => true
  | .transferComplete => true
  | .transferBoundExpiry => true
  | .pairNotConfirmedOff => true
  | .reverseCurrentTrip => true
  | .batfetLinearEntry => true
  | .batfetFullyOn => true
  | .sysCollapse => true
  | .collapseRecovery => true
  | .batfetUndervoltageOpening => true
  | .batfetNotOff => true
  | .batfetDropFault => true
  | .linearDissipationFault => true
  | .vcpUndervoltage => true
  | .exportVcinReached => true
  | .exportPairConfirmedOn => true
  | .exportPairNotConfirmedOn => true
  | .exportFloorTimeout => true
  | .safeHoldMainQualified => true
  | .safeHoldMainLost => true
  | .safeHoldBatfetTrip => true
  | .twPresNChange _ => true
  | .chargeEvaluation _ => true
  | .chargeTimerExpiry => true
  | .restPatternEdge => true
  | .heaterTimeLimit => true
  | .packCurrentAboveShare => true
  | .conversionWindowEnd cells _ _ => decide (cells.length ≤ 16)
  | .diagnosticWindowEnd cells _ => decide (cells.length ≤ 16)
  | .ocvCorrection => true
  | .switchingPeriodStart _ _ => true
  | .bootstrapRefresh _ _ => true
  | .phaseOvercurrent _ _ _ => true
  | .stageOvercurrent _ => true
  | .chiselOffStep2 _ => true
  | .chiselOffComplete _ => true
  | .readBackWindowEnd _ _ _ => true
  | .prechargeEnd _ => true
  | .calibrationRunEnd _ _ _ => true
  | .ldi _ _ => true
  | .ldc _ _ => true
  | .mov _ _ => true
  | .add _ _ _ => true
  | .sub _ _ _ => true
  | .mul _ _ _ => true
  | .min _ _ _ => true
  | .max _ _ _ => true
  | .asr _ _ _ => true
  | .blt _ _ _ => true
  | .out _ => true
  | .illegalInstruction => true
  | .loopOverrun _ _ => true
  | .ledgerSample smp => decide (smp.lsw.length = 8) && decide (smp.tch.length = 8)
  | .missingSample _ => true
  | .checkpointDue => true
  | .logScanEnd => true
  | .probeStart _ _ => true
  | .probeResult _ _ _ _ => true
  | .probeTimeout _ _ => true
  | .holdOffExpiry => true
  | .rotationItem _ _ _ _ => true
  | .rotationPeriodEnd => true
  | .recordCoalesceExpiry _ _ => true
  | .ccAttach _ _ _ _ => true
  | .ccDetach _ => true
  | .drpToggle _ => true
  | .sourceCapabilities _ pdos _ _ _ => decide (pdos.length ≤ 11)
  | .eprKeepalive _ _ => true
  | .pdAccept _ => true
  | .psRdy _ => true
  | .pdRequest _ pos _ => decide (1 ≤ pos) && decide (pos ≤ 11)
  | .sourceTransitionDelayEnd _ => true
  | .vbusTransitionComplete _ => true
  | .hardReset _ => true
  | .vbusDischargeComplete _ => true
  | .errorRecoveryEnd _ => true
  | .sourceRecoveryEnd _ => true
  | .sinktxngWaitEnd _ => true
  | .vconnSwap _ _ => true
  | .prSwap _ => true
  | .drSwap _ => true
  | .frSwap _ => true
  | .getSinkCap _ => true
  | .getSourceCap _ => true
  | .discoverIdentity _ => true
  | .discoverSvids _ _ => true
  | .discoverModes _ _ => true
  | .enterMode _ _ => true
  | .exitMode _ _ => true
  | .unstructuredVdm _ => true
  | .bist _ _ => true
  | .cableIdentityReply _ _ => true
  | .cableDiscoveryTimeout _ => true
  | .moistureMeasurement _ _ => true
  | .corrosionTime _ => true
  | .vbusOvervoltage _ => true
  | .ccSbuOvervoltage _ => true
  | .ccSbuOvervoltageRecovery _ => true
  | .vconnTrip _ => true
  | .bmcReadbackMismatch _ => true
  | .currentLimitTimeout _ => true
  | .shortCircuitTrip _ => true
  | .thermalTrip _ => true
  | .retryDelayEnd _ => true
  | .tripFreeTime _ => true
  | .lswinUndervoltage => true
  | .lswinRecovery => true
  | .onStateOpenLoad _ => true
  | .offStateTest _ _ => true
  | .missingFreeWheelPath _ => true
  | .minimumOffTimeEnd _ => true
  | .channelStartStagger => true
  | .sensorSample _ _ => true
  | .kilnGuardTrip _ => true
  | .kilnGuardRelease => true
  | .heartbeat _ _ _ => true
  | .heartbeatLoss => true
  | .linkTrained => true
  | .ident _ _ => true
  | .identRepeat => true
  | .cells _ m => decide (m.cells.length ≤ 16)
  | .ledger _ _ => true
  | .pooldata _ _ => true
  | .mirror _ m => decide (m.recs.length ≤ 7)
  | .policy _ _ => true
  | .orders _ m => m.entries.all fun e => decide (e.1 < 23)
  | .control _ _ => true
  | .controlEffective => true
  | .nak _ _ _ => true
  | .fencingDelayEnd => true
  | .fencingGapSample _ => true
  | .contestSlot _ => true
  | .twTripNAsserted => true
  | .tripReadbackMismatch => true
  | .attachTimeout => true
  | .promotionComplete => true
  | .shareRampEnd => true
  | .shareError => true
  | .twRefclkLoss => true
  | .epochFuseProgrammed _ => true
  | .eraseCreditAccrual => true
  | .patinaRecordDue => true
  | .rstNReleased _ => true
  | .moscRestored _ => true
  | .shedLineUncommandedCleared _ => true
  | .channelCooled _ => true
  | .vauxSourceChange _ _ _ => true
  | .twTripNReleased => true

end Sys2Proof
end

