-- ==== Sys2Proof/Machine/Crypto.lean ====
section
/-! DEFINITION. The two algorithms that SIGN names (R82, Table 03-24): SHA-256, and the verification of an ECDSA
signature over the curve P-256.  The spec names them and gives their operands and octet order; what they compute is
taken from the standards that define them, FIPS 180-4 and FIPS 186-4.  Log entry 5.  Numbers are Nat, reduced at every
step, so that the kernel can evaluate them. -/

namespace Sys2Proof.Machine

/-- `k` of a number, the number evaluated first. -/
def forced {α : Type} (n : Nat) (k : Nat → α) : α :=
  match n with
  | 0 => k 0
  | m + 1 => k (Nat.succ m)

/-! ### SHA-256 (FIPS 180-4) -/

namespace Sha

/-- Low 32 bits. -/
def low (n : Nat) : Nat := Nat.mod n 4294967296

/-- Exclusive or of three. -/
def xor3 (x y z : Nat) : Nat := Nat.xor (Nat.xor x y) z

/-- A 32-bit number twice over: its low 32 bits after a shift right by `n` are its rotation right by `n`. -/
def twice (x : Nat) : Nat := Nat.mul 4294967297 x

/-- The exclusive or of three rotations right. -/
def rot3 (i j k x : Nat) : Nat :=
  forced (twice x) fun y => low (xor3 (Nat.shiftRight y i) (Nat.shiftRight y j) (Nat.shiftRight y k))

/-- The exclusive or of two rotations right and a shift right. -/
def rot2 (i j k x : Nat) : Nat :=
  forced (twice x) fun y => Nat.xor (low (Nat.xor (Nat.shiftRight y i) (Nat.shiftRight y j))) (Nat.shiftRight x k)

def bigSigma0 (x : Nat) : Nat := rot3 2 13 22 x
def bigSigma1 (x : Nat) : Nat := rot3 6 11 25 x
def sigma0 (x : Nat) : Nat := rot2 7 18 3 x
def sigma1 (x : Nat) : Nat := rot2 17 19 10 x

/-- Choice: `y` where `x` has 1, `z` elsewhere. -/
def ch (x y z : Nat) : Nat := Nat.xor (Nat.land x y) (Nat.land (Nat.xor x 4294967295) z)

/-- Majority. -/
def maj (x y z : Nat) : Nat := xor3 (Nat.land x y) (Nat.land x z) (Nat.land y z)

/-- Round constants. -/
def constants : List Nat :=
  [0x428a2f98, 0x71374491, 0xb5c0fbcf, 0xe9b5dba5, 0x3956c25b, 0x59f111f1, 0x923f82a4, 0xab1c5ed5,
   0xd807aa98, 0x12835b01, 0x243185be, 0x550c7dc3, 0x72be5d74, 0x80deb1fe, 0x9bdc06a7, 0xc19bf174]
  ++ [0xe49b69c1, 0xefbe4786, 0x0fc19dc6, 0x240ca1cc, 0x2de92c6f, 0x4a7484aa, 0x5cb0a9dc, 0x76f988da,
   0x983e5152, 0xa831c66d, 0xb00327c8, 0xbf597fc7, 0xc6e00bf3, 0xd5a79147, 0x06ca6351, 0x14292967]
  ++ [0x27b70a85, 0x2e1b2138, 0x4d2c6dfc, 0x53380d13, 0x650a7354, 0x766a0abb, 0x81c2c92e, 0x92722c85,
   0xa2bfe8a1, 0xa81a664b, 0xc24b8b70, 0xc76c51a3, 0xd192e819, 0xd6990624, 0xf40e3585, 0x106aa070]
  ++ [0x19a4c116, 0x1e376c08, 0x2748774c, 0x34b0bcb5, 0x391c0cb3, 0x4ed8aa4a, 0x5b9cca4f, 0x682e6ff3,
   0x748f82ee, 0x78a5636f, 0x84c87814, 0x8cc70208, 0x90befffa, 0xa4506ceb, 0xbef9a3f7, 0xc67178f2]

/-- The eight working variables, or an intermediate hash value. -/
structure Vars where
  a : Nat
  b : Nat
  c : Nat
  d : Nat
  e : Nat
  f : Nat
  g : Nat
  h : Nat
  deriving DecidableEq, Repr

/-- The initial hash value. -/
def start : Vars :=
  { a := 0x6a09e667, b := 0xbb67ae85, c := 0x3c6ef372, d := 0xa54ff53a, e := 0x510e527f, f := 0x9b05688c, g := 0x1f83d9ab
    h := 0x5be0cd19 }

/-- One round with its constant and its schedule word. -/
def round (v : Vars) (k w : Nat) : Vars :=
  forced (Nat.add (Nat.add (Nat.add v.h (bigSigma1 v.e)) (ch v.e v.f v.g)) (Nat.add k w)) fun t1 =>
    forced (low (Nat.add v.d t1)) fun e =>
      forced (low (Nat.add t1 (Nat.add (bigSigma0 v.a) (maj v.a v.b v.c)))) fun a =>
        { a := a, b := v.a, c := v.b, d := v.c, e := e, f := v.e, g := v.f, h := v.g }

/-- Sixteen words of the message schedule, the next one first. -/
structure Window where
  w0 : Nat
  w1 : Nat
  w2 : Nat
  w3 : Nat
  w4 : Nat
  w5 : Nat
  w6 : Nat
  w7 : Nat
  w8 : Nat
  w9 : Nat
  w10 : Nat
  w11 : Nat
  w12 : Nat
  w13 : Nat
  w14 : Nat
  w15 : Nat
  deriving DecidableEq, Repr

/-- The rounds over the constants: each takes the next word of the schedule, and the schedule moves one word on. -/
def rounds : List Nat → Window → Vars → Vars
  | [], _, v => v
  | k :: ks, ⟨w0, w1, w2, w3, w4, w5, w6, w7, w8, w9, w10, w11, w12, w13, w14, w15⟩, v =>
    match round v k w0 with
    | ⟨a, b, c, d, e, f, g, h⟩ =>
      forced (low (Nat.add (Nat.add (sigma1 w14) w9) (Nat.add (sigma0 w1) w0))) fun w =>
        rounds ks ⟨w1, w2, w3, w4, w5, w6, w7, w8, w9, w10, w11, w12, w13, w14, w15, w⟩ ⟨a, b, c, d, e, f, g, h⟩

/-- The first 16 words of a schedule. -/
def window (l : List Nat) : Window :=
  match l with
  | [w0, w1, w2, w3, w4, w5, w6, w7, w8, w9, w10, w11, w12, w13, w14, w15] =>
    ⟨w0, w1, w2, w3, w4, w5, w6, w7, w8, w9, w10, w11, w12, w13, w14, w15⟩
  | _ => ⟨0, 0, 0, 0, 0, 0, 0, 0, 0, 0, 0, 0, 0, 0, 0, 0⟩

/-- One block of 16 words entered into the hash value. -/
def block (v : Vars) (ws : List Nat) : Vars :=
  match rounds constants (window ws) v with
  | ⟨a, b, c, d, e, f, g, h⟩ =>
    { a := low (v.a + a), b := low (v.b + b), c := low (v.c + c), d := low (v.d + d), e := low (v.e + e), f := low (v.f + f)
      g := low (v.g + g), h := low (v.h + h) }

/-- A number from octets, the most significant first. -/
def beNat : List Byte → Nat → Nat
  | [], n => n
  | b :: bs, n => beNat bs (256 * n + b.toNat)

/-- `n` big-endian words of 4 octets. -/
def wordsBe : Nat → List Byte → List Nat
  | 0, _ => []
  | n + 1, bs => beNat (bs.take 4) 0 :: wordsBe n (bs.drop 4)

/-- `n` blocks of 64 octets entered. -/
def blocks : Nat → Vars → List Byte → Vars
  | 0, v, _ => v
  | n + 1, v, bs => blocks n (block v (wordsBe 16 (bs.take 64))) (bs.drop 64)

/-- `n` octets of a number, the most significant first. -/
def toBe : Nat → Nat → List Byte
  | 0, _ => []
  | n + 1, v => toBe n (v / 256) ++ [BitVec.ofNat 8 v]

/-- What follows the last whole block of a message of `len` octets whose rest is `rest`: the bit 1, zeros, and the length
in bits. -/
def tail (len : Nat) (rest : List Byte) : List Byte :=
  rest ++ 0x80 :: (List.replicate ((119 - len % 64) % 64) 0 ++ toBe 8 (8 * len))

/-- The hash value as a number, its first octet most significant. -/
def Vars.value (v : Vars) : Nat := ([v.a, v.b, v.c, v.d, v.e, v.f, v.g, v.h]).foldl (fun n w => 4294967296 * n + w) 0

end Sha

/-- SHA-256 of octets, as a number whose most significant octet is the first of the digest. -/
def sha256 (bs : List Byte) : Nat :=
  let n := bs.length
  let v := Sha.blocks (n / 64) Sha.start bs
  let t := Sha.tail n (bs.drop (64 * (n / 64)))
  (Sha.blocks (t.length / 64) v t).value

/-! ### ECDSA over P-256 (FIPS 186-4) -/

namespace P256

/-- The field prime. -/
def p : Nat := 0xffffffff00000001000000000000000000000000ffffffffffffffffffffffff

/-- The order of the base point. -/
def n : Nat := 0xffffffff00000000ffffffffffffffffbce6faada7179e84f3b9cac2fc632551

/-- The curve's constant term. -/
def b : Nat := 0x5ac635d8aa3a93e7b3ebbd55769886bc651d06b0cc53b0f63bce3c3e27d2604b

def mul (x y : Nat) : Nat := Nat.mod (Nat.mul x y) p
def add (x y : Nat) : Nat := Nat.mod (Nat.add x y) p
def sub (x y : Nat) : Nat := Nat.mod (Nat.sub (Nat.add p x) y) p

/-- A point in Jacobian coordinates; `z` = 0 is the point at infinity. -/
structure Pt where
  x : Nat
  y : Nat
  z : Nat
  deriving DecidableEq, Repr

/-- The base point. -/
def g : Pt :=
  { x := 0x6b17d1f2e12c4247f8bce6e563a440f277037d812deb33a0f4a13945d898c296
    y := 0x4fe342e2fe1a7f9b8ee7eb4a7c0f9e162bce33576b315ececbb6406837bf51f5, z := 1 }

/-- The point at infinity. -/
def infinity : Pt := { x := 1, y := 1, z := 0 }

/-- A point with its coordinates evaluated. -/
def Pt.eval (q : Pt) : Pt := forced q.x fun x => forced q.y fun y => forced q.z fun z => ⟨x, y, z⟩

/-- Twice a point. -/
def double (q : Pt) : Pt :=
  forced (mul q.z q.z) fun d => forced (mul q.y q.y) fun c => forced (mul q.x c) fun e =>
    forced (mul 3 (mul (sub q.x d) (add q.x d))) fun a =>
      forced (sub (mul a a) (mul 8 e)) fun x =>
        { x := x, y := sub (mul a (sub (mul 4 e) x)) (mul 8 (mul c c))
          z := sub (sub (mul (add q.y q.z) (add q.y q.z)) c) d }

/-- The sum of two points. -/
def plus (q r : Pt) : Pt :=
  if q.z = 0 then r
  else if r.z = 0 then q
  else
    forced (mul q.z q.z) fun qz => forced (mul r.z r.z) fun rz =>
      forced (mul q.x rz) fun u => forced (sub (mul r.x qz) u) fun h =>
        forced (mul q.y (mul r.z rz)) fun s => forced (sub (mul r.y (mul q.z qz)) s) fun t =>
          if h = 0 then (if t = 0 then double q else infinity)
          else
            forced (mul h h) fun hh => forced (mul h hh) fun hhh => forced (mul u hh) fun v =>
              forced (sub (sub (mul t t) hhh) (mul 2 v)) fun x =>
                { x := x, y := sub (mul t (sub v x)) (mul s hhh), z := mul h (mul q.z r.z) }

/-- `k` times a point, over the `i` low bits of `k`, from the highest. -/
def times (k : Nat) (q : Pt) : Nat → Pt → Pt
  | 0, acc => acc
  | i + 1, acc =>
    match (double acc).eval with
    | ⟨x, y, z⟩ =>
      if k.testBit i then
        match (plus ⟨x, y, z⟩ q).eval with
        | ⟨u, v, w⟩ => times k q i ⟨u, v, w⟩
      else times k q i ⟨x, y, z⟩

/-- `x` to the power `e` modulo `m`, over the `i` low bits of `e`. -/
def power (m x e : Nat) : Nat → Nat → Nat
  | 0, acc => acc
  | i + 1, acc =>
    forced (Nat.mod (Nat.mul acc acc) m) fun s =>
      if e.testBit i then forced (Nat.mod (Nat.mul s x) m) fun t => power m x e i t else power m x e i s

/-- The inverse modulo a prime. -/
def inverse (m x : Nat) : Nat := power m x (m - 2) 256 1

/-- A public key is a point of the curve other than infinity. -/
def onCurve (x y : Nat) : Bool :=
  decide (x < p) && decide (y < p) && decide (mul y y = add (sub (mul x (mul x x)) (mul 3 x)) b)

end P256

/-- Whether (r, s) is a signature of the digest `e` under the public key (x, y). -/
def ecdsaVerify (x y r s e : Nat) : Bool :=
  let ok := P256.onCurve x y && decide (1 ≤ r) && decide (r < P256.n) && decide (1 ≤ s) && decide (s < P256.n)
  ok && (forced (P256.inverse P256.n s) fun w =>
    forced (e * w % P256.n) fun u => forced (r * w % P256.n) fun v =>
      match P256.plus (P256.times u P256.g 256 P256.infinity) (P256.times v ⟨x, y, 1⟩ 256 P256.infinity) with
      | ⟨a, _, z⟩ =>
        forced z fun z => z != 0 &&
          decide (P256.mul a (P256.inverse P256.p (P256.mul z z)) % P256.n = r))

end Sys2Proof.Machine
end

