-- ==== Sys2Proof/Word.lean ====
section
/-! DEFINITION. The word type of the register space and of the loop engine, and its plainest
arithmetic (R8, R244). -/

namespace Sys2Proof

/-- A 32-bit register, or a loop engine value in Q16.16 (R8, R244). -/
abbrev Word := BitVec 32

/-- The Q16.16 word nearest an exact scaled integer: saturation at both ends (R244). -/
def Word.ofSat (v : Int) : Word :=
  if v > 2147483647 then 0x7FFFFFFF
  else if v < -2147483648 then 0x80000000
  else BitVec.ofInt 32 v

/-- Unsigned saturation of a count to `n` bits (R534). -/
def satNat (n v : Nat) : Nat := min v (2 ^ n - 1)

/-- Signed saturation to `n` bits. -/
def satInt (n : Nat) (v : Int) : Int := max (-(2 ^ (n - 1) : Int)) (min v (2 ^ (n - 1) - 1))

end Sys2Proof
end

