-- ==== Sys2Proof/Config.lean ====
section
/-! DEFINITION. What the spec leaves open, as constants with no body, and the fixed quantities that
several chapters share. -/

namespace Sys2Proof.Config

/-- How far an interrupted OTP burn came, by the free counter: a value between the old and the new
one (R85). Log entry 6. -/
opaque burnReached : Nat → Nat

/-- Whether a provisioning burn that a reset interrupted had completed. Log entry 6. -/
opaque burnDone : Nat → Bool

/-- Byte `i` of a record body whose layout the spec does not give (Table 20-4). Log entry 7. -/
opaque recordByte : Nat → Nat → BitVec 8

/-- Task whose key the firmware writes at Run entry to start the watchdog, by the free counter (R123). Log entry 6. -/
opaque startTask : Nat → Fin 6

/-- Quotient of a loop feed-forward input whose divisor reads 0 (Table 09-3). Log entry 6. -/
opaque ratioByZero : Int → BitVec 32

/-- State of charge, 0.01 %, that the OCV curve gives for an average cell voltage at which it states
none: outside its ends, or on a span between two equal points (R202). Log entry 6. -/
opaque ocvOutside : Nat → Nat

/-- A record torn by a reset or power loss: whether the header of the record in progress had been
programmed (R522). Log entry 6. -/
opaque tornHeader : Nat → Bool

/-- A page program that a reset or power loss cuts short leaves the bytes it covers in no stated
condition: the byte at an offset (R96). Log entry 6. -/
opaque tornByte : Nat → Nat → BitVec 8

/-- The word a microcode fetch beyond the loaded words returns. Log entry 6. -/
opaque pastMicrocode : Nat → BitVec 32

/-- Sequence in the control byte of the BEACON of a cycle: R314 counts unicast messages alone. Log entry 6. -/
opaque beaconSeq : BitVec 32 → BitVec 4

/-- Current target of a phase in its calibration run, mA: R229 states a bound alone. Log entry 35. -/
opaque calTarget : Nat → Nat

/-- Charge, 2^-32 mC, that a close books for a channel under a rotation injection which the SYS closure does not determine:
Table 11-6 names it derived and gives no figure. Log entry 131. -/
opaque derivedCharge : Nat → Int

/-- Output of the analog error amplifier of Backstop, mA, by the amount in mV by which VSYS lies below V_BS: R253 states no
gain. Log entry 116. -/
opaque errorAmp : Nat → Nat

/-- Gain of the share integrator per heartbeat interval, in thousandths: R456 states the crossover
alone. Log entry 55. -/
opaque shareGain : Nat

/-- Cell refusal voltage V_REF, 0.1 mV (Table 06-1). -/
def vRef : Nat := 10000

/-- Cell limit margin ΔV_CL, mV (Table 06-1). -/
def dvCl : Nat := 10

/-- Stack consistency threshold ΔV_SC, mV (Table 07-1). -/
def dvSc : Nat := 100

/-- Twin disagreement threshold ΔV_TW, 0.1 mV (Table 07-1). -/
def dvTw : Nat := 80

/-- I_LEAK over one close, µC (R267). -/
def leakClose : Nat := 500

/-- Recall deadline t_RD, ms (Table 13-1). -/
def tRd : Nat := 20

/-- The vendor SVID (Table 14-4). -/
def svid : BitVec 16 := 0x3A6D

end Sys2Proof.Config
end

