-- ==== Sys2Proof/Machine/Image.lean ====
section
/-! DEFINITION. The Maquette configuration image as data (chapter 03): one structure per section
of Table 03-3, one field per field of its body table, in the units of that table. -/

namespace Sys2Proof.Machine

/-- HEAD (Table 03-4). -/
structure MqHead where
  imageLen : Nat := 0
  secVersion : Nat := 0
  checked : Bool := false
  rollbackCommit : Bool := false
  build : Nat := 0
  eteth : Nat := 0
  lockMask : BitVec 32 := 0
  revokeMask : BitVec 4 := 0
  nvmSize : Nat := 0
  nvmAddrMode : Nat := 3
  groupId : BitVec 64 := 0
  label : List Byte := []
  deriving DecidableEq, Repr

/-- PACK (Table 03-6). -/
structure MqPack where
  chem : Nat := 1
  n : Nat := 8
  cap : Nat := 0
  vFloat : Nat := 0
  vRech : Nat := 0
  vPre : Nat := 0
  vCond : Nat := 0
  vOv : Nat := 0
  vUv : Nat := 0
  iCeil : Nat := 0
  iDis : Nat := 0
  iPre : Nat := 0
  iTerm : Nat := 0
  tPre : Nat := 0
  tBulk : Nat := 0
  ocv : List Nat := []
  iCond : Nat := 0
  deriving DecidableEq, Repr

/-- One pack band entry (Table 03-8). -/
structure MqBandEntry where
  upper : Int := 0
  chgPct : Nat := 0
  disPct : Nat := 0
  derate : Nat := 0
  floatRed : Nat := 0
  restOn : Nat := 0
  restOff : Nat := 0
  deriving DecidableEq, Repr

/-- BAND (Table 03-7). -/
structure MqBand where
  pack : List MqBandEntry := []
  stage : List Int := []
  board : List Int := []
  hyst : Nat := 3
  pause : List Nat := []
  deriving DecidableEq, Repr

/-- PATH (Table 03-9). -/
structure MqPath where
  prio : BitVec 8 := 0
  main : Bool := false
  pda : Bool := false
  pdb : Bool := false
  mainBidir : Bool := false
  floor : Nat := 36000
  iLim : Nat := 0
  vQL : Nat := 0
  vQH : Nat := 0
  tQual : Nat := 0
  tXB : Nat := 0
  shunts : List Nat := []
  cSys : Nat := 0
  iExp : Nat := 0
  iDorm : Nat := 0
  tIdle : Nat := 0
  deriving DecidableEq, Repr

/-- STAG (Table 03-10); `dead` holds S0 input leg, S0 output leg, … S3 output leg. -/
structure MqStag where
  mask : BitVec 4 := 0
  fsw : Nat := 100
  dead : List Nat := []
  tMin : Nat := 0
  iOc : Nat := 0
  induct : Nat := 0
  tRef : Nat := 0
  pCap : Nat := 0
  deriving DecidableEq, Repr

/-- A loop descriptor (Table 03-12). -/
structure MqDesc where
  kind : Nat := 0
  phase : Nat := 0
  divider : Nat := 1
  entry : Nat := 0
  worst : Nat := 0
  hi : Nat := 0
  lo : Nat := 0
  deriving DecidableEq, Repr

/-- LOOP (Table 03-11). -/
structure MqLoop where
  n : Nat := 0
  tS : Nat := 0
  worst : Nat := 0
  iBs : Nat := 0
  vBs : Nat := 0
  desc : List MqDesc := []
  code : List (BitVec 32) := []
  deriving DecidableEq, Repr

/-- CELL (Table 03-13). -/
structure MqCell where
  count : Nat := 8
  balance : Bool := false
  balStart : Nat := 0
  balStop : Nat := 0
  balMin : Nat := 0
  restTime : Nat := 0
  scan : Nat := 100
  restI : Nat := 0
  rSw : Nat := 0
  deriving DecidableEq, Repr

/-- THRM (Table 03-14); `roles` and `rate` in the order DX1, DX2, NTC1–NTC6; role 0 = absent. -/
structure MqThrm where
  diodeMask : BitVec 2 := 0
  ntcMask : BitVec 6 := 0
  roles : List Nat := []
  ideal : List Nat := []
  rate : List Nat := []
  grace : Nat := 0
  lvlB1 : Nat := 0
  lvlB2 : Nat := 0
  deriving DecidableEq, Repr

/-- One LSWC channel entry (Table 03-15). -/
structure MqLsw where
  duty : Nat := 0
  present : Bool := false
  inductive_ : Bool := false
  fine : Bool := false
  onAtRun : Bool := false
  iLim : Nat := 0
  open_ : Nat := 0
  dTcc : Nat := 0
  retries : Nat := 0
  delay : Nat := 0
  deriving DecidableEq, Repr

/-- A power data object of PDPO: voltage in 50 mV, current in 10 mA. -/
structure MqPdo where
  v : Nat := 0
  i : Nat := 0
  deriving DecidableEq, Repr

/-- One PDPO port block (Table 03-16); each list holds the entries within its count. -/
structure MqPd where
  present : Bool := false
  sink : Bool := false
  source : Bool := false
  epr : Bool := false
  altMode : Bool := false
  moisture : Bool := false
  vconn : Bool := false
  spr : List MqPdo := []
  eprPdo : List MqPdo := []
  src : List MqPdo := []
  wet : Nat := 500
  deriving DecidableEq, Repr

/-- One PLBS port entry (Table 03-17). -/
structure MqPlbPort where
  present : Bool := false
  expected : Nat := 0
  term : Bool := false
  failSafe : Bool := false
  tRT : Nat := 4
  deriving DecidableEq, Repr

/-- PLBS (Table 03-17); `superv` is none for 0xFFFF. -/
structure MqPlbs where
  ports : Vector MqPlbPort 4 := Vector.replicate 4 {}
  route : Bool := false
  superv : Option Nat := none
  deriving DecidableEq, Repr

/-- One VALT account entry (Table 03-19). -/
structure MqAcct where
  floor : Nat := 0
  ceil : Nat := 0
  burst : Nat := 0
  weight : Nat := 0
  tier : Nat := 0
  active : Bool := false
  deriving DecidableEq, Repr

/-- VALT (Table 03-18); `accts` lists the active accounts with their numbers, rising. -/
structure MqValt where
  nCap : Nat := 0
  reserve : Nat := 5
  taper : Nat := 10
  sFull : Nat := 0
  lease : Nat := 0
  burstMax : Nat := 0
  weight : Nat := 1
  accts : List (Nat × MqAcct) := []
  deriving DecidableEq, Repr

/-- TWIN (Table 03-20). -/
structure MqTwin where
  expected : Bool := false
  refclk : Bool := false
  ramp : Nat := 100
  pSolo : Nat := 0
  dqx : Nat := 0
  deriving DecidableEq, Repr

/-- WDOG (Table 03-21). -/
structure MqWdog where
  period : Nat := 10
  start : Bool := false
  backstop : Nat := 60
  deriving DecidableEq, Repr

/-- One FLTR entry (Table 03-22). -/
structure MqFltEntry where
  code : BitVec 16 := 0
  cls : Nat := 0
  faultN : Bool := false
  deriving DecidableEq, Repr

/-- FLTR (Table 03-22). -/
structure MqFltr where
  probes : Bool := false
  limit : Nat := 3
  tRot : Nat := 60
  tTw : Nat := 24
  entries : List MqFltEntry := []
  deriving DecidableEq, Repr

/-- OWNR (Table 03-23). -/
structure MqOwnr where
  logLen : Nat := 262144
  mask : BitVec 16 := 0
  tCp : Nat := 900
  deriving DecidableEq, Repr

/-- SIGN (Table 03-24); key X then Y and signature r then s, 64 octets each, in their stored order (R71). -/
structure MqSign where
  slot : Nat := 0
  algo : Nat := 1
  key : List Byte := []
  signature : List Byte := []
  deriving DecidableEq, Repr

/-- A parsed Maquette (R70). -/
structure Maquette where
  head : MqHead := {}
  pack : MqPack := {}
  band : MqBand := {}
  path : MqPath := {}
  stag : MqStag := {}
  loop : MqLoop := {}
  cell : MqCell := {}
  thrm : MqThrm := {}
  lsw : Vector MqLsw 8 := Vector.replicate 8 {}
  pd : Vector MqPd 2 := Vector.replicate 2 {}
  plbs : MqPlbs := {}
  valt : MqValt := {}
  twin : MqTwin := {}
  wdog : MqWdog := {}
  fltr : MqFltr := {}
  ownr : MqOwnr := {}
  sign : MqSign := {}
  deriving DecidableEq, Repr

end Sys2Proof.Machine
end

