-- ==== Sys2Proof/Machine/State.lean ====
section
/-! DEFINITION. The state of the reservoir controller as plain data: every register, buffer,
counter, mode, pin and table the spec gives it, the queue of waiting commands, the image the
Window Port reads, and `State.reset`.  Quantities are in the units the spec publishes: mV, mA,
0.1 mV for cells, 0.1 °C, tokens, mC; register words are formed only when they are read.
A field's default value is its reset value: 0, none or false where the spec clears it (R105, R532),
and the value log entry 3 names where the spec states none. -/

namespace Sys2Proof.Machine

/-- Why a command could not be carried out: the block stops on no command, so there is none (safe). -/
inductive Fault where
  deriving DecidableEq, Repr

/-- Why a command has no meaning in this model. -/
inductive Refusal where
  /-- The row has no meaning yet: raised only by the dispatch arm that names it (safe). -/
  | notModelled (mnemonic : String)
  deriving DecidableEq, Repr

/-! ### Names -/

/-- Lifecycle states (Table 01-3). -/
inductive Life where
  | off | boot | safeHold | run | dormant | reset
  deriving DecidableEq, Repr

/-- Modes (Table 01-1); `none` outside Run (R20). -/
inductive Mode where
  | none | charge | reservoir | return_
  deriving DecidableEq, Repr

/-- Grid events other than the merge (Table 01-8), in their R41 order. -/
inductive GridEvent where
  | close | decision | audit | plinth
  deriving DecidableEq, Repr

/-- Reset kinds (Table 04-3). -/
inductive ResetKind where
  | powerOn | pin | order | watchdog | fault | clock
  deriving DecidableEq, Repr

/-- Supplies of the VAUX selector (R564). -/
inductive VauxSrc where
  | none | vsys | vpack | vmain
  deriving DecidableEq, Repr

/-- Reaction classes (Table 11-4). -/
inductive FCls where
  | a | b | c | d
  deriving DecidableEq, Repr

/-- Probe states of a latch (R288). -/
inductive ProbeSt where
  | pending | transient | lasting | notRun
  deriving DecidableEq, Repr

/-- BATFET states (Table 05-3). -/
inductive Batfet where
  | off | linear | full
  deriving DecidableEq, Repr

/-- Where an input transfer or turn-on stands (Table 05-2). -/
inductive XferStep where
  | outOff | drain | inOn | ramp
  deriving DecidableEq, Repr

/-- Ports that can export (R18). -/
inductive ExPort where
  | pda | pdb | main
  deriving DecidableEq, Repr

/-- Where an export start stands (Table 05-4). -/
inductive ExStep where
  | outOff | ramp | pairOn | active
  deriving DecidableEq, Repr

/-- Charge phases (Table 06-2). -/
inductive ChgPhase where
  | none | cond | pre | bulk | cv | balTop | term
  deriving DecidableEq, Repr

/-- Stage states (R214). -/
inductive StageSt where
  | stopped | parked | switching
  deriving DecidableEq, Repr

/-- Steps of a stage start (Table 08-4) and of a Chisel Off (Table 08-5) of one phase. -/
inductive PhaseSt where
  | off | precharge | waitCal | calibrating | run | chisel1 | chisel2 | probe
  deriving DecidableEq, Repr

/-- Command kinds of Table 08-3. -/
inductive CmdKind where
  | off | pulse | on | repeat_
  deriving DecidableEq, Repr

/-- Patterns of Table 09-5. -/
inductive Pattern where
  | fBuck | fBoost | rBuck | rBoost
  deriving DecidableEq, Repr

/-- Why a loop sample took the value it did (LSTATE [2:0]). -/
inductive Governor where
  | none | kind2 | kind3 | kind4 | kind5 | cap | soft
  deriving DecidableEq, Repr

/-- Twin roles (Table 17-2). -/
inductive Role where
  | none | lead | follow | pending | fenced | detached
  deriving DecidableEq, Repr

/-- Fencing states (R463). -/
inductive Fence where
  | none | delay | gap | contest | won
  deriving DecidableEq, Repr

/-- Confinement states (Table 12-6). -/
inductive PortSt where
  | active | warned | restricted | isolated
  deriving DecidableEq, Repr

/-- Attach states of a Type-C port (PSTATE [4:2]). -/
inductive Attach where
  | unattached | sink | source | errorRecovery | damp | outOfService | isolated
  deriving DecidableEq, Repr

/-- CC terminations (PSTATE [7:6]). -/
inductive CcTerm where
  | open_ | rd | rp15 | rp30
  deriving DecidableEq, Repr

/-- Order results of Table 12-5. -/
inductive OrdRes where
  | accepted | locked | outranked | conflict | invalid | notSup
  deriving DecidableEq, Repr

/-- Record types of Table 20-4 and the start marker of R518. -/
inductive RecType where
  | marker | checkpoint | unaccounted | closing | event | usage | order | postMortem | fault | boot
  | patina
  deriving DecidableEq, Repr

/-- Operations of the NVM (Table 03-1) that take time. -/
inductive NvmOp where
  /-- erase of the 4 KiB sector at this NVM address -/
  | erase (addr : Nat)
  /-- page program of these bytes at this NVM address -/
  | program (addr : Nat) (data : List Byte)
  /-- erase and header of the log sector of this index -/
  | openSector (idx : Nat)
  /-- program of the oldest queued record into the head sector -/
  | logRecord
  deriving DecidableEq, Repr

/-! ### Lifecycle, clocks and pins -/

/-- Lifecycle, grid and reset cause state (chapters 01, 04). -/
structure LifeG where
  /-- Lifecycle state (Table 01-3); Off before any supply (R30). -/ st : Life := .off
  /-- Mode (R20). -/ mode : Mode := .none
  /-- Pending mode candidate (R22). -/ modePend : Option Mode := none
  /-- Dwell count of the pending candidate (R22). -/ dwell : Nat := 0
  /-- The next decision acts without dwell (R29, R115). -/ modeNow : Bool := false
  /-- A path-driven change waits for the next decision (R23). -/ pathDriven : Bool := false
  /-- Grid tick count, 64 bits, wraps (Table 21-2). -/ tick : BitVec 64 := 0
  /-- µs timebase, restarts at each Boot, wraps (R127). -/ us : BitVec 32 := 0
  /-- Grid events of the present tick not yet performed, in R41 order (R41). -/ due : List GridEvent := []
  /-- Grid events that did not finish within their tick and are still to be performed, oldest first (R43). -/ late : List GridEvent := []
  /-- Recorded overruns of the close, the decision and the audit (R43). -/ overruns : Vector Nat 3 := Vector.replicate 3 0
  /-- Reset cause register, KLN-retained (R107). -/ rstCause : BitVec 9 := 0
  /-- The bits the latest Reset entry set, KLN-retained (R107). -/ rstLatest : BitVec 9 := 0
  /-- The latest Reset took the capture now held, KLN-retained (R107). -/ rstTook : Bool := false
  /-- The 34-period reset hold is over (R106). -/ holdDone : Bool := false
  /-- A Loss interval is open: a reset or power loss without its own checkpoint since Run, KLN-retained (R272, R273). -/ loss : Bool := true
  /-- An Unmeasured interval was open when the start ended, with the channel booked as zero, KLN-retained (R272, R278). -/ unmeas : Option Nat := none
  /-- Instance of the class D fault that took the latest Reset, KLN-retained (R288, R291). -/ rstInst : BitVec 8 := 0
  /-- Kind of the reset in force (Table 04-3). -/ rstKind : ResetKind := .powerOn
  /-- A power-on reset has not yet reached Run (Table 04-3). -/ powerOn : Bool := true
  /-- MOSC runs (R36). -/ mosc : Bool := true
  /-- KLN loss has been declared; the converter stays stopped (R37). -/ klnLost : Bool := false
  /-- TMODE sampled high at the last release (R62, Table 22-10). -/ tmode : Bool := false
  /-- Boot is held by TMODE (R62). -/ tmodeHold : Bool := false
  /-- A wake source has fired and the PLLs are relocking (R115). -/ waking : Bool := false
  /-- The wake source was the watchdog alone (R117). -/ wakeWd : Bool := false
  /-- Dormant entry is not yet complete: the notice goes out in the next Plinth cycle (R113, R132). -/ entering : Bool := false
  /-- The Dormant backstop has fired and Run is not yet reached (R118). -/ bksWake : Bool := false
  /-- A cell scan [0] and a thermal sample [1] are owed before Dormant is entered again (R118). -/ scanOwed : BitVec 2 := 0
  /-- Grid tick of the last Dormant entry (R118, R272). -/ dormTick : Option (BitVec 64) := none
  /-- A reset order was accepted and waits for its checkpoint (R271). -/ resetOrder : Bool := false
  /-- A Dormant request waives the idle time (R112). -/ dormReq : Bool := false
  /-- The PWM PLL is locked (R38). -/ pwmLock : Bool := false
  /-- The system PLL is locked (R38). -/ sysLock : Bool := false
  /-- Number of the image last published (R552). -/ imgNo : BitVec 64 := 0
  /-- Lifecycle state and twin role of the last image (Table 19-6 cause [5]). -/ seenSt : Life := .off
  /-- Twin role of the last image (Table 19-6 cause [5]). -/ seenRole : Role := .none
  deriving DecidableEq, Repr

/-- Pins of the controller not held by a block of their own (Table 02-3). -/
structure PinsG where
  /-- Supply VAUX draws from (R564). -/ vaux : VauxSrc := .none
  /-- TW_PRES_N is asserted (Table 02-3). -/ twPres : Bool := false
  /-- TW_TRIP_N reads asserted (Table 02-3). -/ twTrip : Bool := false
  /-- RST_N is asserted (R61). -/ rstN : Bool := false
  /-- ATTN_N is asserted (R508). -/ attn : Bool := false
  /-- FAULT_N is asserted (R299, Table 02-5). -/ faultN : Bool := false
  /-- SHED lines that read asserted by the twin (R59, Table 22-3). -/ twShed : BitVec 4 := 0
  deriving DecidableEq, Repr

/-- The one-time-programmable fuses (Table 03-25, R513). -/
structure OtpG where
  /-- Key hash slots; none = blank (Table 03-25). -/ slots : Vector (Option (BitVec 256)) 4 := Vector.replicate 4 none
  /-- Slots whose words are uncorrectable in this start (R102). -/ slotEcc : BitVec 4 := 0
  /-- Revoke bits (R84). -/ revoked : BitVec 4 := 0
  /-- Rollback counter, 0–255 (R85). -/ rollback : Nat := 0
  /-- WDT_HW fuse (R124). -/ wdtHw : Bool := false
  /-- TEST_LOCK fuse (R62). -/ testLock : Bool := false
  /-- A provisioning order has been carried out (R83). -/ provisioned : Bool := false
  /-- Serial number (R450). -/ serial : BitVec 64 := 0
  /-- Serial number, root secret or epoch uncorrectable in this start (R102). -/ idEcc : Bool := false
  /-- Owner epoch, the count of blown epoch fuses (R513). -/ epoch : Nat := 0
  /-- RETIRED fuse (R513). -/ retired : Bool := false
  /-- A revoke burn is in progress (R84). -/ burnRevoke : BitVec 4 := 0
  /-- Rollback value a burn is driving to (R85). -/ burnTo : Option Nat := none
  /-- A provisioning burn is in progress: hashes to program and the two fuses (R83). -/ burnProv : Option (Vector (Option (BitVec 256)) 4 × Bool × Bool) := none
  deriving DecidableEq, Repr

/-- The values of one checkpoint (Table 20-5). -/
structure Checkpoint where
  seq : Nat := 0
  us : BitVec 32 := 0
  tick : BitVec 64 := 0
  /-- In then Out of the eight channels, mC -/
  acc : List Nat := []
  ein : Nat := 0
  eout : Nat := 0
  modeAcc : List Nat := []
  /-- six counters of each switch; the cancelled counts are signed -/
  pulse : List Int := []
  qRef : Int := 0
  soc : Nat := 0
  coarse : Bool := false
  band : Nat := 7
  stack : Nat := 0
  avg : Nat := 0
  deriving DecidableEq, Repr

/-- Patina counters (R527). -/
structure Patina where
  runH : Nat := 0
  stageH : Nat := 0
  boots : Nat := 0
  cycles : Nat := 0
  ispIn : Nat := 0
  ispOut : Nat := 0
  handovers : Nat := 0
  erases : Nat := 0
  dropped : Nat := 0
  torn : Nat := 0
  /-- of the ISP totals, what the accumulators of the owner in force still hold (R275) -/
  ownIn : Nat := 0
  ownOut : Nat := 0
  deriving DecidableEq, Repr

/-- A post-mortem capture (Table 04-7), KLN-retained. -/
structure Capture where
  valid : Bool := false
  /-- 1 watchdog, 2 fault, 3 clock -/
  kind : Nat := 0
  pc : BitVec 32 := 0
  last : Vector (BitVec 32) 6 := Vector.replicate 6 0
  missing : BitVec 6 := 0
  time : BitVec 32 := 0
  st : Life := .off
  mode : Mode := .none
  chisel : Bool := false
  code : BitVec 16 := 0
  lost : Nat := 0
  deriving DecidableEq, Repr

/-- A fault latch (R288). -/
structure Latch where
  code : BitVec 16
  inst : BitVec 8
  cls : FCls
  count : Nat := 1
  first : BitVec 32 := 0
  last : BitVec 32 := 0
  probe : ProbeSt := .pending
  masked : Bool := false
  new_ : Bool := true
  active : Bool := true
  /-- number of the first image that shows the last occurrence (R552) -/
  tick : BitVec 64 := 0
  deriving DecidableEq, Repr

/-- Kinds of unaccounted interval (Table 10-3). -/
inductive GapKind where
  | loss | dormant | unmeasured
  deriving DecidableEq, Repr

/-- What an unaccounted interval record states (R272, Table 10-3). -/
structure Gap where
  kind : GapKind
  /-- sequence number of the checkpoint that opens the interval -/
  fromSeq : Nat
  /-- sequence number of the opening checkpoint that closes it -/
  toSeq : Nat
  /-- reset cause register -/
  cause : BitVec 9 := 0
  /-- stack voltage at both ends, mV -/
  stack0 : Nat := 0
  stack1 : Nat := 0
  /-- estimate of the pack charge change by the OCV curve, mC -/
  ocv : Int := 0
  /-- Dormant duration, grid ticks -/
  ticks : Nat := 0
  /-- I_DORM × duration, mC -/
  bound : Nat := 0
  /-- the channel booked as zero -/
  chan : Option Nat := none
  deriving DecidableEq, Repr

/-- The changes that an event record tells of (Table 20-4). -/
inductive EventKind where
  | mode | transfer | attach | role | contract
  deriving DecidableEq, Repr

/-- What the event records watch, as of the last merge tick (Table 20-4). -/
structure Seen where
  mode : Mode := .none
  /-- the active input, and whether a transfer runs -/
  active : Option Inp := none
  xfer : Bool := false
  /-- attach states of the Type-C ports, and whether the twin is attached -/
  ports : List Attach := [.unattached, .unattached]
  twin : Bool := false
  role : Role := .none
  /-- contracts of the Type-C ports, 50 mV and 10 mA -/
  contracts : List (Option (Nat × Nat)) := [none, none]
  deriving DecidableEq, Repr

/-- What a record of a type without a stated layout says (Table 20-4, log entry 7). -/
inductive RecInfo where
  /-- nothing that the spec names -/
  | none_
  /-- an unaccounted interval -/
  | gap (g : Gap)
  /-- the contents of a latch and the occurrences that the record counts (R290) -/
  | latch (x : Latch) (n : Nat)
  /-- a post-mortem capture (R128) -/
  | capture (x : Capture)
  /-- check results of both copies, CHECKED, security version (Table 20-4) -/
  | boot (a b : Nat) (checked : Bool) (version : Nat)
  /-- a change, and what stands after it (Table 20-4) -/
  | event (k : EventKind) (now : Seen)
  /-- an order, its value and its result code (Table 20-4) -/
  | order (host : Bool) (slot : Nat) (v : BitVec 32) (res : OrdRes)
  deriving DecidableEq, Repr

/-- A record as the ring holds it (R515, R517): header facts, the sealed body and whether it is whole. -/
structure LogRec where
  type : RecType := .marker
  start : Nat := 0
  num : Nat := 0
  epoch : Nat := 0
  key : Nat := 0
  body : List Byte := []
  /-- The record was cut short; its tag fails (R522). -/
  torn : Bool := false
  /-- Offset in its sector (R517). -/
  off : Nat := 32
  /-- Values of a checkpoint or closing balance (Table 20-5). -/
  cp : Option Checkpoint := none
  /-- Counters of a Patina record (R527). -/
  pat : Option Patina := none
  /-- What it says (Table 20-4). -/
  info : RecInfo := .none_
  deriving DecidableEq, Repr

/-- A log sector (Table 20-2): header fields, whether its header CRC holds, and its records. -/
structure LogSector where
  good : Bool := false
  seq : Nat := 0
  erases : Nat := 0
  cpOff : Option Nat := none
  patOff : Option Nat := none
  start : Nat := 0
  recs : List LogRec := []
  /-- First free byte of the sector (R522). -/
  free : Nat := 0
  /-- Skipped after a failed program or erase (Table 20-7). -/
  bad : Bool := false
  deriving DecidableEq, Repr

/-- The external NOR flash (R67): the bytes of the two copy regions, as a rising list of cells that
leaves out erased bytes, and the log sectors by index. -/
structure NvmG where
  /-- Bytes of 0x000000–0x07FFFF that are not 0xFF (R67). -/ cells : List Host.Cell := []
  /-- Log sectors by index; an unlisted sector is erased (R516). -/ sectors : List (Nat × LogSector) := []
  /-- The operation the NVM is busy with (R94). -/ op : Option NvmOp := none
  /-- Operations waiting, oldest first (R94). -/ queue : List NvmOp := []
  deriving DecidableEq, Repr

/-- Boot results, staging and provisioning (MQS block, Table 22-9). -/
structure MqsG where
  /-- First failed check of copy A: 0 passed, 15 not read (R86). -/ resA : Nat := 0
  /-- First failed check of copy B: 0 passed, 15 not read (R86). -/ resB : Nat := 0
  /-- Both copies failed (R86). -/ bothFail : Bool := false
  /-- The running image came from copy B (R86). -/ fromB : Bool := false
  /-- Digest of the running image (R82). -/ digest : BitVec 256 := 0
  /-- JEDEC ID reply (R68). -/ jedec : BitVec 24 := 0
  /-- Staging session open (R91). -/ open_ : Bool := false
  /-- Second pass running (R92). -/ second : Bool := false
  /-- Target is copy B (R92). -/ targetB : Bool := false
  /-- Image length named at BEGIN (R91). -/ len : Nat := 0
  /-- Bytes of the pass received so far, in order (R93). -/ buf : List Byte := []
  /-- Result of the first pass (Table 22-9). -/ res1 : Nat := 0
  /-- Result of the second pass (Table 22-9). -/ res2 : Nat := 0
  /-- Digest of a passed first pass (R93). -/ firstDigest : Option (BitVec 256) := none
  /-- Chunks discarded, wraps at 256 (Table 22-9). -/ discarded : BitVec 8 := 0
  /-- Provisioning result (Table 22-9). -/ provRes : Nat := 0
  deriving DecidableEq, Repr

/-! ### Power path, charger, cells -/

/-- Qualification of one input (R135–R137). -/
structure InputG where
  /-- Qualified (R135, R136). -/ qual : Bool := false
  /-- Isolated until the next start (R164). -/ iso : Bool := false
  /-- t_RQ runs (R137). -/ trq : Bool := false
  /-- A fault of its pair waits for its Probe (R164). -/ flt : Bool := false
  /-- Its pair is commanded on (R16). -/ pair : Bool := false
  /-- Its pair was commanded on during the present close (R277). -/ pairInClose : Bool := false
  deriving DecidableEq, Repr

/-- A transfer or turn-on in progress (R141). -/
structure Xfer where
  out : Option Inp
  inc : Inp
  step : XferStep
  /-- the loss of the active input began it (R141) -/
  loss : Bool := false
  deriving DecidableEq, Repr

/-- An export (R154). -/
structure Export where
  port : ExPort
  step : ExStep
  /-- Export voltage setpoint, mV (R155). -/
  volt : Nat
  /-- Export current limit, mA (R155). -/
  limit : Nat
  deriving DecidableEq, Repr

/-- Power path state (PTH block, Table 21-3). -/
structure PathG where
  /-- MAIN, PDA and PDB (R135). -/ inputs : Vector InputG 3 := Vector.replicate 3 {}
  /-- Active input (R138). -/ active : Option Inp := none
  /-- Transfer or turn-on in progress (R141). -/ xfer : Option Xfer := none
  /-- Export in progress (R154). -/ export_ : Option Export := none
  /-- A backed export that waits for a transfer to end (R162). -/ exportWait : Option Export := none
  /-- Transfers completed (Table 21-3). -/ xferCnt : Nat := 0
  /-- Transfers ended under R144 (Table 21-3). -/ xferAbt : Nat := 0
  /-- SYS collapses (R159). -/ collapse : Nat := 0
  /-- BATFET state (Table 05-3). -/ batfet : Batfet := .off
  /-- The BATFET undervoltage opening stands (R152). -/ uvOpen : Bool := false
  /-- The BATFET went fully on by a SYS collapse (R159). -/ collapsed : Bool := false
  /-- GBT off was commanded and is not yet confirmed (R108). -/ gbtWait : Bool := false
  /-- Safe Hold converter runs (R108). -/ shConv : Bool := false
  /-- Safe Hold: GPM off was commanded and is not yet confirmed (R108). -/ shGpmWait : Bool := false
  /-- Safe Hold: the BATFET trip stands until Reset (Table 04-4). -/ shTrip : Bool := false
  /-- Safe Hold soft-start reference, mV (Table 04-4). -/ shSoft : Nat := 0
  /-- SYS floor setpoint in force, mV (R153). -/ floorSet : Nat := 0
  /-- The floor is suspended under R158 or R588 (Table 21-3). -/ floorSusp : Bool := false
  /-- Input current limit setpoint in force, mA (R146). -/ iLim : Nat := 0
  /-- A take-over of the whole MAIN limit ramps over 1 ms: the limit it began at, mA, and the merge ticks since (R163). -/ limRamp : Option (Nat × Nat) := none
  /-- An input pair commanded off and not yet confirmed off (R16, R141). -/ offWait : Option Inp := none
  /-- Reservoir discharge and charging stopped by the BATFET drop fault (Table 05-5). -/ dropFault : Bool := false
  /-- Linear charging stopped by the dissipation fault (Table 05-5). -/ linFault : Bool := false
  /-- Every path gate is held off: class A path row, Kiln Guard, trip line (R58, Table 05-5). -/ held : Bool := false
  /-- An ended export whose pair is not yet confirmed off (R156). -/ exOff : Option ExPort := none
  deriving DecidableEq, Repr

/-- Charger state (CHG block, Table 21-4). -/
structure ChgG where
  /-- Charge phase (Table 06-2). -/ phase : ChgPhase := .none
  /-- The pack is refused until the next start (Table 06-4). -/ refused : Bool := false
  /-- A timer fault is latched (Table 06-4). -/ timerFault : Bool := false
  /-- The pack did not warm (Table 06-4). -/ noWarm : Bool := false
  /-- A charger fault that stands until the next start is latched (Table 06-4). -/ hardFault : Bool := false
  /-- That fault refuses return grants (Table 06-4, R361). -/ refuseReturn : Bool := false
  /-- The charger asks the vault to refuse and recall return grants (R185). -/ askRefuse : Bool := false
  /-- Rest pattern is in its off part (R178). -/ restOff : Bool := false
  /-- Heater request (R180). -/ heater : Bool := false
  /-- Imbalanced (R168). -/ imbalanced : Bool := false
  /-- Pack current target of the pair, mA, after slew (R169). -/ iTgt : Nat := 0
  /-- This controller's share, mA (R167). -/ iShare : Nat := 0
  /-- Pack voltage target, mV (R166). -/ vTgt : Nat := 0
  /-- The pack stands above a lowered voltage target (R169). -/ vLow : Bool := false
  /-- V_FLT_eff, mV per cell (R166). -/ vFlt : Nat := 0
  /-- Cell-limit correction, mV (R168). -/ corr : Nat := 0
  /-- Pre-charge timer, ms (R176). -/ tPre : Nat := 0
  /-- Bulk timer, ms (R176). -/ tBulk : Nat := 0
  /-- Heater time, ms (R181). -/ tHtr : Nat := 0
  /-- Maintenance recharges (R174). -/ recharges : Nat := 0
  /-- Balance-and-top phases ended at t_BAL (R173). -/ balEnds : Nat := 0
  /-- Qualification counts, in evaluations, of the threshold conditions of the phase (R171). -/ qPh : Nat := 0
  /-- t_TERM count, evaluations (R171). -/ qTerm : Nat := 0
  /-- t_RCH count, evaluations (R174). -/ qRch : Nat := 0
  /-- Count of the backward condition of R175, evaluations (R175). -/ qBack : Nat := 0
  /-- Time in Balance-and-top, evaluations (R173). -/ qBal : Nat := 0
  /-- The mode was Reservoir since the last evaluation in Charge (R175). -/ wasRes : Bool := false
  /-- Pack band at the last evaluation (R178). -/ lastBand : Nat := 7
  /-- The Lead reports charging suspended (R187). -/ leadSusp : Bool := false
  /-- A restart order or an input asks for a new cycle (R172). -/ newCycle : Bool := false
  deriving DecidableEq, Repr

/-- A targeted test the cell monitor has scheduled (R207, R210). -/
inductive CelTest where
  /-- open-wire test of this wire -/
  | wire (j : Nat)
  /-- injection into these channels -/
  | inject (ks : List Nat)
  /-- injection into every channel and the stack path together (R207) -/
  | injectAll
  /-- open-wire tests of wire 0 and the top wire (R207) -/
  | outerWires
  deriving DecidableEq, Repr

/-- Cell monitor state (CEL block, Table 21-5); cells are 0.1 mV, indexed from cell 1. -/
structure CelG where
  /-- Published cells, 0.1 mV (R190). -/ cells : List Nat := []
  /-- Published stack, mV (R190). -/ stack : Nat := 0
  /-- Conversions behind the published values, newest first: cells, an adopted one the twin's, and stack (R190, R210). -/ hist : List (List Nat × Nat) := []
  /-- Own step-2 conversions of the last cycle, 0.1 mV (R191, R192). -/ raw : List Nat := []
  /-- Own stack conversion of the last cycle, mV (R191). -/ rawStack : Nat := 0
  /-- A stack disagreement stands (R191). -/ disagree : Bool := false
  /-- Standing offset of the sum-to-stack comparison, 0.1 mV (R191). -/ offset : Int := 0
  /-- Cycle number 0–199 (R193). -/ cycle : Nat := 0
  /-- Grid tick of the last cell scan (R118). -/ scanTick : BitVec 64 := 0
  /-- A cycle has begun since Run entry or the wake (R193). -/ started : Bool := false
  /-- Diagnostic of the present cycle, as DIAG [15:8] (R193). -/ diag : Nat := 0
  /-- Last diagnostic passed (Table 21-5). -/ diagPass : Bool := false
  /-- Diagnostics displaced by targeted tests in this period (R193). -/ displaced : List Nat := []
  /-- Targeted tests waiting (R207, R210). -/ tests : List CelTest := []
  /-- The targeted test of the present cycle (R207). -/ testNow : Option CelTest := none
  /-- Stage of the R207 classification: tests of it still to pass. -/ classify : Bool := false
  /-- Wires open (R194). -/ wireOpen : BitVec 17 := 0
  /-- Cell channels faulted (R196). -/ chanFlt : BitVec 16 := 0
  /-- The stack path is isolated (Table 07-5). -/ stackIso : Bool := false
  /-- Twin disagreements standing (R210). -/ twDis : BitVec 16 := 0
  /-- Cells adopted from the twin (R210). -/ adopted : BitVec 16 := 0
  /-- Cells with a real cell fault (R209). -/ realCell : BitVec 16 := 0
  /-- Twin's last conversions, 0.1 mV (R192). -/ twin : List Nat := []
  /-- Balancing runs (R197). -/ balancing : Bool := false
  /-- Balance switches closed (R198). -/ balSw : BitVec 16 := 0
  /-- Switches held open under the balance switch fault (Table 07-5). -/ balFault : Bool := false
  /-- Balance charge counters, µC (R200). -/ qBal : Vector Nat 16 := Vector.replicate 16 0
  /-- Q_REF, mC, as of the zero of the accumulators and balance counters (R201, log entry 129). -/ qRef : Int := 0
  /-- State of charge, 0.01 % (R201). -/ soc : Nat := 0
  /-- The estimate is valid (R204). -/ socValid : Bool := false
  /-- The estimate is coarse (R202). -/ coarse : Bool := false
  /-- Q_REF is to be taken from the OCV curve at the next window (R202). -/ ocvWait : Bool := false
  /-- Q_REF was set from the curve before any figure of the twin (R201, log entry 129). -/ refAlone : Bool := false
  /-- Q_REF is known, from a checkpoint or the curve (R202). -/ refKnown : Bool := false
  /-- An OCV correction moves Q_REF (R203). -/ ocvMoving : Bool := false
  deriving DecidableEq, Repr

/-! ### Ledger -/

/-- One ledger channel (R258, R260): accumulators in units of 2^-32 mC. -/
structure LdgChan where
  /-- In accumulator, 2^-32 mC (R260). -/ inQ : Nat := 0
  /-- Out accumulator, 2^-32 mC (R260). -/ outQ : Nat := 0
  /-- In accumulator at the last close (R263). -/ inPrev : Nat := 0
  /-- Out accumulator at the last close (R263). -/ outPrev : Nat := 0
  /-- Last sample, 2^-32 mC (R276). -/ last : Int := 0
  /-- Missing samples, saturating (R276). -/ missing : Nat := 0
  /-- The last sample was missing (R276). -/ missed : Bool := false
  /-- Isolated (R278). -/ iso : Bool := false
  /-- Booked as zero: the second isolated closure channel (R278). -/ zeroed : Bool := false
  deriving DecidableEq, Repr

/-- One close of the residual windows (R264): r_j and twice the throughput, 2^-32 mC. -/
structure CloseRes where
  r : Int
  thr2 : Nat
  deriving DecidableEq, Repr

/-- Charge ledger (LDG block, Table 21-6). -/
structure LdgG where
  /-- ISM, ISA, ISB, ISC, ISP, ISS, AXS, AXP (Table 10-2). -/ ch : Vector LdgChan 8 := Vector.replicate 8 {}
  /-- Pack energy In, pJ (R261). -/ ein : Nat := 0
  /-- Pack energy Out, pJ (R261). -/ eout : Nat := 0
  /-- In and Out of ISP for Charge, Reservoir, Return, 2^-32 mC (R261). -/ modeAcc : Vector Nat 6 := Vector.replicate 6 0
  /-- VSYS of the last close, mV; none right after a restart (R263). -/ vPrev : Option Nat := none
  /-- Closes the residual windows may use, newest first (R264). -/ wins : List CloseRes := []
  /-- Last residual, µC (R263). -/ resid : Int := 0
  /-- Window nearest its bound, its m (Table 21-6). -/ worstM : Nat := 0
  /-- That window's share of its bound, per mille (Table 21-6). -/ worstPm : Nat := 0
  /-- Close number, wraps (Table 21-6). -/ closeNo : BitVec 32 := 0
  /-- Closure failure latched (Table 21-6). -/ failed : Bool := false
  /-- SoC is held until the Probes of a closure failure end (Table 10-5). -/ socHeld : Bool := false
  /-- Closure Probes pending on ISC, ISP, ISS, AXS; none failed yet (Table 10-5). -/ closeProbes : List Nat := []
  /-- A Loss interval is open (Table 10-3). -/ lossOpen : Bool := false
  /-- A Dormant interval is open (Table 10-3). -/ dormOpen : Bool := false
  /-- An Unmeasured interval is open (R278). -/ unmeasOpen : Bool := false
  /-- The values of the last close tick (R270). -/ atClose : Checkpoint := {}
  /-- Stack voltage at Dormant entry, mV (Table 10-3). -/ dormStack : Nat := 0
  /-- Closures restarted since the last close (R265). -/ restarted : Bool := false
  /-- The checkpoint base is pending (R274). -/ basePend : Bool := false
  /-- Windows restart at the next close (R265). -/ restart : Bool := false
  /-- Sequence number of the last checkpoint programmed (Table 21-6). -/ cpSeq : Nat := 0
  /-- Next checkpoint sequence number (R270). -/ cpNext : Nat := 0
  /-- Grid tick of the last checkpoint programmed (Table 21-6). -/ cpTick : BitVec 64 := 0
  /-- A checkpoint is to be written at the next close (R271). -/ cpWant : Bool := false
  /-- Largest inactive-input net charge of the last close, µC (Table 21-6). -/ leakMax : Nat := 0
  /-- ISP charge of the twin summed since attach, µC (R459). -/ twSum : Int := 0
  /-- ISP In less Out that the twin last reported, mC; none before a figure (R201, log entry 129). -/ twIsp : Option Int := none
  /-- Twin's ISP In less Out when the sum started, mC (R459). -/ twBase : Option Int := none
  /-- Twin's previous V_j, mV (R459). -/ twV : Option Nat := none
  /-- Sum over the present close of VSYS × (load switch currents + AXS), µW (R344). -/ locAcc : Nat := 0
  /-- Sum over the present close of ISC × VSYS, µW (R345). -/ fwdAcc : Int := 0
  /-- Samples in those sums. -/ accN : Nat := 0
  /-- Local load averaged over the last close, µW (R344). -/ locAvg : Nat := 0
  /-- Forward converter output over the last close, µW (R345). -/ fwdAvg : Int := 0
  /-- Channel that a reference injection makes derived in this close (R297, Table 11-6). -/ inject : Option Nat := none
  /-- Grid tick at which the Dormant interval opened (R272). -/ dormAt : BitVec 64 := 0
  deriving DecidableEq, Repr

/-! ### Stage, loops -/

/-- A switch command (Table 08-3). -/
structure SwCmd where
  kind : CmdKind := .off
  w : Nat := 0
  off : Nat := 0
  neg : Bool := false
  deriving DecidableEq, Repr

/-- One switch: residue, counters of its pulse ledger and read-back (R217, R268, R543). -/
structure SwG where
  /-- Command in the double buffer (R215). -/ next : SwCmd := {}
  /-- Command of the present period (R215). -/ cmd : SwCmd := {}
  /-- Residue, counts (R217). -/ residue : Int := 0
  /-- Residue at the last close (R269). -/ residuePrev : Int := 0
  /-- Residue age, periods (R217). -/ age : Nat := 0
  /-- Stored error sign (R217). -/ sign : Bool := false
  /-- Offset of the last pulse command (R219). -/ lastOff : Nat := 0
  /-- Width emitted in the last period (R543). -/ emitted : Nat := 0
  /-- Gate held on through the period (R220). -/ on : Bool := false
  /-- Counts for which an on-kind gate stands open around its partner's pulse or refresh (R220). -/ opened : Nat := 0
  /-- High side: counts on without a refresh of its bootstrap (R225). -/ refT : Nat := 0
  /-- High side: a refresh is due (R225, R235). -/ refDue : Bool := false
  /-- Low side: width of the refresh inserted in the last period (R225). -/ refW : Nat := 0
  /-- Gate reads back on (R543). -/ readOn : Bool := false
  /-- Stuck read-back in the last period (R543). -/ stuck : Bool := false
  /-- Consecutive stuck-on periods (Table 08-6). -/ stuckOn : Nat := 0
  /-- Consecutive stuck-off periods (Table 08-6). -/ stuckOff : Nat := 0
  /-- On-resistance estimate, µΩ (R229). -/ rEst : Nat := 0
  /-- Six pulse ledger counters: commanded, emitted, forced, cancellations, cancelled counts, clamped (R268). -/ cnt : Vector Int 6 := Vector.replicate 6 0
  /-- The counters at the last close (R269). -/ prev : Vector Int 6 := Vector.replicate 6 0
  deriving DecidableEq, Repr

/-- One phase (chapter 08). -/
structure PhaseG where
  /-- Where the phase stands (Tables 08-4, 08-5). -/ st : PhaseSt := .off
  /-- Isolated until the next start (R238). -/ iso : Bool := false
  /-- In Backstop (R253). -/ backstop : Bool := false
  /-- Backstop is entered at the next period start (R252). -/ bsNext : Bool := false
  /-- Failed precharge (Table 21-7). -/ preFail : Bool := false
  /-- Backstop: peak current, mA (R253). -/ peak : Nat := 0
  /-- Backstop: clamp on the active input's shunt, held since the entry, µV (R253, R257). -/ bsClamp : Nat := 0
  /-- Pattern standing (R250). -/ pat : Pattern := .fBuck
  /-- Phase current of the last sample, mA (R241). -/ i : Int := 0
  /-- Phase setpoint, mA (R249). -/ setpoint : Int := 0
  /-- R_EST calibration done since the last full start (R229, R230, Table 21-7). -/ cal : Bool := false
  deriving DecidableEq, Repr

/-- Converter stage (GDR block, Table 21-7); switches in the order G11, G21, G31, G41, G12 … G44. -/
structure GdrG where
  /-- Stage state (R214). -/ st : StageSt := .stopped
  /-- Direction: reverse (R18). -/ reverse : Bool := false
  /-- Direction that the path asks for, taken while the stage is Parked (R214). -/ dirWant : Bool := false
  /-- The precharge of a stage start is in progress (R230). -/ starting : Bool := false
  /-- A park was asked for during that precharge (R214). -/ parkAsk : Bool := false
  /-- Phases 1–4. -/ ph : Vector PhaseG 4 := Vector.replicate 4 {}
  /-- Switches (R543). -/ sw : Vector SwG 16 := Vector.replicate 16 {}
  /-- Last Chisel Off cause (Table 21-7). -/ cause : Nat := 0
  /-- Code of the fault that began the Chisel Off in progress; 0 where none did (R129, Table 04-7). -/ code : BitVec 16 := 0
  /-- Phase of that trigger, 0 = all (Table 21-7). -/ causePh : Nat := 0
  /-- Dead times in force: input leg, output leg, counts (R221). -/ dtIn : Nat := 0
  /-- Output-leg dead time in force, counts (R221). -/ dtOut : Nat := 0
  /-- Interlock conflicts (R220). -/ ilConf : Nat := 0
  /-- Bootstrap refreshes (R226). -/ refresh : Nat := 0
  /-- BT-to-SW above V_BUV: BTI1–BTI4, BTO1–BTO4 (Table 21-7). -/ boot : BitVec 8 := 0
  /-- Last close factor, 1/4096 (R229). -/ calF : Nat := 0
  /-- The stage start waits: hold-off of a class A transient runs (Table 11-4). -/ holdOff : Bool := false
  /-- The stage may not start until the next start (Table 11-4). -/ barred : Bool := false
  /-- Soft-start ramp of the selected demand, µA; none once it lies above all others (R246). -/ soft : Option Nat := none
  /-- Sum of the phase currents and of ISC over the close, mA·samples (R229). -/ sumPh : Int := 0
  /-- ISC over the same samples, mA (R229). -/ sumIsc : Int := 0
  /-- PWM counts into the interleave are recomputed at the next phase-0 start (R222). -/ reOffset : Bool := false
  /-- Interleave step, counts (R222). -/ step : Nat := 0
  /-- Grid tick at which the stage was parked (R230). -/ parkTick : BitVec 64 := 0
  deriving DecidableEq, Repr

/-- A run of the loop microcode in progress (R244). -/
structure LoopRun where
  desc : Fin 8
  x : Vector (BitVec 32) 16
  pc : Nat
  cycles : Nat
  deriving DecidableEq, Repr

/-- One loop descriptor's state (R245). -/
structure DescG where
  /-- State registers S0–S7 (R245). -/ s : Vector (BitVec 32) 8 := Vector.replicate 8 0
  /-- Latched inputs I0–I7 (R245). -/ i : Vector (BitVec 32) 8 := Vector.replicate 8 0
  /-- Last output as the microcode produced it, Q16.16 (Table 21-8). -/ out : BitVec 32 := 0
  /-- The output as clamped for the selection (R247). -/ sel : BitVec 32 := 0
  /-- Samples since it last ran (R242). -/ count : Nat := 0
  /-- Overruns (R251). -/ ovr : Nat := 0
  /-- Consecutive overruns, 0–4 (R251). -/ consec : Nat := 0
  deriving DecidableEq, Repr

/-- Loop engine (LOOP block, Table 21-8). -/
structure LoopG where
  /-- Governing value (Table 21-8). -/ gov : Governor := .none
  /-- Sign of the governing loop's error: negative (R250). -/ errNeg : Bool := false
  /-- Backstop latched (R254). -/ latched : Bool := false
  /-- Selected demand, mA (R246). -/ demand : Int := 0
  /-- Relief term, mV (R248). -/ relief : Nat := 0
  /-- Descriptors 0–7. -/ d : Vector DescG 8 := Vector.replicate 8 {}
  /-- Runs due, in order; the head executes (R242). -/ runs : List LoopRun := []
  /-- Engine cycles used in the present sample (Table 21-8). -/ cyc : Nat := 0
  /-- Most engine cycles of one sample since Run entry (Table 21-8). -/ cycMax : Nat := 0
  /-- Samples not delivered (Table 21-8). -/ adcMiss : Nat := 0
  deriving DecidableEq, Repr

/-! ### Thermal, load switches -/

/-- One thermal sensor (R427); DX1, DX2, NTC1–NTC6, D0, D1, D2. -/
structure SensorG where
  /-- Last reading, 0.1 °C; none before the first (R434). -/ temp : Option Int := none
  /-- NTC ratio × 10 000 (Table 21-9). -/ ratio : Nat := 0
  /-- Sample period code (Table 21-9). -/ period : Nat := 0
  /-- Out of service (Table 16-3). -/ out : Bool := false
  /-- Rate exceedance stands (R435). -/ exceed : Bool := false
  /-- Excluded from the Kiln Guard and R414 (R427). -/ excl : Bool := false
  /-- Faulted (Table 21-9). -/ flt : Bool := false
  /-- Samples of the last second and one older: (µs, reading), newest first (R435). -/ hist : List (Nat × Int) := []
  /-- Rate, 0.01 K/s (R435). -/ rate : Option Int := none
  /-- Consecutive samples above the rate limit (R435). -/ ovr : Nat := 0
  /-- µs since which the rate has stood below half its limit (R435). -/ belowSince : Option Nat := none
  deriving DecidableEq, Repr

/-- Thermal block (THM block, Table 21-9). -/
structure ThmG where
  /-- Sensors. -/ s : Vector SensorG 11 := Vector.replicate 11 {}
  /-- Stage band before R434, R435 and R444 (R432). -/ stage : Nat := 3
  /-- Stage band invalid (R434). -/ stageInv : Bool := true
  /-- Pack band 0–5, 7 = invalid (R433). -/ pack : Nat := 7
  /-- Pack band that the Lead named to a Follow (R441). -/ packLead : Option Nat := none
  /-- B_hi and B_lo (R433). -/ bHi : Nat := 0
  /-- B_lo (R433). -/ bLo : Nat := 0
  /-- Above the upper bound of P5 (R433). -/ aboveP5 : Bool := false
  /-- Spread rule of R433 in force (Table 21-9). -/ spread : Bool := false
  /-- Board band (R432). -/ board : Nat := 2
  /-- Board band invalid (R434). -/ boardInv : Bool := true
  /-- Twin's board band (R441). -/ twBoard : Option Nat := none
  /-- Twin's pack readings, 0.1 °C (R441). -/ twPack : List Int := []
  /-- BAND entry that stood applied while the pack band was last valid (R40). -/ packLast : Option MqBandEntry := none
  /-- Pack band applied by the consumers since the last merge tick (R432). -/ packApp : Nat := 7
  /-- Stage band applied by the consumers (R432). -/ stageApp : Nat := 3
  /-- Board band applied by the consumers (R432). -/ boardApp : Nat := 2
  /-- Throttle causes and the level they name, applied at the last merge tick (R436). -/ lvlApp : Option Nat := none
  /-- NTC1 has been out of service in this start (R444). -/ ntc1Out : Bool := false
  /-- Kiln Guard tripped (R438). -/ tripped : Bool := false
  /-- The trip is lasting; the stage stays Stopped (R440). -/ tripLasting : Bool := false
  /-- Trip source D0, D1, D2, NTC1 (Table 21-9). -/ tripSrc : BitVec 4 := 0
  /-- Release count runs (R439). -/ relRun : Bool := false
  /-- Release count, ms (R439). -/ relCnt : Nat := 0
  /-- Kiln Guard trips since power-on, KLN-retained (Table 21-9). -/ trips : Nat := 0
  deriving DecidableEq, Repr

/-- One load switch channel (LSW block, Table 22-1). -/
structure LswCh where
  /-- On (R407). -/ on : Bool := false
  /-- Turn-on waits its 200 µs turn (R425). -/ startWait : Bool := false
  /-- LSWC flag [3] request stands (R407). -/ flag3 : Bool := false
  /-- Fan request (R408). -/ fan : Bool := false
  /-- Current trip (R413). -/ curTrip : Bool := false
  /-- Thermal trip (R414). -/ thTrip : Bool := false
  /-- Has not yet cooled under R415 (R415). -/ hot : Bool := false
  /-- Retry delay runs (R415). -/ retryDly : Bool := false
  /-- Retries used (R415). -/ retries : Nat := 0
  /-- On-state open-load condition (R418). -/ openOn : Bool := false
  /-- Off-state open (R419). -/ openOff : Bool := false
  /-- Short to supply (R419). -/ shortSup : Bool := false
  /-- Last off-state test passed (Table 22-1). -/ testPass : Bool := false
  /-- Missing free-wheel path (R421). -/ noWheel : Bool := false
  /-- Off by the Kiln Guard (R417). -/ kiln : Bool := false
  /-- Minimum off time runs (R411). -/ minOff : Bool := false
  /-- A fault of Table 15-2 is latched and not cleared. -/ fault : Bool := false
  /-- Isolated until the next start (R415). -/ iso : Bool := false
  /-- In current limit (R413). -/ limiting : Bool := false
  /-- Row of the last latched fault (Table 22-1). -/ row : Nat := 0
  /-- Current, 0.1 mA (Table 22-1). -/ i : Nat := 0
  /-- Tch, °C (Table 22-1). -/ tch : Int := 0
  deriving DecidableEq, Repr

/-- Load switches (Table 22-1). -/
structure LswG where
  /-- Channels 1–8. -/ ch : Vector LswCh 8 := Vector.replicate 8 {}
  /-- LSWIN below its undervoltage threshold (R416). -/ uv : Bool := false
  deriving DecidableEq, Repr

/-! ### USB-C -/

/-- PD messages a port sends (chapter 14). -/
inductive PdMsg where
  | sourceCaps (offer : List (Nat × Nat))
  | request (pos i10 : Nat) (mismatch : Bool)
  | accept | reject | psRdy | hardReset | notSupported | nak
  | eprEnter | eprKeepAlive
  | discoverIdentitySop1
  | discoverIdentity | discoverSvids | discoverModes | enterMode | exitMode
  | ackIdentity | ackSvids (svids : List (BitVec 16)) | ackModes (vdo : BitVec 32)
  | ackEnter | ackExit
  | sinkCaps (pdos : List (Nat × Nat))
  | bistCarrier
  deriving DecidableEq, Repr

/-- A message sequence that waits for SinkTxNG (R390). -/
structure PdContract where
  /-- voltage, 50 mV -/
  v50 : Nat
  /-- current, 10 mA -/
  i10 : Nat
  /-- object position -/
  pos : Nat
  epr : Bool := false
  mismatch : Bool := false
  deriving DecidableEq, Repr

/-- One Type-C port (PDA and PDB blocks, Table 22-2). -/
structure PdG where
  /-- Attach state (Table 22-2). -/ att : Attach := .unattached
  /-- CC2 orientation (R375). -/ cc2 : Bool := false
  /-- CC termination presented (Table 14-3). -/ cc : CcTerm := .open_
  /-- Toggling (Table 14-3). -/ toggling : Bool := false
  /-- Source ready (R383). -/ ready : Bool := false
  /-- Backing at attach waits for the audit (R384). -/ waitBack : Bool := false
  /-- Explicit contract (R378, R386). -/ contract : Option PdContract := none
  /-- The contract as CORE uses it: that of the last merge tick (Table 01-6). -/ eff : Option PdContract := none
  /-- Requested and not yet accepted contract, as sink (R380). -/ want : Option PdContract := none
  /-- Accepted contract before PS_RDY (R380, R387). -/ trans : Option PdContract := none
  /-- Request of the sink partner waiting for the audit (R386). -/ reqWait : Option PdContract := none
  /-- Source PDOs last received: fixed, 50 mV, 10 mA (R378). -/ caps : List PdoIn := []
  /-- EPR Mode Capable in those capabilities (R379). -/ capsEpr : Bool := false
  /-- EPR mode (R379). -/ epr : Bool := false
  /-- Revision 2.0 partner (Table 14-2). -/ rev2 : Bool := false
  /-- VCONN on (R391). -/ vconn : Bool := false
  /-- Cable reports 5 A (R392). -/ cable5 : Bool := false
  /-- Cable discovery still runs (R392). -/ cableWait : Bool := false
  /-- Alternate mode entered (R394). -/ alt : Bool := false
  /-- The partner listed the vendor SVID (R394). -/ altListed : Bool := false
  /-- Collision avoidance: SinkTxNG set and t_TX runs (R390). -/ txWait : Bool := false
  /-- Messages waiting for the end of t_TX (R390). -/ txQueue : List PdMsg := []
  /-- Offer standing: (50 mV, 10 mA), 0 = left out (R385). -/ offer : List (Nat × Nat) := []
  /-- Backing held, tokens (R366). -/ backing : Nat := 0
  /-- Backing asked, tokens (R384, R386). -/ asked : Nat := 0
  /-- t_ST runs before the ramp (R387). -/ stWait : Bool := false
  /-- Hard Reset recovery t_SR runs (R388). -/ srWait : Bool := false
  /-- VBUS is being discharged (R388). -/ discharge : Bool := false
  /-- Damp (R397). -/ damp : Bool := false
  /-- Corroded (R397). -/ corroded : Bool := false
  /-- Consecutive wet readings of CC1, CC2, SBU1, SBU2 (R396). -/ wet : Vector Nat 4 := Vector.replicate 4 0
  /-- Consecutive dry readings of all pins (R397). -/ dry : Nat := 0
  /-- Last readings, kΩ (Table 22-2). -/ kohm : Vector Nat 4 := Vector.replicate 4 0
  /-- Seconds in Damp (Table 22-2). -/ dampSec : Nat := 0
  /-- A VBUS overvoltage or PHY fault keeps the port from source readiness until its Probe passes (Table 14-5). -/ hold : Bool := false
  /-- Isolated (Table 14-5). -/ iso : Bool := false
  /-- Every pin has stood below 5.5 V for 1 s since the overvoltage (R53). -/ ovClear : Bool := false
  /-- The first Source_Capabilities of this attach has gone out (R385). -/ capsSent : Bool := false
  /-- Messages sent, wraps (Table 22-2). -/ nSent : BitVec 16 := 0
  /-- Messages received, wraps (Table 22-2). -/ nRecv : BitVec 16 := 0
  /-- Hard Resets sent (Table 22-2). -/ hrSent : Nat := 0
  /-- Hard Resets received (Table 22-2). -/ hrRecv : Nat := 0
  /-- Rejects sent (Table 22-2). -/ rejects : Nat := 0
  /-- Swaps refused (Table 22-2). -/ swapsRef : Nat := 0
  /-- Messages sent since the last merge tick, in order. -/ sent : List PdMsg := []
  deriving DecidableEq, Repr

/-! ### Plinth Bus -/

/-- A master message waiting on a port (R316). -/
structure PlbMsg where
  /-- destination address; 0xFF broadcast -/
  dest : Byte
  type : Byte
  /-- account index -/
  idx : Nat := 0
  payload : List Byte := []
  /-- attempts made -/
  tries : Nat := 0
  /-- sequence once first sent -/
  seq : Option (BitVec 4) := none
  /-- the message moves tokens of this column when delivered -/
  col : Option Column := none
  deriving DecidableEq, Repr

/-- One partner of a port (R311). -/
structure Partner where
  enrolled : Bool := false
  absent : Bool := false
  barred : Bool := false
  collision : Bool := false
  misses : Nat := 0
  corrupt : Nat := 0
  seq : BitVec 4 := 0
  more : Bool := false
  kind : Nat := 0
  serial : List Byte := []
  /-- last STATUS: draw and return, tokens -/
  draw : Option (Nat × Nat) := none
  deriving DecidableEq, Repr

/-- One Plinth port (PLB block, Table 22-3). -/
structure PlbPort where
  /-- Confinement state (Table 12-6). -/ st : PortSt := .active
  /-- Transmit error counter (R327). -/ tec : Nat := 0
  /-- Medium present (R338). -/ medium : Bool := false
  /-- Partners by address (R311). -/ partners : List (Nat × Partner) := []
  /-- Messages waiting, oldest first (R316). -/ queue : List PlbMsg := []
  /-- The unicast message just sent, waiting for its response (R318). -/ await : Option PlbMsg := none
  /-- The frame just sent was found wrong at its read-back (R327). -/ awaitBad : Bool := false
  /-- Address the present slot belongs to (R316). -/ slotAddr : Option Byte := none
  /-- Frames driven in the present slot (Table 12-2). -/ sent : List Frame := []
  /-- Message slots used in this cycle (R316). -/ used : Nat := 0
  /-- Slots used in the last cycle (Table 22-3). -/ slotMap : BitVec 16 := 0
  /-- Slots used so far in this cycle. -/ slotNow : BitVec 16 := 0
  /-- Repeat polls of more-bit partners in this cycle (R316). -/ morePolls : Nat := 0
  /-- Last address invited (R316). -/ inviteAt : Nat := 0
  /-- Last address polled in round robin (R316). -/ pollAt : Nat := 0
  /-- Last address polled for its more bit (R316). -/ moreAt : Nat := 0
  /-- Sequence of master broadcasts (R314). -/ bcSeq : BitVec 4 := 0
  /-- Warned entries (Table 22-3). -/ nWarned : Nat := 0
  /-- Restricted entries (Table 22-3). -/ nRestr : Nat := 0
  /-- Misses, wrapping (Table 22-3). -/ misses : BitVec 16 := 0
  /-- SHEDn_N commanded asserted (R323). -/ shed : Bool := false
  /-- Grid tick at which the line was asserted (R337). -/ shedAt : BitVec 64 := 0
  /-- Shed by the vault (Table 22-3). -/ byVault : Bool := false
  /-- Shed by throttling (Table 22-3). -/ byThrot : Bool := false
  /-- Shed by order (Table 22-3). -/ byOrder : Bool := false
  /-- Shed by confinement (Table 22-3). -/ byConf : Bool := false
  /-- Asserted from Safe Hold (R59). -/ bySafe : Bool := false
  /-- The 3 ms minimum has not run (R324). -/ shedMin : Bool := false
  /-- The line reads asserted with neither controller commanding it (Table 12-7). -/ uncommanded : Bool := false
  /-- The line's read-back fault stands (Table 12-7). -/ lineFault : Bool := false
  deriving DecidableEq, Repr

/-- Plinth Bus (Table 22-3). -/
structure PlbG where
  /-- Ports 1–4. -/ p : Vector PlbPort 4 := Vector.replicate 4 {}
  /-- Cycle number, wraps (R315). -/ cycle : BitVec 32 := 0
  /-- This controller has been Plinth master in this start (R451). -/ master : Bool := false
  /-- The Dormant notice is set (R332). -/ dormNotice : Bool := false
  deriving DecidableEq, Repr

/-! ### Vault -/

/-- A pending request of one account in one column (R351). -/
structure Req where
  tokens : Nat
  seq : Byte
  /-- audits waited -/
  age : Nat := 0
  /-- order of arrival -/
  no : Nat := 0
  /-- it has drawn its answering GRANT (R346) -/
  answered : Bool := false
  deriving DecidableEq, Repr

/-- One account in one column (R341): delivered level, tokens in transit, lease and request. -/
structure ColRec where
  level : Nat := 0
  /-- in transit by a raising GRANT -/
  raise : Nat := 0
  /-- in transit by a lowering or an ended holder -/
  lower : Nat := 0
  /-- grid tick at which the lease ends -/
  leaseEnd : Option Nat := none
  req : Option Req := none
  /-- delivered lowerings, oldest first, whose T → F moves wait for t_RD (Table 13-2) -/
  done : List Nat := []
  /-- a recall is among what is in transit (R355) -/
  recalled : Bool := false
  /-- level that stood as the last lease ended, and the grid tick (R371) -/
  ended : Option (Nat × Nat) := none
  deriving DecidableEq, Repr

/-- A burst of one account (R357). -/
structure Burst where
  e : Nat
  /-- ms -/
  d : Nat
  /-- delivered: grid tick at which the window ends -/
  windowEnd : Option Nat := none
  deriving DecidableEq, Repr

/-- A burst request held in an account (R357, R359). -/
structure BurstReq where
  e : Nat
  d : Nat
  seq : Byte
  age : Nat := 0
  deriving DecidableEq, Repr

/-- The record of one account (R341). -/
structure AcctRec where
  sup : ColRec := {}
  ret : ColRec := {}
  burst : Option Burst := none
  burstReq : Option BurstReq := none
  /-- the pause after a burst runs (R359) -/
  pause : Bool := false
  /-- sequence of the last request of each column (Table 22-4) -/
  supSeq : Option Byte := none
  retSeq : Option Byte := none
  deriving DecidableEq, Repr

/-- One column's totals (R339). -/
structure ColTot where
  pool : Nat := 0
  f : Int := 0
  g : Int := 0
  t : Int := 0
  /-- largest λ of R350, Q16.16 -/
  lam : Nat := 0
  /-- the carried deficit has lasted 1 s (R353) -/
  carryOut : Bool := false
  /-- a deficit is carried since this audit number (R353) -/
  carrySince : Option Nat := none
  /-- a deficit that is recalled at once (R353) -/
  recallNow : Bool := false
  deriving DecidableEq, Repr

/-- Vault (VLT block, Table 22-4). -/
structure VltG where
  /-- Records by account number; an unlisted account holds nothing (R341). -/ recs : List (Nat × AcctRec) := []
  /-- Supply column (R339). -/ sup : ColTot := {}
  /-- Return column (R339). -/ ret : ColTot := {}
  /-- Own contribution K (R342). -/ k : Nat := 0
  /-- Follow's contribution (R367). -/ kTwin : Nat := 0
  /-- Own share of L_LOC (R344). -/ lLoc : Nat := 0
  /-- Follow's share (R367). -/ lLocTwin : Nat := 0
  /-- Follow's P_FWD + P_CH + P_EX, mW (R367). -/ pRetTwin : Nat := 0
  /-- Supply margin M (R344). -/ margin : Int := 0
  /-- Sustain allowance S (R343). -/ s : Int := 0
  /-- ΣFLOOR (R344). -/ floors : Nat := 0
  /-- U (R344). -/ u : Nat := 0
  /-- E_avail, J (R358). -/ eAvail : Nat := 0
  /-- E_committed, J (R358). -/ eCommit : Nat := 0
  /-- Grid tick of the audit that E_committed was last formed at (R341). -/ commitAt : Nat := 0
  /-- B_max, tokens (R366). -/ bMax : Nat := 0
  /-- BEACON level q, % (R362). -/ q : Nat := 0
  /-- P_T, tokens (R362). -/ pT : Nat := 0
  /-- Throttle in force (R362). -/ throt : Bool := false
  /-- Throttle grace runs (R363). -/ grace : Bool := false
  /-- Grid tick of the recalls at the end of the grace (R364). -/ graceEnd : Option Nat := none
  /-- Enforcement shedding (R364). -/ enforce : Bool := false
  /-- Last audit passed (Table 22-4). -/ pass : Bool := true
  /-- First failed check of R341 (Table 22-4). -/ failed : Nat := 0
  /-- Audits left without raising grants (Table 13-3). -/ noRaise : Nat := 0
  /-- Audit number, wraps (Table 22-4). -/ auditNo : BitVec 16 := 0
  /-- BURST_DENIED sent, wraps (Table 22-4). -/ nDenied : BitVec 16 := 0
  /-- DEFER sent, wraps (Table 22-4). -/ nDefer : BitVec 16 := 0
  /-- Account whose detail is published (R548). -/ dsel : Nat := 0
  /-- Detail valid (R548). -/ dvalid : Bool := false
  /-- An ACCSEL command waits for the end of the tick's audit (R557). -/ dselPend : Option Nat := none
  /-- Arrival number of the next request (R351). -/ nextNo : Nat := 0
  /-- The pool is held at 0: lasting vault corruption (Table 13-3). -/ dead : Bool := false
  /-- A latched fault refuses bursts (Table 10-5). -/ noBurst : Bool := false
  /-- A latched fault holds a positive sustain allowance at 0 (R343). -/ noSustain : Bool := false
  /-- P_IN of the last audit outside a transfer, µW (R342). -/ pIn : Nat := 0
  /-- Export backing asked: account and tokens (R366). -/ askBack : List (Nat × Nat) := []
  /-- Digest of the last audit or of the mirror (Table 17-4). -/ digest : BitVec 32 := 0
  deriving DecidableEq, Repr

/-! ### Twin -/

/-- A twin link frame sent (Table 17-4): type, sequence, and the fields of its payload. -/
structure TwFrame where
  type : Nat
  seq : BitVec 8
  data : List Int
  deriving DecidableEq, Repr

/-- Twin state (TWN block, Table 22-5). -/
structure TwnG where
  /-- Role (Table 17-2). -/ role : Role := .none
  /-- Link trained (R452). -/ trained : Bool := false
  /-- Attached (Table 17-6). -/ attached : Bool := false
  /-- Share ramp runs (R457). -/ ramp : Bool := false
  /-- Driving TW_TRIP_N (R463). -/ drive : Bool := false
  /-- Fencing state (R463). -/ fence : Fence := .none
  /-- Contest bits sent (R464). -/ slot : Nat := 0
  /-- Contest lost (R464). -/ lost : Bool := false
  /-- Own clock-free trip receiver blocked (R463). -/ rxBlock : Bool := false
  /-- PWM PLL on TW_REFCLK (R223). -/ onRef : Bool := false
  /-- Driving TW_REFCLK (R466). -/ drvRef : Bool := false
  /-- Attach refused (R454). -/ refused : Bool := false
  /-- Refusal cause (Table 22-5). -/ refCause : Nat := 0
  /-- Digest of the refused IDENT (R454). -/ refDigest : Option (BitVec 256) := none
  /-- Twin's IDENT (Table 17-4). -/ ident : Option IdentMsg := none
  /-- Good heartbeats, wraps (Table 22-5). -/ hb : BitVec 32 := 0
  /-- Frames with a bad CRC (Table 22-5). -/ hbErr : Nat := 0
  /-- Heartbeat losses (Table 22-5). -/ hbLoss : Nat := 0
  /-- Heartbeat loss stands. -/ lossNow : Bool := false
  /-- NAKs sent (Table 22-5). -/ naks : Nat := 0
  /-- Full resyncs (Table 22-5). -/ resyncs : Nat := 0
  /-- Last good sequence received per type 2–9 (R453). -/ rxSeq : List (Nat × BitVec 8) := []
  /-- Next sequence to send per type 2–9 (R453). -/ txSeq : List (Nat × BitVec 8) := []
  /-- Share correction, µA (R456). -/ share : Int := 0
  /-- Correction weight, per mille (R457). -/ weight : Nat := 0
  /-- Share correction frozen (Table 17-7). -/ shareFroz : Bool := false
  /-- Ledger cross-check within ΔQ_X (Table 22-5). -/ xLdgOk : Bool := false
  /-- Mirror digests agree (Table 22-5). -/ xMirOk : Bool := false
  /-- Path cross-check holds (Table 22-5). -/ xPathOk : Bool := false
  /-- Policy applied (Table 22-5). -/ xPolOk : Bool := false
  /-- Difference of R459, mC (Table 22-5). -/ xLdg : Int := 0
  /-- Twin's last heartbeat (R461). -/ last : Option HeartbeatMsg := none
  /-- Ticks for which the MAIN qualification states have differed (R461). -/ qDiff : Nat := 0
  /-- Ticks for which the ISM sum has exceeded its bound (R461). -/ ismOver : Nat := 0
  /-- Ticks by which the twin's echoed generation lags (R458). -/ genLag : Nat := 0
  /-- Merged values to apply at the next tick (R458). -/ ordPend : Option OrdersMsg := none
  /-- Policy to apply at the next tick (R458). -/ polPend : Option PolicyMsg := none
  /-- A CONTROL command and the tick at which it takes effect (R468). -/ ctl : Option (Nat × Nat) := none
  /-- Planned detach: the controller that leaves is this one (R469). -/ leaving : Option Bool := none
  /-- A full MIRROR is expected (R454 step 4). -/ mirrorWait : Bool := false
  /-- Twin's ISP current of the last close, mA (R171). -/ isp : Int := 0
  /-- Grid tick at which the share ramp began (R457). -/ rampAt : BitVec 64 := 0
  /-- The share ramp leads down to a planned detach (R469). -/ rampDown : Bool := false
  /-- Twin's ISM current of the last close, mA (R461). -/ ism : Int := 0
  /-- The sum of R459 starts with the next LEDGER frame. -/ twSumReset : Bool := false
  /-- Fenced until the next start (Table 17-7). -/ locked : Bool := false
  /-- The last 256 frames sent, newest first (R453). -/ log : List TwFrame := []
  /-- Order generation last sent in ORDERS (Table 17-4). -/ ordSent : Option (BitVec 8) := none
  /-- Frames sent since the last merge tick. -/ sent : List TwFrame := []
  deriving DecidableEq, Repr

/-! ### Watchdog, faults, records -/

/-- Watchdog (WDG block, Table 22-6). -/
structure WdgG where
  /-- Running (R123). -/ run : Bool := false
  /-- Its Boot timeout runs: started at release and no period begun (R124). -/ bootTmo : Bool := false
  /-- t_WDS in force (R124). -/ tWds : Bool := false
  /-- Period, ms (R120). -/ period : Nat := 0
  /-- Period number, wraps (R120). -/ num : BitVec 32 := 0
  /-- Missing-task mask (R120). -/ missing : BitVec 6 := 0
  /-- Last check-in times (R127). -/ last : Vector (BitVec 32) 6 := Vector.replicate 6 0
  /-- KLN shadow: program counter (R127). -/ shPc : BitVec 32 := 0
  /-- KLN shadow: check-in times (R127). -/ shLast : Vector (BitVec 32) 6 := Vector.replicate 6 0
  /-- Post-mortem capture, KLN-retained (R128). -/ cap : Capture := {}
  deriving DecidableEq, Repr

/-- A Probe queue entry (R293). -/
structure ProbeQ where
  code : BitVec 16
  inst : BitVec 8
  running : Bool := false
  /-- other errors that struck its block while it runs, which its result classifies as well (R302) -/
  also : List (BitVec 16 × BitVec 8) := []
  deriving DecidableEq, Repr

/-- A transient history slot, KLN-retained (R553). -/
structure HistSlot where
  block : BitVec 8
  inst : BitVec 8
  stamps : List Nat
  deriving DecidableEq, Repr

/-- Fault logic (FLT block, Table 22-7). -/
structure FltG where
  /-- The 64 latches (R288). -/ l : Vector (Option Latch) 64 := Vector.replicate 64 none
  /-- Latch overflow (R288). -/ ovf : Bool := false
  /-- An overflow of the present merge tick (R541). -/ ovfNew : Bool := false
  /-- Probe queue, oldest first (R293). -/ q : List ProbeQ := []
  /-- Transient history slots, KLN-retained (R295). -/ hist : List HistSlot := []
  /-- Latches allocated since reset, wraps (Table 22-7). -/ fcount : BitVec 32 := 0
  /-- Code and instance with a record within the last 1 s, and the occurrences added since (R290). -/ coal : List (BitVec 16 × BitVec 8 × Nat) := []
  /-- Rotation: items completed in this period (Table 22-7). -/ rotDone : BitVec 10 := 0
  /-- Instances of the items tested in this period (R297). -/ rotInst : List (Nat × BitVec 8) := []
  /-- Items overdue (R303). -/ overdue : BitVec 10 := 0
  /-- Errors whose Probe could not be queued, to be taken as lasting at the next merge tick (R296). -/ noProbe : List (BitVec 16 × BitVec 8) := []
  /-- Rotation items that failed and wait for their classification, with the block each tested (R298). -/ rotBad : List (Nat × BitVec 8) := []
  /-- µs at which the rotation period began (Table 22-7). -/ rotStart : BitVec 32 := 0
  /-- CORE memory bank isolated: the vault bank (Table 22-7). -/ vaultIso : Bool := false
  deriving DecidableEq, Repr

/-- A record waiting to be written (R521). -/
structure QRec where
  type : RecType
  body : List Byte
  /-- checkpoint or closing balance values it carries -/
  cp : Option Checkpoint := none
  /-- its event falls at or after a closing close (R528) -/
  nextEpoch : Bool := false
  /-- a periodic checkpoint, replaced by a newer one while it waits (R521) -/
  periodic : Bool := false
  /-- written under R519 ahead of an erase, into the room kept for it -/
  fresh : Bool := false
  /-- counters a Patina record carries -/
  pat : Option Patina := none
  /-- what it says (Table 20-4) -/
  info : RecInfo := .none_
  deriving DecidableEq, Repr

/-- Owner records (OWN block, Table 22-8). -/
structure OwnG where
  /-- Handover step of Table 20-6 (Table 22-8). -/ step : Nat := 0
  /-- Ledger closes since the handover was accepted (Table 20-6). -/ closes : Nat := 0
  /-- Grid tick of the closing close of a pair (R474). -/ closeTick : Option Nat := none
  /-- Key block fault (Table 20-7). -/ keyFault : Bool := false
  /-- Owner records disabled until the next start by an epoch fault or R530. -/ disabled : Bool := false
  /-- Log scan in progress (R522). -/ scan : Bool := false
  /-- Index of the head sector; none before a scan or on a fresh region (R522). -/ head : Option Nat := none
  /-- Erase credit (R521). -/ credit : Int := 0
  /-- Record queue, oldest first (R521). -/ q : List QRec := []
  /-- Records dropped since Run entry (Table 22-8). -/ dropped : Nat := 0
  /-- Torn records skipped since Run entry (Table 22-8). -/ torn : Nat := 0
  /-- Start count of this start (R518). -/ start : Nat := 0
  /-- Next record number (Table 20-3). -/ num : Nat := 0
  /-- The newest valid checkpoint the scan found (R522). -/ base : Option Checkpoint := none
  /-- Its epoch is an earlier one: no checkpoint of the current epoch exists (R529). -/ fresh : Bool := false
  /-- Decrypt status (R524). -/ dStat : Nat := 0
  /-- Decrypt: record type shown (Table 22-8). -/ dType : Nat := 0
  /-- Decrypt: plaintext length (Table 22-8). -/ dLen : Nat := 0
  /-- Decrypt: offset named (Table 22-8). -/ dOff : Nat := 0
  /-- Decrypt: part named (R524). -/ dPart : Nat := 0
  /-- Decrypt window (Table 22-8). -/ dWin : List Byte := []
  /-- Patina counters as of the scan, plus this start (R527). -/ pat : Patina := {}
  /-- What the event records have seen (Table 20-4). -/ seen : Seen := {}
  /-- Merge ticks since the last step of the Run and Dormant hours (R527). -/ runT : Nat := 0
  /-- Merge ticks since the last step of the stage-switching hours (R527). -/ stageT : Nat := 0
  deriving DecidableEq, Repr

/-! ### Orders, Window Port, measurements -/

/-- One order slot (R480): standing values, merged value, last host result. -/
structure SlotG where
  /-- Host's standing order (R538). -/ host : Option (BitVec 32) := none
  /-- Supervisor's standing order (R537). -/ sup : Option (BitVec 32) := none
  /-- Merged value (R480). -/ merged : BitVec 32 := 0
  /-- Last host result; none since reset (R537). -/ res : Option OrdRes := none
  /-- Clamped under R481 (R537). -/ clamped : Bool := false
  deriving DecidableEq, Repr

/-- An order that waits for the next merge tick (R480). -/
structure Arrived where
  m : Master
  slot : Nat
  v : BitVec 32
  /-- Plinth port, partner address, account index and order sequence of a supervisor order (R330) -/
  src : Option (Nat × Byte × Nat × Byte) := none
  deriving DecidableEq, Repr

/-- Orders (R537); slots in the order of Table 18-2, merged slots first. -/
structure OrdG where
  /-- The 31 slots of Table 18-2 (R537). -/ s : Vector SlotG 31 := Vector.replicate 31 {}
  /-- Orders taken since the last merge, oldest first (R480). -/ arrived : List Arrived := []
  /-- Order generation, wraps (Table 21-2). -/ gen : BitVec 8 := 0
  /-- Conflict results, all masters (Table 21-2). -/ conflicts : Nat := 0
  /-- Attention causes (Table 19-6). -/ attn : BitVec 7 := 0
  /-- Attention causes whose event falls in the present merge tick (R508, R541). -/ attnNew : BitVec 7 := 0
  /-- Counts of WCRC, FRAME, REFUSED, HCRC, OVR events (Table 21-2). -/ err : Vector Nat 5 := Vector.replicate 5 0
  deriving DecidableEq, Repr

/-- What the block measures (R532 marks them m): mV and mA of the last sample, averaged readings. -/
structure MeasG where
  /-- VMAIN, mV. -/ vmain : Nat := 0
  /-- VCIN, mV. -/ vcin : Nat := 0
  /-- VSYS, mV. -/ vsys : Nat := 0
  /-- VPACK, mV. -/ vpack : Nat := 0
  /-- VBUSA_S, mV. -/ vbusa : Nat := 0
  /-- VBUSB_S, mV. -/ vbusb : Nat := 0
  /-- LSWIN, mV. -/ lswin : Nat := 0
  /-- ISM, mA. -/ ism : Int := 0
  /-- ISA, mA. -/ isa : Int := 0
  /-- ISB, mA. -/ isb : Int := 0
  /-- ISC, mA. -/ isc : Int := 0
  /-- ISP (I_PACK), mA. -/ isp : Int := 0
  /-- ISS, mA. -/ iss : Int := 0
  /-- AXS, mA. -/ axs : Nat := 0
  /-- I_PACK averaged over 100 ms, mA (R171). -/ ispAvg : Int := 0
  /-- I_PACK averaged over 100 µs, mA (Table 10-4). -/ ispDec : Int := 0
  deriving DecidableEq, Repr

/-- A write waiting for the next merge tick (R501): opcode, address, words, number of the image the port
last froze (R552). -/
structure WinWrite where
  w1c : Bool
  addr : Nat
  words : List (BitVec 32)
  tick : BitVec 64
  deriving DecidableEq, Repr

/-- The Window Port outside CORE (chapter 19). -/
structure WinG where
  /-- Status byte of the last transaction (R498). -/ status : BitVec 6 := 0
  /-- Pending transaction (R501). -/ pend : Option WinWrite := none
  /-- Number of the image frozen by the latest snapshot read (R552). -/ frozen : BitVec 64 := 0
  /-- Bytes returned on WIN_SDO by the last transaction; empty = not driven (R494). -/ sdo : List Byte := []
  deriving DecidableEq, Repr

/-- What of the outputs still stands on the way into Reset (R57, R129), and the capture that the Reset entry can
take (R131). -/
structure ResetOuts where
  /-- Reset is being entered: causes that arrive now are present at Reset entry (R131). -/ entry : Bool := false
  /-- Phases on their way through Chisel Off. -/ ph : Vector PhaseSt 4 := Vector.replicate 4 .off
  /-- Pairs of MAIN, PDA and PDB that are still on. -/ pairs : Vector Bool 3 := Vector.replicate 3 false
  /-- The BATFET as it still stands. -/ batfet : Batfet := .off
  /-- Load switches that are still on. -/ lsw : BitVec 8 := 0
  /-- The values that a capture of this Reset entry freezes (R127). -/ cand : Capture := {}
  /-- A capture was held as Reset was entered (R128). -/ held : Bool := false
  /-- Capture kind so far, 0 none (R131). -/ kind : Nat := 0
  deriving DecidableEq, Repr

/-- Everything of the controller but the Window Port and its command queue. -/
structure Core where
  life : LifeG := {}
  pins : PinsG := {}
  otp : OtpG := {}
  nvm : NvmG := {}
  /-- The running image (R86). -/ mq : Option Maquette := none
  mqs : MqsG := {}
  path : PathG := {}
  chg : ChgG := {}
  cel : CelG := {}
  ldg : LdgG := {}
  gdr : GdrG := {}
  loop : LoopG := {}
  thm : ThmG := {}
  lsw : LswG := {}
  pd : Vector PdG 2 := Vector.replicate 2 {}
  plb : PlbG := {}
  vlt : VltG := {}
  twn : TwnG := {}
  wdg : WdgG := {}
  flt : FltG := {}
  own : OwnG := {}
  ord : OrdG := {}
  meas : MeasG := {}
  /-- Outputs on their way into the Reset column (R57). -/
  outs : ResetOuts := {}
  /-- Counter that gives each value the spec leaves open a fresh argument (log entry 6). -/ free : Nat := 0
  deriving DecidableEq, Repr

/-- The whole block: commands waiting, the controller, the image last published, the Window Port. -/
structure State where
  /-- Commands waiting, first in first out. -/ pending : List Instr := []
  core : Core := {}
  /-- The complete image CORE last published (R499). -/ img : Core := {}
  win : WinG := {}
  deriving DecidableEq, Repr

/-- The block before any supply has stood: Off, nothing waiting (R30, log entry 3). -/
def State.reset : State := {}

end Sys2Proof.Machine
end

