-- ==== Sys2Proof/Machine/Ops.lean ====
section
/-! DEFINITION. The named operations every family uses: indexed tables, keyed lists, the NVM bytes,
the checksums of the protocols, and how a meaning acts on the controller. -/

namespace Sys2Proof.Machine

/-- The outcome of a command. -/
abbrev Res := Host.Outcome State Fault Refusal

/-- A reset that a command takes on its way ends everything else the command would still do: beyond it stands only what a
reset keeps (R105, R126). -/
def afterReset (c d : Core) : Core :=
  if d.life.st == .reset && c.life.st != .reset then
    { otp := d.otp, nvm := { d.nvm with op := none, queue := [] }, free := d.free
      pins := { d.pins with attn := false, faultN := true }
      flt := { hist := d.flt.hist }
      thm := { trips := d.thm.trips, tripped := d.thm.tripped, tripSrc := d.thm.tripSrc }
      wdg := { cap := d.wdg.cap, shPc := d.wdg.shPc, shLast := d.wdg.shLast }
      life := { st := .reset, rstKind := d.life.rstKind, rstCause := d.life.rstCause, rstLatest := d.life.rstLatest
                rstTook := d.life.rstTook, mosc := d.life.mosc, powerOn := d.life.powerOn, tmode := d.life.tmode
                loss := d.life.loss, unmeas := d.life.unmeas, rstInst := d.life.rstInst }
      outs := d.outs }
  else d

/-- A command whose whole effect is on the controller. -/
def onCore (s : State) (f : Core → Core) : Res := .next { s with core := afterReset s.core (f s.core) }

/-- A command that has its effect while `p` holds and none otherwise (log entry 4). -/
def onCoreIf (s : State) (p : Core → Bool) (f : Core → Core) : Res :=
  onCore s fun c => if p c then f c else c

/-- The controller is in Run. -/
def inRun (c : Core) : Bool := c.life.st == .run

/-- The controller is in Safe Hold. -/
def inSafeHold (c : Core) : Bool := c.life.st == .safeHold

/-- A command that has its effect in Run only. -/
def onRun (s : State) (f : Core → Core) : Res := onCoreIf s inRun f

/-! ### Indexed tables -/

/-- `f i a` at every place `i` of a list, counting from `k`. -/
def mapFrom {α β : Type} (f : Nat → α → β) : Nat → List α → List β
  | _, [] => []
  | k, a :: as => f k a :: mapFrom f (k + 1) as

theorem length_mapFrom {α β : Type} (f : Nat → α → β) (k : Nat) (l : List α) :
    (mapFrom f k l).length = l.length := by
  induction l generalizing k with
  | nil => rfl
  | cons a as ih => simp [mapFrom, ih]

/-- `f i a` at every place of a table. -/
def vmap {α β : Type} {n : Nat} (f : Nat → α → β) (v : Vector α n) : Vector β n :=
  ⟨⟨mapFrom f 0 v.toList⟩, by simp [length_mapFrom]⟩

/-- The entry at place `i` of a table; `d` past its end. -/
def vget {α : Type} {n : Nat} (v : Vector α n) (i : Nat) (d : α) : α := v.toList.getD i d

/-- A table with `f` applied at place `i`. -/
def vupd {α : Type} {n : Nat} (v : Vector α n) (i : Nat) (f : α → α) : Vector α n :=
  vmap (fun j a => if j = i then f a else a) v

/-- Sum of `f` over a list. -/
def sumBy {α : Type} (f : α → Nat) : List α → Nat
  | [] => 0
  | a :: as => f a + sumBy f as

/-- Signed sum of `f` over a list. -/
def sumByI {α : Type} (f : α → Int) : List α → Int
  | [] => 0
  | a :: as => f a + sumByI f as

/-- Largest of a list, 0 when empty. -/
def maxL : List Nat → Nat
  | [] => 0
  | a :: as => max a (maxL as)

/-- Smallest of a list, 0 when empty. -/
def minL : List Nat → Nat
  | [] => 0
  | [a] => a
  | a :: as => min a (minL as)

/-- Bit `i` of a word set or cleared. -/
def putBit {n : Nat} (w : BitVec n) (i : Nat) (b : Bool) : BitVec n :=
  if b then w ||| BitVec.ofNat n (2 ^ i) else w &&& ~~~ BitVec.ofNat n (2 ^ i)

/-- 1 for true, 0 for false. -/
def b2n (b : Bool) : Nat := if b then 1 else 0

/-! ### Keyed lists, rising by key -/

/-- The entry under a key, `d` where none is listed. -/
def kget {α : Type} (d : α) (k : Nat) : List (Nat × α) → α
  | [] => d
  | (j, a) :: r => if j = k then a else kget d k r

/-- The entry under a key set. -/
def kset {α : Type} (k : Nat) (a : α) : List (Nat × α) → List (Nat × α)
  | [] => [(k, a)]
  | (j, b) :: r => if j = k then (k, a) :: r else if k < j then (k, a) :: (j, b) :: r
      else (j, b) :: kset k a r

/-- The entry under a key changed by `f`. -/
def kupd {α : Type} (d : α) (k : Nat) (f : α → α) (l : List (Nat × α)) : List (Nat × α) :=
  kset k (f (kget d k l)) l

/-- The entry under a key removed. -/
def kdel {α : Type} (k : Nat) (l : List (Nat × α)) : List (Nat × α) := l.filter fun p => p.1 != k

/-- `f` applied to every entry. -/
def kmap {α : Type} (f : Nat → α → α) (l : List (Nat × α)) : List (Nat × α) :=
  l.map fun p => (p.1, f p.1 p.2)

/-! ### Bytes of the copy regions of the NVM (R67); an unlisted byte is erased and reads 0xFF -/

/-- The byte an erased cell reads (log entry 3). -/
def erased : Byte := 0xFF

/-- The byte at an NVM address. -/
def nvmByte : List Host.Cell → Nat → Byte
  | [], _ => erased
  | (j, b) :: r, a => if j = a then b else nvmByte r a

/-- One byte of the NVM set; an erased byte is not listed. -/
def nvmPut : List Host.Cell → Nat → Byte → List Host.Cell
  | [], a, b => if b = erased then [] else [(a, b)]
  | (j, x) :: r, a, b =>
    if j = a then (if b = erased then r else (a, b) :: r)
    else if a < j then (if b = erased then (j, x) :: r else (a, b) :: (j, x) :: r)
    else (j, x) :: nvmPut r a b

/-- Bytes programmed from an address upward. -/
def nvmProgram : List Host.Cell → Nat → List Byte → List Host.Cell
  | m, _, [] => m
  | m, a, b :: bs => nvmProgram (nvmPut m a b) (a + 1) bs

/-- The 4 KiB sector at an address erased (Table 03-1). -/
def nvmErase (m : List Host.Cell) (a : Nat) : List Host.Cell :=
  m.filter fun p => !(decide (a ≤ p.1) && decide (p.1 < a + 4096))

/-- Canonical form of the NVM bytes: addresses strictly rising from `lo`, no erased byte listed. -/
def nvmWfFrom : Nat → List Host.Cell → Bool
  | _, [] => true
  | lo, (j, b) :: r => decide (lo ≤ j) && (b != erased) && nvmWfFrom (j + 1) r

/-- Canonical form of the NVM bytes. -/
def Memory.wf (m : List Host.Cell) : Bool := nvmWfFrom 0 m

/-- The `n` bytes from address `a`, given the cells that stand at or above it. -/
def nvmWalk : Nat → Nat → List Host.Cell → List Byte
  | 0, _, _ => []
  | n + 1, a, m =>
    match m with
    | [] => erased :: nvmWalk n (a + 1) []
    | (j, b) :: r => if j = a then b :: nvmWalk n (a + 1) r else erased :: nvmWalk n (a + 1) m

/-- The `n` bytes from address `a`, one walk of the cell list. -/
def nvmBytes (n a : Nat) (m : List Host.Cell) : List Byte :=
  nvmWalk n a (m.dropWhile fun p => decide (p.1 < a))

/-! ### Little-endian numbers (R8) -/

/-- The number in `n` bytes, least significant first; missing bytes count as 0. -/
def leNat : Nat → List Byte → Nat
  | 0, _ => 0
  | _, [] => 0
  | n + 1, b :: bs => b.toNat + 256 * leNat n bs

/-- `n` bytes of a number, least significant first. -/
def toLe : Nat → Nat → List Byte
  | 0, _ => []
  | n + 1, v => BitVec.ofNat 8 v :: toLe n (v / 256)

/-- The field of `n` bytes at an offset. -/
def fieldAt (bs : List Byte) (off n : Nat) : Nat := leNat n (bs.drop off)

/-- A 16-bit field read as two's complement. -/
def s16 (v : Nat) : Int := if v < 32768 then v else (v : Int) - 65536

/-! ### Checksums -/

/-- One bit of a CRC register entered most significant bit first. -/
def crcStep {n : Nat} (poly : BitVec n) (r : BitVec n) (inBit : Bool) : BitVec n :=
  let t := r.msb != inBit
  let s := r <<< 1
  if t then s ^^^ poly else s

/-- One byte entered most significant bit first. -/
def crcByte {n : Nat} (poly r : BitVec n) (b : Byte) : BitVec n :=
  [b.getLsbD 7, b.getLsbD 6, b.getLsbD 5, b.getLsbD 4, b.getLsbD 3, b.getLsbD 2, b.getLsbD 1,
    b.getLsbD 0].foldl (crcStep poly) r

/-- CRC-8 of the Window Port and of the log headers (R495). -/
def crc8 (bs : List Byte) : BitVec 8 := bs.foldl (crcByte 0x07) 0

/-- CRC-16 of the Plinth Bus (R313). -/
def crc16 (bs : List Byte) : BitVec 16 := bs.foldl (crcByte 0x1021) 0xFFFF

/-- One byte of the reflected CRC-32 entered least significant bit first (Table 17-3). -/
def crc32Byte (r : BitVec 32) (b : Byte) : BitVec 32 :=
  [b.getLsbD 0, b.getLsbD 1, b.getLsbD 2, b.getLsbD 3, b.getLsbD 4, b.getLsbD 5, b.getLsbD 6,
    b.getLsbD 7].foldl
    (fun q i =>
      let t := q.getLsbD 0 != i
      let s := q >>> 1
      if t then s ^^^ 0xEDB88320 else s) r

/-- CRC-32 of the twin link and of the vault digest (Table 17-3). -/
def crc32 (bs : List Byte) : BitVec 32 := ~~~ (bs.foldl crc32Byte 0xFFFFFFFF)

/-- Divide and round up. -/
def ceilDiv (a b : Nat) : Nat := (a + b - 1) / b

end Sys2Proof.Machine
end

