-- ==== Sys2Proof/Machine/Maquette.lean ====
section
/-! DEFINITION. Reading a Maquette image from its bytes, the nine Boot checks of Table 03-26, and
the class that each fault code's row gives (R287). -/

namespace Sys2Proof.Machine

/-! ### Fault rows: the class each row of the fault tables gives (R286, R287) -/

/-- Severity in the order B, C, A, D (R292). -/
def FCls.rank : FCls → Nat
  | .b => 0 | .c => 1 | .a => 2 | .d => 3

/-- The more severe of two classes (R292). -/
def FCls.worse (x y : FCls) : FCls := if x.rank < y.rank then y else x

/-- Class codes of FLTR and of the latch table (Table 11-4). -/
def FCls.ofCode : Nat → Option FCls
  | 1 => some .a | 2 => some .b | 3 => some .c | 4 => some .d | _ => none

/-- Class code of a class (Table 11-4). -/
def FCls.code : FCls → Nat
  | .a => 1 | .b => 2 | .c => 3 | .d => 4

/-- The classes of the rows of one block's fault table, row 1 first; none = the row gives no class
(R287). -/
def faultRows : Nat → List (Option FCls)
  | 0x02 => [some .b, some .c, some .a, some .c, some .a, some .b, some .b, some .a]
  | 0x04 => [some .b, some .b, some .b, some .b, some .b, some .b]
  | 0x06 => [some .b, some .b, some .b, none, some .b, some .c, some .c, some .b]
  | 0x08 => [some .b, none, some .c, some .c, some .d]
  | 0x0A => [some .a, some .a, some .a, some .c, some .c, some .c, some .c, some .a]
  | 0x0B => [none, some .b, some .b, none]
  | 0x0C => [some .a, some .c, some .c, some .b, some .c]
  | 0x0E => [some .c, some .c, some .c, some .c, some .c, some .c, some .c]
  | 0x10 => [some .c, some .c, some .c, some .c, some .c]
  | 0x11 => [some .c, some .c, some .c, some .c, some .c]
  | 0x12 => [some .c, some .c, some .b]
  | 0x13 => [some .b, some .c]
  | 0x14 => [some .c, some .c, some .c, some .c, some .c, some .c, some .a, some .b]
  | 0x16 => [some .d, some .d, some .d, some .d, none, none]
  | 0x18 => [some .d, some .a, some .d, some .c, some .b]
  | 0x1A => [some .c, some .c, some .b]
  | _ => []

/-- The least severe class of a code's row, where the code names a row with a class (R81, R287). -/
def rowClass (code : BitVec 16) : Option FCls :=
  let row := code.toNat % 256
  if row = 0 then none else (((faultRows (code.toNat / 256))[row - 1]?).getD none)

/-! ### Sections (R70, Tables 03-2 and 03-3) -/

/-- Tag and fixed body length of each section; the lengths of LOOP and FLTR follow N and F. -/
def sectionTable : List (List Byte × Nat) :=
  [([0x48, 0x45, 0x41, 0x44], 64), ([0x50, 0x41, 0x43, 0x4B], 72), ([0x42, 0x41, 0x4E, 0x44], 68),
   ([0x50, 0x41, 0x54, 0x48], 36), ([0x53, 0x54, 0x41, 0x47], 32), ([0x4C, 0x4F, 0x4F, 0x50], 144),
   ([0x43, 0x45, 0x4C, 0x4C], 16), ([0x54, 0x48, 0x52, 0x4D], 36), ([0x4C, 0x53, 0x57, 0x43], 96),
   ([0x50, 0x44, 0x50, 0x4F], 128), ([0x50, 0x4C, 0x42, 0x53], 40), ([0x56, 0x41, 0x4C, 0x54], 32528),
   ([0x54, 0x57, 0x49, 0x4E], 8), ([0x57, 0x44, 0x4F, 0x47], 8), ([0x46, 0x4C, 0x54, 0x52], 8),
   ([0x4F, 0x57, 0x4E, 0x52], 12), ([0x53, 0x49, 0x47, 0x4E], 132)]

/-- The body length a section must have, from its tag's table length and its own first bytes; none
where N or F is out of range (Table 03-3). -/
def bodyLen (tagLen : Nat) (body : List Byte) (isLoop isFltr : Bool) : Option Nat :=
  let c := leNat 2 body
  if isLoop then (if 1 ≤ c ∧ c ≤ 4096 then some (144 + 4 * c) else none)
  else if isFltr then (if c ≤ 256 then some (8 + 4 * c) else none)
  else some tagLen

/-- The headers and bodies of the sections in the order of Table 03-3; none where the order, a
version or a length is wrong, or bytes are left over. -/
def splitSections : List (List Byte × Nat) → Nat → List Byte → Option (List (List Byte × List Byte))
  | [], _, rest => if rest.isEmpty then some [] else none
  | (tag, len) :: ts, k, bs =>
    let hdr := bs.take 12
    let rest := bs.drop 12
    match bodyLen len rest (k == 5) (k == 14) with
    | none => none
    | some l =>
      if hdr.take 4 == tag && fieldAt hdr 4 4 == l && fieldAt hdr 8 2 == 1 && hdr.length == 12 then
        let body := rest.take l
        if body.length == l then
          (splitSections ts (k + 1) (rest.drop l)).map fun r => (hdr, body) :: r
        else none
      else none

/-- Every byte of a field is 0. -/
def zeroAt (bs : List Byte) (off n : Nat) : Bool := fieldAt bs off n == 0

/-- Flags [7:3] of every account entry, 8 bytes each, are 0 (Table 03-19). -/
def acctFlagsOk : Nat → List Byte → Bool
  | 0, _ => true
  | n + 1, bs => decide (fieldAt bs 7 1 < 8) && acctFlagsOk n (bs.drop 8)

/-- The fields of each section that its table marks reserved are 0 (R9, R72, R80); sections in the
order of Table 03-3. -/
def reservedZero (secs : List (List Byte × List Byte)) : Bool :=
  let b := fun k => ((secs[k]?).getD ([], [])).2
  let pd := fun (o : Nat) =>
    let q := b 9
    let spr := fieldAt q (o + 1) 1
    let epr := fieldAt q (o + 2) 1
    let src := fieldAt q (o + 3) 1
    zeroAt q (o + 62) 2
      && ((List.range 7).all fun k => decide (k < spr) || zeroAt q (o + 4 + 4 * k) 4)
      && ((List.range 3).all fun k => decide (k < epr) || zeroAt q (o + 32 + 4 * k) 4)
      && ((List.range 4).all fun k => decide (k < src) || zeroAt q (o + 44 + 4 * k) 4)
  (secs.all fun s => zeroAt s.1 10 2)
    && fieldAt (b 0) 14 2 < 4 && fieldAt (b 0) 24 4 < 256 && zeroAt (b 0) 28 2
    && fieldAt (b 0) 30 1 < 16 && zeroAt (b 0) 31 1 && zeroAt (b 0) 34 2 && zeroAt (b 0) 60 4
    && zeroAt (b 2) 59 1 && zeroAt (b 2) 66 2
    && fieldAt (b 3) 0 1 < 64 && zeroAt (b 3) 34 2
    && zeroAt (b 4) 1 1 && zeroAt (b 4) 30 2
    && fieldAt (b 5) 10 6 == 0
    && ((List.range 8).all fun d => zeroAt (b 5) (16 + 16 * d + 3) 1 && zeroAt (b 5) (16 + 16 * d + 12) 4)
    && fieldAt (b 7) 0 1 < 4 && fieldAt (b 7) 1 1 < 64 && zeroAt (b 7) 14 2
    && ((List.range 8).all fun k => zeroAt (b 8) (12 * k + 10) 2)
    && pd 0 && pd 64
    && zeroAt (b 10) 2 2 && zeroAt (b 10) 38 2
    && ((List.range 4).all fun p => zeroAt (b 10) (4 + 8 * p + 4) 4)
    && zeroAt (b 11) 13 3 && acctFlagsOk 4064 ((b 11).drop 16)
    && zeroAt (b 12) 1 1 && zeroAt (b 13) 3 1 && zeroAt (b 13) 6 2
    && zeroAt (b 15) 8 4 && zeroAt (b 16) 2 2

/-! ### Parsing -/

/-- Bit `i` of a number. -/
def bitOf (v i : Nat) : Bool := v.testBit i

/-- HEAD (Table 03-4). -/
def parseHead (b : List Byte) : MqHead :=
  { imageLen := fieldAt b 8 4, secVersion := fieldAt b 12 2, checked := bitOf (fieldAt b 14 2) 0
    rollbackCommit := bitOf (fieldAt b 14 2) 1, build := fieldAt b 16 4, eteth := fieldAt b 20 4
    lockMask := BitVec.ofNat 32 (fieldAt b 24 4), revokeMask := BitVec.ofNat 4 (fieldAt b 30 1)
    nvmSize := fieldAt b 32 1, nvmAddrMode := fieldAt b 33 1
    groupId := BitVec.ofNat 64 (fieldAt b 36 8), label := (b.drop 44).take 16 }

/-- PACK (Table 03-6). -/
def parsePack (b : List Byte) : MqPack :=
  { chem := fieldAt b 0 1, n := fieldAt b 1 1, cap := fieldAt b 2 2, vFloat := fieldAt b 4 2
    vRech := fieldAt b 6 2, vPre := fieldAt b 8 2, vCond := fieldAt b 10 2, vOv := fieldAt b 12 2
    vUv := fieldAt b 14 2, iCeil := fieldAt b 16 2, iDis := fieldAt b 18 2, iPre := fieldAt b 20 2
    iTerm := fieldAt b 22 2, tPre := fieldAt b 24 2, tBulk := fieldAt b 26 2
    ocv := (List.range 21).map fun k => fieldAt b (28 + 2 * k) 2, iCond := fieldAt b 70 2 }

/-- BAND (Tables 03-7 and 03-8). -/
def parseBand (b : List Byte) : MqBand :=
  { pack := (List.range 6).map fun k =>
      { upper := s16 (fieldAt b (8 * k) 2), chgPct := fieldAt b (8 * k + 2) 1
        disPct := fieldAt b (8 * k + 3) 1, derate := fieldAt b (8 * k + 4) 1
        floatRed := fieldAt b (8 * k + 5) 1, restOn := fieldAt b (8 * k + 6) 1
        restOff := fieldAt b (8 * k + 7) 1 }
    stage := (List.range 3).map fun k => s16 (fieldAt b (48 + 2 * k) 2)
    board := (List.range 2).map fun k => s16 (fieldAt b (54 + 2 * k) 2)
    hyst := fieldAt b 58 1, pause := (List.range 3).map fun k => fieldAt b (60 + 2 * k) 2 }

/-- PATH (Table 03-9). -/
def parsePath (b : List Byte) : MqPath :=
  let f := fieldAt b 1 1
  { prio := BitVec.ofNat 8 (fieldAt b 0 1), main := bitOf f 0, pda := bitOf f 1, pdb := bitOf f 2
    mainBidir := bitOf f 3, floor := fieldAt b 2 2, iLim := fieldAt b 4 2, vQL := fieldAt b 6 2
    vQH := fieldAt b 8 2, tQual := fieldAt b 10 2, tXB := fieldAt b 12 2
    shunts := (List.range 6).map fun k => fieldAt b (14 + 2 * k) 2, cSys := fieldAt b 26 2
    iExp := fieldAt b 28 2, iDorm := fieldAt b 30 2, tIdle := fieldAt b 32 2 }

/-- STAG (Table 03-10). -/
def parseStag (b : List Byte) : MqStag :=
  { mask := BitVec.ofNat 4 (fieldAt b 0 1), fsw := fieldAt b 2 2
    dead := (List.range 8).map fun k => fieldAt b (4 + 2 * k) 2, tMin := fieldAt b 20 2
    iOc := fieldAt b 22 2, induct := fieldAt b 24 2, tRef := fieldAt b 26 2, pCap := fieldAt b 28 2 }

/-- The 32-bit words of a byte run, `n` of them. -/
def words32 : Nat → List Byte → List (BitVec 32)
  | 0, _ => []
  | n + 1, bs => BitVec.ofNat 32 (leNat 4 bs) :: words32 n (bs.drop 4)

/-- LOOP (Tables 03-11 and 03-12). -/
def parseLoop (b : List Byte) : MqLoop :=
  let n := fieldAt b 0 2
  { n := n, tS := fieldAt b 2 2, worst := fieldAt b 4 2, iBs := fieldAt b 6 2, vBs := fieldAt b 8 2
    desc := (List.range 8).map fun d =>
      let o := 16 + 16 * d
      { kind := fieldAt b o 1, phase := fieldAt b (o + 1) 1, divider := fieldAt b (o + 2) 1
        entry := fieldAt b (o + 4) 2, worst := fieldAt b (o + 6) 2, hi := fieldAt b (o + 8) 2
        lo := fieldAt b (o + 10) 2 }
    code := words32 n (b.drop 144) }

/-- CELL (Table 03-13). -/
def parseCell (b : List Byte) : MqCell :=
  { count := fieldAt b 0 1, balance := bitOf (fieldAt b 1 1) 0, balStart := fieldAt b 2 2
    balStop := fieldAt b 4 2, balMin := fieldAt b 6 2, restTime := fieldAt b 8 2
    scan := fieldAt b 10 2, restI := fieldAt b 12 2, rSw := fieldAt b 14 2 }

/-- THRM (Table 03-14); the role of a sensor whose mask bit is clear is 0. -/
def parseThrm (b : List Byte) : MqThrm :=
  let dm := fieldAt b 0 1
  let nm := fieldAt b 1 1
  { diodeMask := BitVec.ofNat 2 dm, ntcMask := BitVec.ofNat 6 nm
    roles := ((List.range 2).map fun k => if bitOf dm k then fieldAt b (8 + k) 1 else 0)
      ++ ((List.range 6).map fun k => if bitOf nm k then fieldAt b (2 + k) 1 else 0)
    ideal := (List.range 2).map fun k => fieldAt b (10 + 2 * k) 2
    rate := (List.range 8).map fun k => fieldAt b (16 + 2 * k) 2
    grace := fieldAt b 32 2, lvlB1 := fieldAt b 34 1, lvlB2 := fieldAt b 35 1 }

/-- One LSWC entry (Table 03-15) at an offset. -/
def parseLsw (b : List Byte) (o : Nat) : MqLsw :=
  let f := fieldAt b (o + 1) 1
  { duty := fieldAt b o 1, present := bitOf f 0, inductive_ := bitOf f 1, fine := bitOf f 2
    onAtRun := bitOf f 3, iLim := fieldAt b (o + 2) 2, open_ := fieldAt b (o + 4) 2
    dTcc := fieldAt b (o + 6) 1, retries := fieldAt b (o + 7) 1, delay := fieldAt b (o + 8) 2 }

/-- `n` power data objects at an offset. -/
def parsePdos (b : List Byte) (o n : Nat) : List MqPdo :=
  (List.range n).map fun k => { v := fieldAt b (o + 4 * k) 2, i := fieldAt b (o + 4 * k + 2) 2 }

/-- One PDPO block (Table 03-16) at an offset. -/
def parsePd (b : List Byte) (o : Nat) : MqPd :=
  let f := fieldAt b o 1
  { present := bitOf f 0, sink := bitOf f 1, source := bitOf f 2, epr := bitOf f 3
    altMode := bitOf f 4, moisture := bitOf f 5, vconn := bitOf f 6
    spr := parsePdos b (o + 4) (min 7 (fieldAt b (o + 1) 1))
    eprPdo := parsePdos b (o + 32) (min 3 (fieldAt b (o + 2) 1))
    src := parsePdos b (o + 44) (min 4 (fieldAt b (o + 3) 1)), wet := fieldAt b (o + 60) 2 }

/-- PLBS (Table 03-17). -/
def parsePlbs (b : List Byte) : MqPlbs :=
  let m := fieldAt b 0 1
  let s := fieldAt b 36 2
  { ports := vmap (fun p (_ : Unit) =>
      { present := bitOf m p, expected := fieldAt b (4 + 8 * p) 1
        term := bitOf (fieldAt b (5 + 8 * p) 1) 0, failSafe := bitOf (fieldAt b (5 + 8 * p) 1) 1
        tRT := fieldAt b (6 + 8 * p) 2 }) (Vector.replicate 4 ())
    route := bitOf (fieldAt b 1 1) 0, superv := if s == 0xFFFF then none else some s }

/-- One VALT account entry (Table 03-19). -/
def parseAcct (b : List Byte) : MqAcct :=
  let f := fieldAt b 7 1
  { floor := fieldAt b 0 2, ceil := fieldAt b 2 2, burst := fieldAt b 4 2, weight := fieldAt b 6 1
    tier := f % 4, active := bitOf f 2 }

/-- The account entries from number `k` on, 8 bytes each. -/
def parseAccts : Nat → Nat → List Byte → List (Nat × MqAcct)
  | 0, _, _ => []
  | n + 1, k, bs => (k, parseAcct (bs.take 8)) :: parseAccts n (k + 1) (bs.drop 8)

/-- VALT (Table 03-18): its limits and the entries that are active. -/
def parseValt (b : List Byte) : MqValt :=
  { nCap := fieldAt b 0 2, reserve := fieldAt b 2 1, taper := fieldAt b 3 1, sFull := fieldAt b 4 2
    lease := fieldAt b 6 2, burstMax := fieldAt b 8 4, weight := fieldAt b 12 1
    accts := (parseAccts 4064 0 (b.drop 16)).filter fun p => p.2.active }

/-- FLTR (Table 03-22). -/
def parseFltr (b : List Byte) : MqFltr :=
  { probes := bitOf (fieldAt b 2 1) 0, limit := fieldAt b 3 1, tRot := fieldAt b 4 2
    tTw := fieldAt b 6 2
    entries := (List.range (fieldAt b 0 2)).map fun k =>
      { code := BitVec.ofNat 16 (fieldAt b (8 + 4 * k) 2), cls := fieldAt b (8 + 4 * k + 2) 1
        faultN := bitOf (fieldAt b (8 + 4 * k + 3) 1) 0 } }

/-- A Maquette from the bodies of its sections (chapter 03). -/
def parseBodies (secs : List (List Byte × List Byte)) : Maquette :=
  let b := fun k => ((secs[k]?).getD ([], [])).2
  { head := parseHead (b 0), pack := parsePack (b 1), band := parseBand (b 2), path := parsePath (b 3)
    stag := parseStag (b 4), loop := parseLoop (b 5), cell := parseCell (b 6), thrm := parseThrm (b 7)
    lsw := vmap (fun n (_ : Unit) => parseLsw (b 8) (12 * n)) (Vector.replicate 8 ())
    pd := vmap (fun n (_ : Unit) => parsePd (b 9) (64 * n)) (Vector.replicate 2 ())
    plbs := parsePlbs (b 10), valt := parseValt (b 11)
    twin := { expected := bitOf (fieldAt (b 12) 0 1) 0, refclk := bitOf (fieldAt (b 12) 0 1) 1
              ramp := fieldAt (b 12) 2 2, pSolo := fieldAt (b 12) 4 2, dqx := fieldAt (b 12) 6 2 }
    wdog := { period := fieldAt (b 13) 0 2, start := bitOf (fieldAt (b 13) 2 1) 0
              backstop := fieldAt (b 13) 4 2 }
    fltr := parseFltr (b 14)
    ownr := { logLen := fieldAt (b 15) 0 4, mask := BitVec.ofNat 16 (fieldAt (b 15) 4 2)
              tCp := fieldAt (b 15) 6 2 }
    sign := { slot := fieldAt (b 16) 0 1, algo := fieldAt (b 16) 1 1, key := ((b 16).drop 4).take 64
              signature := ((b 16).drop 68).take 64 } }

/-! ### Check 5: ranges -/

/-- Strictly rising. -/
def rising : List Int → Bool
  | a :: b :: r => decide (a < b) && rising (b :: r)
  | _ => true

/-- Never falling. -/
def nonFalling : List Nat → Bool
  | a :: b :: r => decide (a ≤ b) && nonFalling (b :: r)
  | _ => true

/-- The switching period P in counts (R213). -/
def MqStag.period (g : MqStag) : Nat := 12800000 / g.fsw

/-- A number in a range. -/
def within (lo v hi : Nat) : Bool := decide (lo ≤ v) && decide (v ≤ hi)

/-- The three codes of an input priority, first first (Table 03-9). -/
def prioCodes (p : BitVec 8) : List Nat :=
  [p.toNat % 4, p.toNat / 4 % 4, p.toNat / 16 % 4]

/-- Code `k` names an input that PATH declares present (Table 03-9). -/
def MqPath.hasCode (p : MqPath) (k : Nat) : Bool :=
  match k with
  | 1 => p.main | 2 => p.pda | 3 => p.pdb | _ => false

/-- A priority names present inputs only, none twice, with [7:6] at 0 (Table 03-9, R140). -/
def MqPath.prioOk (p : MqPath) (v : BitVec 8) : Bool :=
  let cs := (prioCodes v).filter fun k => k != 0
  decide (v.toNat < 64) && cs.all p.hasCode && decide (cs.Nodup)

/-- PACK ranges, R74, R165 (Table 03-6). -/
def MqPack.ok (p : MqPack) : Bool :=
  (p.chem == 1 || p.chem == 2) && within 8 p.n 16 && within 10 p.cap 6000
    && decide (p.vFloat ≤ (if p.chem = 1 then 4200 else 3650))
    && rising [(p.vUv : Int), p.vCond, p.vPre, p.vRech, p.vFloat, p.vOv]
    && decide (p.iCeil ≤ 4000) && decide (p.iDis ≤ 6000)
    && decide (p.iCond < p.iPre) && decide (p.iPre ≤ p.iCeil) && decide (p.iTerm < p.iPre)
    && nonFalling p.ocv && decide (p.ocv.headD 0 < p.ocv.getLastD 0)

/-- BAND ranges and R75 (Tables 03-7 and 03-8). -/
def MqBand.ok (b : MqBand) : Bool :=
  (b.pack.all fun e => decide (e.chgPct ≤ 100) && decide (e.disPct ≤ 100) && decide (e.derate ≤ 100))
    && decide ((b.pack.headD {}).chgPct = 0) && within 1 b.hyst 10
    && rising (b.pack.map MqBandEntry.upper) && rising b.stage && rising b.board

/-- PATH ranges (Table 03-9). -/
def MqPath.ok (p : MqPath) : Bool :=
  p.prioOk p.prio && within 24000 p.floor 56000 && decide (p.iLim ≤ 5000)
    && decide (18000 ≤ p.vQL) && decide (p.vQL < p.vQH) && decide (p.vQH ≤ 60000)

/-- STAG ranges, R76, R213 (Table 03-10). -/
def MqStag.ok (g : MqStag) (maskByte : Nat) : Bool :=
  decide (maskByte < 16) && within 100 g.fsw 500 && (g.dead.all fun d => within 128 d 2560)
    && within 256 g.tMin 5120 && decide (g.pCap ≤ 2500)
    && nonFalling [g.dead.getD 0 0, g.dead.getD 2 0, g.dead.getD 4 0, g.dead.getD 6 0]
    && nonFalling [g.dead.getD 1 0, g.dead.getD 3 0, g.dead.getD 5 0, g.dead.getD 7 0]

/-- LOOP ranges, R77, R240 (Tables 03-11 and 03-12). -/
def MqLoop.ok (l : MqLoop) (g : MqStag) (floor : Nat) : Bool :=
  decide (l.tS = g.period / 64) && decide (l.worst * 100 ≤ 85 * l.tS)
    && decide (l.iBs * 10 ≤ 8 * g.iOc) && within 24000 l.vBs floor
    && ((List.range 8).all fun d =>
      let e := l.desc.getD d {}
      decide (e.kind = if d < 4 then 1 else d - 2) && decide (e.phase = if d < 4 then d + 1 else 0)
        && within 1 e.divider 16 && decide (e.entry < l.n) && decide (e.lo ≤ e.hi)
        && decide (e.hi ≤ 1000))

/-- CELL ranges (Table 03-13). -/
def MqCell.ok (l : MqCell) (n : Nat) : Bool :=
  decide (l.count = n) && decide (l.balStop < l.balStart) && within 10 l.scan 1000
    && within 200 l.rSw 400

/-- THRM ranges and R78 (Table 03-14), with the role bytes as they stand. -/
def MqThrm.ok (t : MqThrm) (roleBytes : List Nat) : Bool :=
  t.ntcMask.getLsbD 0 && (roleBytes.all fun r => decide (r ≤ 4))
    && t.roles.contains 1 && t.roles.contains 2 && t.roles.contains 3
    && decide (t.lvlB1 ≤ 100) && decide (t.lvlB2 ≤ 100)

/-- LSWC ranges of channel index `k` and R79 (Table 03-15). -/
def MqLsw.ok (l : MqLsw) (k : Nat) : Bool :=
  decide (l.duty ≤ 5) && decide (l.iLim ≤ if k < 4 then 4000 else 1500)
    && (if l.fine then within 10 l.open_ 200 else within 200 l.open_ 40000)
    && within 20 l.dTcc 80 && decide (l.retries ≤ 15)
    && (l.inductive_ || (l.duty != 3 && l.duty != 4)) && (!l.fine || l.duty == 5)

/-- PDPO ranges of one port (Table 03-16), with the three count bytes. -/
def MqPd.ok (p : MqPd) (spr epr src : Nat) : Bool :=
  within 1 spr 7 && decide (epr ≤ 3) && decide (src ≤ 4)
    && (p.eprPdo.all fun e => e.v == 560 || e.v == 720 || e.v == 960)
    && (p.src.all fun e => (e.v == 100 || e.v == 180 || e.v == 300 || e.v == 400) && decide (e.i ≤ 500))
    && within 100 p.wet 2000

/-- VALT ranges and R349 (Tables 03-18 and 03-19) over all 4064 entries. -/
def MqValt.ok (v : MqValt) (all : List (Nat × MqAcct)) (nMax : Nat) : Bool :=
  decide (v.nCap ≤ 5000) && within 1 v.reserve 50 && within 1 v.taper 50
    && decide (50 ≤ v.lease) && decide (8 * ceilDiv nMax 10 ≤ v.lease) && within 1 v.weight 255
    && (all.all fun p => decide (p.2.floor ≤ p.2.ceil) && decide (p.2.ceil ≤ p.2.floor + 8191))
    && decide (sumBy (fun p => p.2.floor) v.accts ≤ v.nCap)

/-- FLTR ranges, R81, R287 (Table 03-22). -/
def MqFltr.ok (f : MqFltr) : Bool :=
  within 2 f.limit 15 && within 1 f.tRot 3600 && within 1 f.tTw 168
    && rising (f.entries.map fun e => (e.code.toNat : Int))
    && (f.entries.all fun e =>
      match rowClass e.code, FCls.ofCode e.cls with
      | some r, some k => decide (r.rank ≤ k.rank)
      | _, _ => false)

/-- OWNR ranges, R516, R520 (Table 03-23). -/
def MqOwnr.ok (o : MqOwnr) (size : Nat) : Bool :=
  decide (o.logLen % 4096 = 0) && decide (0x080000 + o.logLen ≤ 0x800000 * 2 ^ size)
    && (o.mask &&& 0x0F07 == 0x0F07) && (o.mask &&& 0xF0C0 == 0) && decide (300 ≤ o.tCp)

/-- Check 5 of Table 03-26 on the bodies of an image.  DESIGN CHOICE (log entry 29): a bit of a mask byte above the mask
that its row names ([7:4] of the STAG phase mask and of the PLBS port mask) is out of range, and a bit of a flags byte
that its row neither names nor marks reserved is not looked at. -/
def rangesOk (secs : List (List Byte × List Byte)) : Bool :=
  let b := fun k => ((secs[k]?).getD ([], [])).2
  let m := parseBodies secs
  let h := m.head
  let ports := m.plbs.ports.toList
  decide (h.secVersion ≤ 255) && decide (h.nvmSize ≤ 3)
    && (h.nvmAddrMode == 4 || (h.nvmAddrMode == 3 && decide (h.nvmSize < 2)))
    && m.pack.ok && m.band.ok && m.path.ok && m.stag.ok (fieldAt (b 4) 0 1)
    && m.loop.ok m.stag m.path.floor && m.cell.ok m.pack.n
    && m.thrm.ok ((List.range 8).map fun k => fieldAt (b 7) (2 + k) 1)
    && ((List.range 8).all fun k => (vget m.lsw k {}).ok k)
    && decide ((m.lsw.toList.filter fun l => l.duty == 1).length ≤ 1)
    && (vget m.pd 0 {}).ok (fieldAt (b 9) 1 1) (fieldAt (b 9) 2 1) (fieldAt (b 9) 3 1)
    && (vget m.pd 1 {}).ok (fieldAt (b 9) 65 1) (fieldAt (b 9) 66 1) (fieldAt (b 9) 67 1)
    && decide (fieldAt (b 10) 1 1 ≤ 1) && decide (fieldAt (b 10) 0 1 < 16)
    && (ports.all fun p => decide (p.expected ≤ 254) && within 2 p.tRT 8)
    && (match m.plbs.superv with | none => true | some a => decide (a ≤ 4063))
    && m.valt.ok (parseAccts 4064 0 ((b 11).drop 16))
      (maxL ((ports.filter fun p => p.present).map fun p => p.expected))
    && decide (m.twin.pSolo ≤ 2500) && within 1 m.wdog.period 100 && m.fltr.ok
    && m.ownr.ok h.nvmSize && decide (m.sign.slot ≤ 3) && decide (m.sign.algo = 1)

/-! ### The Boot checks -/

/-- A key slot authorises images whose public key hashes to it: programmed, not revoked, readable
(R84, R102). -/
def OtpG.slotHash (o : OtpG) (k : Nat) : Option (BitVec 256) :=
  if o.revoked.getLsbD k || o.slotEcc.getLsbD k then none else vget o.slots k none

/-- SHA-256 of octets (R82), its first octet the most significant (log entry 19). -/
def digestOf (bs : List Byte) : BitVec 256 := BitVec.ofNat 256 (sha256 bs)

/-- The signed region of an image: up to the byte before the SIGN section header, 144 bytes before its end (R82). -/
def signedRegion (bytes : List Byte) : List Byte := bytes.take (fieldAt bytes 20 4 - 144)

/-- The image digest (R82). -/
def imageDigest (bytes : List Byte) : BitVec 256 := digestOf (signedRegion bytes)

/-- The hash of the 64 public-key octets (R82). -/
def MqSign.keyHash (s : MqSign) : BitVec 256 := digestOf s.key

/-- The signature verifies over the signed region with the public key; numbers are big-endian (R71, R82, Table 03-24). -/
def MqSign.verifies (s : MqSign) (region : List Byte) : Bool :=
  ecdsaVerify (Sha.beNat (s.key.take 32) 0) (Sha.beNat (s.key.drop 32) 0) (Sha.beNat (s.signature.take 32) 0)
    (Sha.beNat (s.signature.drop 32) 0) (sha256 region)

/-- Checks 1–8 of Table 03-26 on an image, stopping at the first that fails: its number, 0 where all
pass, with the parsed image where check 3 passed. -/
def imageChecks (o : OtpG) (bytes : List Byte) : Nat × Option Maquette :=
  let b := bytes.drop 12
  if !(fieldAt b 0 4 == 0x31514D4B && fieldAt b 4 2 == 0x0100 && fieldAt b 6 2 == 0x4810) then (1, none)
  else
    let len := fieldAt b 8 4
    if 262144 < len then (2, none)
    else
      match splitSections sectionTable 0 (bytes.take len) with
      | none => (3, none)
      | some secs =>
        if (bytes.take len).length != len then (3, none)
        else if !reservedZero secs then (4, none)
        else if !rangesOk secs then (5, none)
        else
          let m := parseBodies secs
          if o.slotHash m.sign.slot != some m.sign.keyHash then (6, none)
          else if !m.sign.verifies (signedRegion bytes) then (7, none)
          else if m.head.secVersion < o.rollback then (8, none)
          else (0, some m)

/-- Checks 1–9 of Table 03-26 on a copy region (R86). -/
def bootCheck (o : OtpG) (jedec : BitVec 24) (bytes : List Byte) : Nat × Option Maquette :=
  match imageChecks o bytes with
  | (0, some m) => if jedec.toNat / 65536 = 0x17 + m.head.nvmSize then (0, some m) else (9, none)
  | r => r

/-- NVM address of a copy region (R67). -/
def copyBase (b : Bool) : Nat := if b then 0x040000 else 0

/-- The bytes of a copy region that a Boot read takes: up to the HEAD image length, no further than
the region (R67, R69). -/
def copyBytes (c : Core) (b : Bool) : List Byte :=
  let len := fieldAt (nvmBytes 24 (copyBase b) c.nvm.cells) 20 4
  nvmBytes (max 24 (min len 262144)) (copyBase b) c.nvm.cells

/-- OTP as Boot step 4 read it (R102). -/
def otpRead (c : Core) (r : BootRead) : OtpG := { c.otp with slotEcc := r.slotEcc, idEcc := r.idEcc }

/-- The results of copy A and of copy B, and the image that runs (R86, R87). -/
def bootSelect (c : Core) (r : BootRead) : Nat × Nat × Option (Maquette × Bool) :=
  let o := otpRead c r
  match bootCheck o r.jedec (copyBytes c false) with
  | (0, some m) => (0, 15, some (m, false))
  | (ra, _) =>
    match bootCheck o r.jedec (copyBytes c true) with
    | (0, some m) => (ra, 0, some (m, true))
    | (rb, _) => (ra, rb, none)

end Sys2Proof.Machine
end

