-- ==== Sys2Proof/Machine/Reactions.lean ====
section
/-! DEFINITION. What several families do: records and checkpoints on their way to the log, Chisel
Off and stage start, path pairs and the end of an export, fault latches with the action of their
class, and the entry into Reset. -/

namespace Sys2Proof.Machine

/-! ### Reading the configuration in force -/

/-- The running image; the default image outside Run and Dormant, where nothing consults it. -/
def Core.maq (c : Core) : Maquette := c.mq.getD {}

/-- The twin is attached (Table 17-6). -/
def Core.attached (c : Core) : Bool := c.twn.attached

/-- Phase index `n` is present: in the STAG mask and not isolated (R222); phase 1 alone in Safe Hold
(R231). -/
def phasePresent (c : Core) (n : Nat) : Bool :=
  if inSafeHold c then n == 0
  else c.maq.stag.mask.getLsbD n && !(vget c.gdr.ph n {}).iso

/-- The count k of present phases (R222). -/
def nPresent (c : Core) : Nat := ((List.range 4).filter (phasePresent c)).length

/-- Index of an input in the tables. -/
def inpIx : Inp → Nat
  | .main => 0 | .pda => 1 | .pdb => 2

/-- Input named by a priority code (Table 03-9). -/
def inpOfCode : Nat → Option Inp
  | 1 => some .main | 2 => some .pda | 3 => some .pdb | _ => none

/-- Index of a Type-C port. -/
def pdIx : PdId → Nat
  | .a => 0 | .b => 1

/-- The input a Type-C port feeds. -/
def pdInp : PdId → Inp
  | .a => .pda | .b => .pdb

/-- The input path of an exporting port. -/
def ExPort.inp : ExPort → Inp
  | .pda => .pda | .pdb => .pdb | .main => .main

/-- Internal vault account of an exporting port (R366). -/
def ExPort.acct : ExPort → Nat
  | .pda => 4064 | .pdb => 4065 | .main => 4066

/-- State of one input. -/
def PathG.inp (p : PathG) (i : Inp) : InputG := vget p.inputs (inpIx i) {}

/-- State of one input changed. -/
def PathG.updInp (p : PathG) (i : Inp) (f : InputG → InputG) : PathG :=
  { p with inputs := vupd p.inputs (inpIx i) f }

/-- Voltage on the connector side of an input, mV. -/
def inpVolt (m : MeasG) : Inp → Nat
  | .main => m.vmain | .pda => m.vbusa | .pdb => m.vbusb

/-- Current of an input's shunt, mA. -/
def inpCur (m : MeasG) : Inp → Int
  | .main => m.ism | .pda => m.isa | .pdb => m.isb

/-- State of one Type-C port. -/
def Core.port (c : Core) (p : PdId) : PdG := vget c.pd (pdIx p) {}

/-- One Type-C port changed. -/
def updPd (c : Core) (p : PdId) (f : PdG → PdG) : Core := { c with pd := vupd c.pd (pdIx p) f }

/-- One Plinth port changed. -/
def updPlb (c : Core) (p : Nat) (f : PlbPort → PlbPort) : Core :=
  { c with plb := { c.plb with p := vupd c.plb.p p f } }

/-- Record of an account (R341). -/
def VltG.acct (v : VltG) (a : Nat) : AcctRec := kget {} a v.recs

/-- Record of an account changed. -/
def updAcct (c : Core) (a : Nat) (f : AcctRec → AcctRec) : Core :=
  { c with vlt := { c.vlt with recs := kupd {} a f c.vlt.recs } }

/-- One column of a record. -/
def AcctRec.col (r : AcctRec) : Column → ColRec
  | .supply => r.sup | .ret => r.ret

/-- One column of a record set. -/
def AcctRec.setCol (r : AcctRec) (k : Column) (x : ColRec) : AcctRec :=
  match k with
  | .supply => { r with sup := x } | .ret => { r with ret := x }

/-- Totals of a column. -/
def VltG.tot (v : VltG) : Column → ColTot
  | .supply => v.sup | .ret => v.ret

/-- Totals of a column set. -/
def VltG.setTot (v : VltG) (k : Column) (x : ColTot) : VltG :=
  match k with
  | .supply => { v with sup := x } | .ret => { v with ret := x }

/-- Tokens of a record in transit (R339). -/
def ColRec.transit (x : ColRec) : Nat := x.raise + x.lower

/-- One column of an account's record replaced: its delivered and in-transit tokens enter G and T, and F
takes the difference, so F + G + T stays (R339, Table 13-2). -/
def VltG.book (v : VltG) (a : Nat) (k : Column) (x : ColRec) : VltG :=
  let r := v.acct a
  let y := r.col k
  let t := v.tot k
  let dg : Int := (x.level : Int) - y.level
  let dt : Int := (x.transit : Int) - y.transit
  let v := v.setTot k { t with g := t.g + dg, t := t.t + dt, f := t.f - dg - dt }
  { v with recs := kset a (r.setCol k x) v.recs }

/-- One column of an account's record changed. -/
def book (c : Core) (a : Nat) (k : Column) (f : ColRec → ColRec) : Core :=
  { c with vlt := c.vlt.book a k (f ((c.vlt.acct a).col k)) }

/-- The recorded accounts that a test selects, rising. -/
def acctsOf (c : Core) (sel : Nat → Bool) : List Nat := (c.vlt.recs.map Prod.fst).filter sel

/-- One column changed in every recorded account of a list. -/
def bookAll (c : Core) (as : List Nat) (k : Column) (f : ColRec → ColRec) : Core :=
  as.foldl (fun c a => book c a k f) c

/-- Port index of an account (R312). -/
def acctPort (a : Nat) : Nat := a / 1016

/-- Partner address of an account (R312). -/
def acctAddr (a : Nat) : Nat := a % 1016 / 4 + 1

/-- Account number of port index, address and account index (R312). -/
def acctNo (p addr i : Nat) : Nat := 1016 * p + 4 * (addr - 1) + i

/-- Maquette entry of an account. -/
def Core.acctCfg (c : Core) (a : Nat) : MqAcct := kget {} a c.maq.valt.accts

/-- Net charge of a ledger channel since its start, 2^-32 mC (R258). -/
def LdgChan.net (x : LdgChan) : Int := (x.inQ : Int) - x.outQ

/-- Integer part of an accumulator, mC (R260). -/
def toMc (q : Nat) : Nat := q / 4294967296

/-! ### Records (chapter 20) -/

/-- Code of a record type (Table 20-4). -/
def RecType.code : RecType → Nat
  | .marker => 0x00 | .checkpoint => 0x01 | .unaccounted => 0x02 | .closing => 0x03 | .event => 0x04
  | .usage => 0x05 | .order => 0x06 | .postMortem => 0x10 | .fault => 0x11 | .boot => 0x12
  | .patina => 0x13

/-- Plaintext length (Table 20-4). -/
def RecType.len : RecType → Nat
  | .marker => 0 | .checkpoint => 996 | .unaccounted => 64 | .closing => 996 | .event => 32
  | .usage => 64 | .order => 16 | .postMortem => 64 | .fault => 32 | .boot => 32 | .patina => 64

/-- OWNR mask bit (Table 20-4). -/
def RecType.bit : RecType → Nat
  | .marker => 0 | .checkpoint => 0 | .unaccounted => 1 | .closing => 2 | .event => 3 | .usage => 4
  | .order => 5 | .postMortem => 8 | .fault => 9 | .boot => 10 | .patina => 11

/-- Mandatory types (Table 20-4). -/
def RecType.mandatory : RecType → Bool
  | .event | .usage | .order => false
  | _ => true

/-- Key kind: 0 cleartext, 1 owner, 2 device (Tables 20-3 and 20-4). -/
def RecType.key : RecType → Nat
  | .marker => 0
  | .postMortem | .fault | .boot | .patina => 2
  | _ => 1

/-- Bytes a record takes in a sector: header, ciphertext and tag to the next 16-byte boundary
(R517); the marker has neither ciphertext nor tag (R518). -/
def RecType.size (t : RecType) : Nat :=
  match t with
  | .marker => 16
  | t => ceilDiv (32 + t.len) 16 * 16

/-- Bytes of the record queue in use (R521). -/
def queueUse (q : List QRec) : Nat := sumBy (fun r => r.type.size) q

/-- Owner records may be sealed and read (R102, R526, Table 20-7, R530). -/
def ownerEnabled (c : Core) : Bool :=
  !c.otp.retired && !c.otp.idEcc && !c.own.keyFault && !c.own.disabled

/-- A record queued (R284, R521): not in Safe Hold (R111), only a type the OWNR mask names, sealed
only while its key stands, and dropped and counted where the 16 KiB queue is full. -/
def queueRec (c : Core) (r : QRec) : Core :=
  let drop := { c with own := { c.own with dropped := satNat 16 (c.own.dropped + 1) } }
  if inSafeHold c then c
  else if !(r.type.mandatory || c.maq.ownr.mask.getLsbD r.type.bit) then c
  else if c.own.keyFault then drop
  else if r.type.key == 1 && !ownerEnabled c then drop
  else
    let busy := if c.nvm.op == some .logRecord then c.own.q.take 1 else []
    let rest := c.own.q.drop busy.length
    let q := busy ++ (if r.periodic then rest.filter fun x => !x.periodic else rest)
    if 16384 < queueUse q + r.type.size then drop
    else { c with own := { c.own with q := q ++ [r] } }

/-- The closing close of a handover has passed and the new epoch is not yet in force (R528). -/
def OwnG.afterClosing (o : OwnG) : Bool := decide (3 ≤ o.step) && decide (o.step ≤ 5)

/-- A record of a type whose plaintext layout the spec does not give: what it says, with free bytes (log entry 7). -/
def queueFree (c : Core) (t : RecType) (info : RecInfo := .none_) : Core :=
  let c := { c with free := c.free + 1 }
  queueRec c { type := t, body := (List.range t.len).map (Config.recordByte c.free)
               nextEpoch := c.own.afterClosing, info := info }

/-- The checkpoint values of the present close (R270). -/
def checkpointOf (c : Core) (seq : Nat) : Checkpoint :=
  let g := c.ldg
  { seq := seq, us := c.life.us, tick := c.life.tick
    acc := g.ch.toList.flatMap fun x => [toMc x.inQ, toMc x.outQ]
    ein := g.ein / 1000000000000, eout := g.eout / 1000000000000
    modeAcc := g.modeAcc.toList.map toMc
    pulse := c.gdr.sw.toList.flatMap fun s => s.cnt.toList
    qRef := c.cel.qRef, soc := c.cel.soc, coarse := c.cel.coarse, band := c.thm.packApp
    stack := c.cel.stack, avg := c.cel.stack * 10 / max 1 c.maq.pack.n }

/-- The plaintext of a checkpoint (Table 20-5). -/
def checkpointBytes (k : Checkpoint) : List Byte :=
  toLe 4 k.seq ++ toLe 4 k.us.toNat ++ toLe 8 k.tick.toNat
    ++ k.acc.flatMap (toLe 8) ++ toLe 8 k.ein ++ toLe 8 k.eout ++ k.modeAcc.flatMap (toLe 8)
    ++ k.pulse.flatMap (fun v => toLe 8 (BitVec.ofInt 64 v).toNat)
    ++ toLe 8 (BitVec.ofInt 64 k.qRef).toNat ++ toLe 2 k.soc ++ toLe 1 (b2n k.coarse + 2 * k.band)
    ++ toLe 1 0 ++ toLe 4 k.stack ++ toLe 2 k.avg ++ toLe 2 0

/-- A checkpoint of given values queued under the next sequence number (R270). -/
def queueValues (c : Core) (k : Checkpoint) (periodic nextEpoch : Bool) : Core :=
  let k := { k with seq := c.ldg.cpNext }
  queueRec { c with ldg := { c.ldg with cpNext := c.ldg.cpNext + 1 } }
    { type := .checkpoint, body := checkpointBytes k, cp := some k, periodic := periodic
      nextEpoch := nextEpoch }

/-- A checkpoint of a close queued at that close (R271). -/
def queueCheckpoint (c : Core) (periodic nextEpoch : Bool) : Core :=
  queueValues c (checkpointOf c 0) periodic nextEpoch

/-- A checkpoint outside a close: it holds the values of the last close tick (R270, log entry 130). -/
def queueLastClose (c : Core) : Core := queueValues c c.ldg.atClose false false

/-- Patina counters with the present accumulators, as far as the counters do not yet hold them (R275, R527). -/
def patinaNow (c : Core) : Patina :=
  { c.own.pat with
    ispIn := c.own.pat.ispIn + toMc (vget c.ldg.ch 4 {}).inQ - c.own.pat.ownIn
    ispOut := c.own.pat.ispOut + toMc (vget c.ldg.ch 4 {}).outQ - c.own.pat.ownOut
    dropped := c.own.pat.dropped + c.own.dropped, torn := c.own.pat.torn + c.own.torn }

/-- A Patina record queued (R527): it keeps the closed owners' totals, to which the accumulators are
added when they are shown. -/
def queuePatina (c : Core) : Core :=
  let c := { c with free := c.free + 1 }
  let p := patinaNow c
  queueRec c { type := .patina, body := (List.range 64).map (Config.recordByte c.free)
               nextEpoch := c.own.afterClosing
               pat := some { p with ispIn := c.own.pat.ispIn, ispOut := c.own.pat.ispOut } }

/-! ### The stage (chapter 08) -/

/-- A residue set to zero and its counts reported to the pulse ledger (R219). -/
def SwG.cancel (s : SwG) : SwG :=
  if s.residue = 0 then { s with age := 0 }
  else
    { s with
      residue := 0, age := 0
      cnt := vupd (vupd s.cnt 4 (· + s.residue)) 3 (· + 1) }

/-- A switch as Chisel Off leaves it: commands gone, residue cancelled, gate off (R233). -/
def SwG.chisel (s : SwG) : SwG :=
  { s.cancel with
    cmd := {}, next := {}, on := false, emitted := 0, readOn := false, opened := 0, refT := 0, refDue := false, refW := 0 }

/-- A phase whose gates may be on takes Chisel Off; one already in it goes on unchanged (R233). -/
def PhaseG.chisel (p : PhaseG) : PhaseG :=
  match p.st with
  | .off | .chisel1 | .chisel2 => p
  | _ => { p with st := .chisel1 }

/-- Phase `n` takes part in a Chisel Off that begins now. -/
def PhaseG.live (p : PhaseG) : Bool :=
  match p.st with
  | .off | .chisel1 | .chisel2 => false
  | _ => true

/-- A Chisel Off is in progress (Table 04-7). -/
def inChisel (g : GdrG) : Bool :=
  g.ph.toList.any fun p => p.st == .chisel1 || p.st == .chisel2

/-- Chisel Off of the phases `sel` with its cause and the phase that triggered it, 0 = all (R232,
R233, Table 21-7). -/
def chiselSel (g : GdrG) (sel : Nat → Bool) (cause ph : Nat) : GdrG :=
  { g with
    sw := vmap (fun e s => if sel (e / 4) && (vget g.ph (e / 4) {}).live then s.chisel else s) g.sw
    ph := vmap (fun n p => if sel n then p.chisel else p) g.ph
    cause := cause, causePh := ph, code := if inChisel g then g.code else 0 }

/-- Chisel Off of the whole stage, which is Stopped (R214, R232); in Safe Hold the converter has stopped with it. -/
def chiselAll (c : Core) (cause ph : Nat) : Core :=
  { c with
    gdr := { chiselSel c.gdr (fun _ => true) cause ph with st := .stopped, starting := false, parkAsk := false }
    path := if inSafeHold c then { c.path with shConv := false } else c.path }

/-- Chisel Off of one phase (R232). -/
def chiselPhase (c : Core) (n cause : Nat) : Core :=
  { c with gdr := chiselSel c.gdr (fun m => m == n) cause (n + 1) }

/-- The code of the fault that begins a Chisel Off is kept while it is in progress (R129); `before` is the stage ahead of
it. -/
def noteChisel (before : GdrG) (c : Core) (code : BitVec 16) : Core :=
  if inChisel c.gdr && !inChisel before then { c with gdr := { c.gdr with code := code } } else c

/-- The reaction of a class A fault still waits for its Probe's result (Table 11-4). -/
def classAOpen (c : Core) : Bool :=
  c.flt.l.toList.any fun e => match e with
    | some x => x.active && x.cls == .a && x.probe == .pending
    | none => false

/-- The active class A latches that a stage restart ends: those whose Probe passed (R289, R439). -/
def endTransientA (c : Core) : Core :=
  { c with flt := { c.flt with l := vmap (fun _ e => e.map fun x =>
      if x.cls == .a && x.probe == .transient then { x with active := false } else x) c.flt.l } }

/-- The stage may start: nothing holds it Stopped (R37, R58, R214, R291, Tables 11-4 and 17-2), and no phase is in
Chisel Off (R233). -/
def stageMayStart (c : Core) : Bool :=
  inRun c && !c.life.klnLost && !c.gdr.barred && !c.gdr.holdOff && !c.thm.tripped && !c.thm.tripLasting
    && !classAOpen c && c.twn.role != .fenced && c.twn.role != .detached && c.life.pwmLock
    && !inChisel c.gdr && decide (0 < nPresent c)

/-- The state registers of every descriptor cleared (R256). -/
def clearLoops (c : Core) : Core :=
  { c with loop := { c.loop with
      runs := [], d := vmap (fun _ d => { d with s := Vector.replicate 8 0 }) c.loop.d } }

/-- Loop state that every stage start clears: state registers, divider counts and the soft-start ramp (R242, R246,
R256). -/
def loopRestart (c : Core) : Core :=
  let c := clearLoops c
  { c with
    loop := { c.loop with d := vmap (fun _ d => { d with count := 0 }) c.loop.d }
    gdr := { c.gdr with soft := some 0 } }

/-- A Parked stage takes the direction that the path asks for (R214); a change clears the state registers of every
descriptor (R256). -/
def takeDirection (c : Core) : Core :=
  if c.gdr.st != .parked || c.gdr.reverse == c.gdr.dirWant then c
  else
    let c := clearLoops c
    { c with gdr := { c.gdr with reverse := c.gdr.dirWant } }

/-- The low-side gates G2n and G3n of the phases `sel` on for the precharge, or off after it (Table 08-4). -/
def lowSides (g : GdrG) (sel : Nat → Bool) (on : Bool) : GdrG :=
  { g with sw := vmap (fun e s => if sel (e / 4) && (e % 4 == 1 || e % 4 == 2) then { s with on := on } else s) g.sw }

/-- The precharge of the phases `sel` begins (R230, Table 08-4 step 1); a full one is followed by calibration. -/
def prechargeBegin (c : Core) (sel : Nat → Bool) (full : Bool) : Core :=
  let g := lowSides c.gdr sel true
  { c with gdr := { g with
      ph := vmap (fun n p => if sel n
        then { p with st := .precharge, preFail := false, cal := p.cal && !full } else p) g.ph } }

/-- Stage start: the precharge of every present phase begins (R230, Table 08-4), and the class A reactions whose Probe
passed have ended; a full start also restarts the loops and calibrates. -/
def stageStart (c : Core) (full : Bool) : Core :=
  if !stageMayStart c then c
  else
    let c := endTransientA (if full then loopRestart c else c)
    takeDirection (prechargeBegin
      { c with gdr := { c.gdr with st := .parked, starting := true, parkAsk := false } } (phasePresent c) full)

/-- A gate of a Parked stage: held off, its residue kept (R214). -/
def SwG.park (s : SwG) : SwG :=
  { s with cmd := {}, next := {}, on := false, emitted := 0, opened := 0, refT := 0, refDue := false, refW := 0 }

/-- A phase that is stopped in its calibration run waits for another (R214, R230). -/
def PhaseG.park (p : PhaseG) : PhaseG := if p.st = .calibrating then { p with st := .waitCal } else p

/-- The stage parked from the end of its period: every gate held off (R142, R214); during the precharge of a stage start
the park follows it. -/
def stagePark (c : Core) : Core :=
  if c.gdr.starting && c.gdr.st == .parked then
    { c with gdr := { c.gdr with parkAsk := true, parkTick := c.life.tick } }
  else
    match c.gdr.st with
    | .switching => { c with gdr := { c.gdr with
        st := .parked, parkTick := c.life.tick
        sw := vmap (fun _ s => s.park) c.gdr.sw, ph := vmap (fun _ p => p.park) c.gdr.ph } }
    | _ => c

/-- Current target of a phase that runs alone for its calibration, mA: at most 0.2 × I_OC (R229, log entry 35). -/
def calSetpoint (c : Core) (n : Nat) : Int := (min (Config.calTarget n) (c.maq.stag.iOc * 20) : Nat)

/-- The next phase that waits for its calibration run begins it; after the last, the phases switch (Table 08-4 steps 3
and 4). -/
def calibrateNext (c : Core) : Core :=
  if c.gdr.ph.toList.any fun p => p.st == .calibrating then c else
  match (List.range 4).find? fun n =>
      (vget c.gdr.ph n {}).st == .waitCal && !(vget c.gdr.ph n {}).cal with
  | some n => { c with gdr := { c.gdr with
      ph := vupd c.gdr.ph n fun p => { p with st := .calibrating, setpoint := calSetpoint c n } } }
  | none => { c with gdr := { c.gdr with
      ph := vmap (fun _ p => if p.st = .waitCal then { p with st := .run } else p) c.gdr.ph } }

/-- A parked stage set to work again: at once, after a precharge, or by a full start, as the park lasted (R230); a
Stopped stage takes a full start. -/
def stageUnpark (c : Core) : Core :=
  if c.gdr.starting then { c with gdr := { c.gdr with parkAsk := false } }
  else
    match c.gdr.st with
    | .switching => c
    | .stopped => stageStart c true
    | .parked =>
      let t := (c.life.tick - c.gdr.parkTick).toNat
      if 100000 < t then stageStart c true
      else if c.maq.stag.tRef < 10 * t then stageStart c false
      else if stageMayStart c then calibrateNext { c with gdr := { c.gdr with st := .switching } }
      else c

/-! ### Path pairs and the end of an export (chapter 05) -/

/-- The pair of an input commanded on or off; an on pair is marked for the close (R277). -/
def setPair (c : Core) (i : Inp) (b : Bool) : Core :=
  { c with path := c.path.updInp i fun x => { x with pair := b, pairInClose := b || x.pairInClose } }

/-- The pair of an input commanded off, to be confirmed off before another turns on (R16, R141). -/
def pairOff (c : Core) (i : Inp) : Core :=
  let on := (c.path.inp i).pair
  let c := setPair c i false
  if on then { c with path := { c.path with offWait := some i } } else c

/-- Every input pair commanded off. -/
def allPairsOff (c : Core) : Core :=
  { c with path := { c.path with inputs := vmap (fun _ x => { x with pair := false }) c.path.inputs } }

/-- The BATFET driven fully on, unless the undervoltage opening or a fault holds it off (R145, R149). -/
def batfetFull (c : Core) : Core :=
  if c.path.uvOpen || c.path.linFault || c.path.held then c
  else { c with path := { c.path with batfet := .full } }

/-- A message a Type-C port sends (R390 is the caller's): counted and listed. -/
def pdSend (c : Core) (p : PdId) (m : PdMsg) : Core :=
  updPd c p fun g => { g with
    sent := g.sent ++ [m], nSent := g.nSent + 1
    hrSent := (if m = .hardReset then satNat 8 (g.hrSent + 1) else g.hrSent)
    rejects := (if m = .reject then satNat 8 (g.rejects + 1) else g.rejects) }

/-- A Type-C port without contract, VCONN or mode (R377). -/
def PdG.clear (g : PdG) : PdG :=
  { g with
    contract := none, eff := none, want := none, trans := none, reqWait := none, waitBack := false, epr := false
    alt := false, altListed := false, offer := [], asked := 0, stWait := false, cableWait := false
    txWait := false, txQueue := [], caps := [], capsEpr := false, capsSent := false, backing := 0 }

/-- The tokens of an account's delivered level moved to in-transit (Table 13-2). -/
def ColRec.release (r : ColRec) : ColRec :=
  { r with level := 0, lower := r.lower + r.level }

/-- Plinth port 4 loses its medium: its partners are Absent at once and its frames are gone (R338). -/
def dropMedium (c : Core) : Core :=
  if !(c.maq.plbs.route && (vget c.plb.p 3 {}).medium) then c
  else
    let c := updPlb c 3 fun g => { g with
      medium := false, queue := [], await := none
      partners := kmap (fun _ x => { x with absent := x.enrolled || x.absent, enrolled := false }) g.partners }
    let as := acctsOf c fun a => decide (a < 4064) && acctPort a == 3
    bookAll (bookAll c as .supply ColRec.release) as .ret ColRec.release

/-- The vendor alternate mode left on a port (R395). -/
def altExit (c : Core) (p : PdId) : Core :=
  if (c.port p).alt then dropMedium (updPd c p fun g => { g with alt := false }) else c

/-- The port of an export, where it is a Type-C port. -/
def ExPort.pd : ExPort → Option PdId
  | .pda => some .a | .pdb => some .b | .main => none

/-- Account of a Type-C port's export (R366). -/
def pdAcct : PdId → Nat
  | .a => 4064 | .b => 4065

/-- A port's asked backing is no longer wanted (R404). -/
def dropAsk (c : Core) (p : PdId) : Core :=
  { c with vlt := { c.vlt with askBack := c.vlt.askBack.filter fun x => x.1 != pdAcct p } }

/-- A Type-C port after the end of an export that leaves its CC line trusted: Hard Reset, VBUS
discharge and the wait t_SR (R388). -/
def pdExportEnd (c : Core) (p : PdId) : Core :=
  let c := altExit (pdSend (dropAsk c p) p .hardReset) p
  updPd c p fun g => { g.clear with discharge := true, srWait := true, vconn := false }

/-- An export ended (R156): pair off, converter parked, backing in transit until the pair is off.
`hr`: the port also runs R388. -/
def exportEnd (c : Core) (hr : Bool) : Core :=
  match c.path.export_ with
  | none => { c with path := { c.path with exportWait := none } }
  | some e =>
    let c := stagePark (pairOff c e.port.inp)
    let c := book c e.port.acct .supply ColRec.release
    let c := { c with
      path := { c.path with export_ := none, exportWait := none, exOff := some e.port }
      life := { c.life with pathDriven := true } }
    match e.port.pd with
    | some p => if hr then pdExportEnd c p else c
    | none => c

/-! ### Bursts and SHED causes (R360) -/

/-- A Plinth port holds a running burst. -/
def portBursting (c : Core) (p : Nat) : Bool :=
  c.vlt.recs.any fun x => decide (x.1 < 4064) && acctPort x.1 == p && x.2.burst.isSome

/-- Remainder of an admitted burst at a grid tick, J (R358): the whole while its GRANT is undelivered. -/
def burstRest (now : Nat) (b : Burst) : Nat :=
  match b.windowEnd with
  | none => b.e
  | some w => Nat.min b.e (b.e * (w - now) / Nat.max 1 (b.d * 100))

/-- Remainder of an account's burst, J. -/
def AcctRec.rest (now : Nat) (r : AcctRec) : Nat := match r.burst with | some b => burstRest now b | none => 0

/-- Sum of the remainders of the admitted bursts at a grid tick, J (R358). -/
def committedAt (v : VltG) (now : Nat) : Nat := sumBy (fun r => r.2.rest now) v.recs

/-- The burst of an account set; E_committed moves with it (R341, R358). -/
def setBurst (c : Core) (a : Nat) (b : Option Burst) : Core :=
  let old := (c.vlt.acct a).rest c.vlt.commitAt
  let c := updAcct c a fun r => { r with burst := b }
  { c with vlt := { c.vlt with eCommit := c.vlt.eCommit + (c.vlt.acct a).rest c.vlt.commitAt - old } }

/-- Bursts of the accounts `sel` ended; the pause of the band begins (R359, R360). -/
def endBursts (c : Core) (sel : Nat → Bool) : Core :=
  { c with vlt := { c.vlt with
      eCommit := c.vlt.eCommit - sumBy (fun r => if sel r.1 then r.2.rest c.vlt.commitAt else 0) c.vlt.recs
      recs := kmap (fun a r =>
        if sel a && r.burst.isSome then { r with burst := none, pause := true } else r) c.vlt.recs } }

/-- Every burst ended and every port that held one shed by the vault (R360). -/
def shedBursts (c : Core) : Core :=
  let c := { c with plb := { c.plb with p := vmap (fun p g =>
      if portBursting c p then { g with byVault := true } else g) c.plb.p } }
  endBursts c fun _ => true

/-! ### Reset (chapter 04) -/

/-- The latched fault code of a capture (R127, R129): the code of the fault that began the Chisel Off in progress.
DESIGN CHOICE (log entry 113): with no Chisel Off in progress the item holds 0, whatever latches stand. -/
def chiselCode (c : Core) : BitVec 16 := if inChisel c.gdr then c.gdr.code else 0

/-- The post-mortem capture that a reset of the state `c` freezes, with its kind and the code of a class D fault (R127).
DESIGN CHOICE (log entry 114): the lost-capture count goes on from the capture before it. -/
def frozenCapture (c : Core) (kind : Nat) (code : BitVec 16) : Capture :=
  { valid := true, kind := kind, pc := c.wdg.shPc, last := c.wdg.shLast, missing := c.wdg.missing
    time := c.life.us, st := c.life.st, mode := c.life.mode, chisel := inChisel c.gdr
    code := if code = 0 then chiselCode c else code, lost := c.wdg.cap.lost }

/-- A held capture with one more counted as lost (R128). -/
def Capture.lose (x : Capture) : Capture := { x with lost := satNat 8 (x.lost + 1) }

/-- The capture after a capture-taking reset: frozen from the shadow, or counted as lost while one is held (R127,
R128). -/
def takeCapture (c : Core) (kind : Nat) (code : BitVec 16) : Capture :=
  if c.wdg.cap.valid then c.wdg.cap.lose else frozenCapture c kind code

/-- Kind code of a capture for a reset kind; 0 takes none (Tables 04-3 and 04-7). -/
def ResetKind.capture : ResetKind → Nat
  | .watchdog => 1 | .fault => 2 | .clock => 3 | _ => 0

/-- OTP after a burn was cut short: no fuse is cleared, and each burn stands somewhere between its
old and its new value (R85, R105, log entry 6). -/
def otpCut (c : Core) : OtpG :=
  let o := c.otp
  { o with
    rollback := (match o.burnTo with
      | some t => o.rollback + Config.burnReached c.free % (t - o.rollback + 1)
      | none => o.rollback)
    revoked := o.revoked ||| (o.burnRevoke &&& BitVec.ofNat 4 (Config.burnReached (c.free + 1)))
    slots := (match o.burnProv with
      | some (h, _, _) => if Config.burnDone c.free then vmap (fun i x => (vget h i none).or x) o.slots
          else o.slots
      | none => o.slots)
    wdtHw := o.wdtHw || (match o.burnProv with
      | some (_, w, _) => w && Config.burnDone c.free | none => false)
    testLock := o.testLock || (match o.burnProv with
      | some (_, _, t) => t && Config.burnDone c.free | none => false)
    provisioned := o.provisioned || (o.burnProv.isSome && Config.burnDone c.free)
    burnTo := none, burnRevoke := 0, burnProv := none, slotEcc := 0, idEcc := false }

/-- The NVM after its work was cut short: queued work is gone, and what the operation in progress
was writing is torn (R94, R96, R522, log entry 6). -/
def nvmCut (c : Core) : NvmG :=
  let n := { c.nvm with op := none, queue := [] }
  match c.nvm.op with
  | some (.program a d) =>
    { n with cells := nvmProgram n.cells a ((List.range d.length).map (Config.tornByte c.free)) }
  | some (.erase a) =>
    { n with cells := nvmProgram n.cells a ((List.range 4096).map (Config.tornByte c.free)) }
  | some .logRecord =>
    match c.own.head, c.own.q with
    | some h, r :: _ =>
      if Config.tornHeader c.free then
        { n with sectors := kupd {} h (fun s => { s with
            recs := s.recs ++ [{ type := r.type, start := c.own.start, num := c.own.num
                                 epoch := c.otp.epoch, key := r.type.key, torn := true, off := s.free }]
            free := s.free + r.type.size }) n.sectors }
      else n
    | _, _ => n
  | some (.openSector i) => { n with sectors := kupd {} i (fun s => { s with good := false, recs := [] }) n.sectors }
  | none => n

/-- Everything a reset clears, and everything it keeps: OTP, NVM and the KLN-retained state (R105, R127). -/
def cleared (c : Core) : Core :=
  { otp := otpCut c, nvm := nvmCut c, free := c.free + 2
    pins := { c.pins with attn := false, faultN := true }
    flt := { hist := c.flt.hist }
    thm := { trips := c.thm.trips, tripped := c.thm.tripped, tripSrc := c.thm.tripSrc }
    wdg := { cap := c.wdg.cap, shPc := c.wdg.shPc, shLast := c.wdg.shLast }
    life := { rstCause := c.life.rstCause, rstLatest := c.life.rstLatest, rstTook := c.life.rstTook
              mosc := c.life.mosc, powerOn := c.life.powerOn, tmode := c.life.tmode, loss := c.life.loss
              unmeas := c.life.unmeas, rstInst := c.life.rstInst } }

/-- Some phase on its way into Reset has not begun step 2 of its Chisel Off (R129). -/
def ResetOuts.step1 (o : ResetOuts) : Bool := o.ph.toList.any fun p => p == .chisel1

/-- The path gates and load switches turned off, once every phase has begun step 2 (R57, R129). -/
def ResetOuts.settle (o : ResetOuts) : ResetOuts :=
  if o.step1 then o else { o with pairs := Vector.replicate 3 false, batfet := .off, lsw := 0 }

/-- The outputs as Reset is entered from the state `c` (R57, R129, Table 04-3): from Run and Safe Hold the phases take
Chisel Off, one already in it goes on, and the path gates and load switches follow; by the clock-free path of R36 the path
gates open at once. -/
def outsAt (c : Core) (kind : ResetKind) : ResetOuts :=
  let o : ResetOuts :=
    { entry := true, cand := frozenCapture c 0 0, held := c.wdg.cap.valid, kind := kind.capture }
  match c.life.st with
  | .run | .safeHold =>
    let clock := kind == .clock
    { o with
      ph := vmap (fun _ p => (PhaseG.chisel p).st) c.gdr.ph
      pairs := vmap (fun _ (x : InputG) => x.pair && !clock) c.path.inputs
      batfet := if clock then .off else c.path.batfet
      lsw := BitVec.ofNat 8 (sumBy (fun n => b2n (vget c.lsw.ch n {}).on * 2 ^ n) (List.range 8)) }.settle
  | _ => o

/-- A capture-taking cause that arrives while Reset is being entered (R131): one capture, of the kind that comes first in
the order clock, fault, watchdog; a held one is counted as lost once. -/
def joinCapture (o : ResetOuts) (cap : Capture) (kind : Nat) (code : BitVec 16) : Capture :=
  if o.held then (if o.kind = 0 then cap.lose else cap)
  else
    let x := if o.kind = 0 then o.cand else cap
    { x with kind := max o.kind kind, code := if code = 0 then x.code else code }

/-- A further cause in Reset (R107, R131): its bit is set; one present at Reset entry takes part in the choice of the
capture kind.  DESIGN CHOICE (log entry 115): Reset is being entered until the gates are off or the hold ends. -/
def resetCause (c : Core) (kind : ResetKind) (bit : Nat) (code : BitVec 16) : Core :=
  let c := { c with life := { c.life with
    rstCause := putBit c.life.rstCause bit true, rstLatest := putBit c.life.rstLatest bit true
    loss := c.life.loss || kind != .order } }
  if !c.outs.entry || kind.capture = 0 then c
  else { c with
    wdg := { c.wdg with cap := joinCapture c.outs c.wdg.cap kind.capture code }
    life := { c.life with rstTook := !c.outs.held }
    outs := { c.outs with kind := max c.outs.kind kind.capture } }

/-- The entry into Reset (R57, R104–R107): the cause bit is set, a capture-taking kind takes the capture, the stage goes
through Chisel Off, and every output comes to stand as Table 02-5 gives. -/
def resetEntry (c : Core) (kind : ResetKind) (bit : Nat) (code : BitVec 16) : Core :=
  match c.life.st with
  | .off => c
  | .reset => resetCause c kind bit code
  | _ =>
    let took := kind.capture != 0 && !c.wdg.cap.valid
    let cap := if kind.capture = 0 then c.wdg.cap else takeCapture c kind.capture code
    let k := cleared c
    { k with
      wdg := { k.wdg with cap := cap }
      life := { k.life with
        st := .reset, rstKind := kind, rstTook := took, rstInst := 0, loss := c.life.loss || kind != .order
        rstCause := putBit c.life.rstCause bit true, rstLatest := putBit 0 bit true }
      outs := outsAt c kind }

/-! ### Faults (chapter 11) -/

/-- Class in force of an occurrence: the more severe of its row's class and its FLTR entry (R81). -/
def classInForce (c : Core) (code : BitVec 16) (row : FCls) : FCls :=
  match (c.maq.fltr.entries.find? fun e => e.code == code).bind fun e => FCls.ofCode e.cls with
  | some k => row.worse k
  | none => row

/-- Place of the latch of a code and instance. -/
def findLatch (l : List (Option Latch)) (code : BitVec 16) (inst : BitVec 8) : Option Nat :=
  l.findIdx? fun e => match e with
    | some x => x.code == code && x.inst == inst
    | none => false

/-- A latch of the code and instance stands with its reaction. -/
def faultActive (c : Core) (code : BitVec 16) (inst : BitVec 8) : Bool :=
  c.flt.l.toList.any fun e => match e with
    | some x => x.code == code && x.inst == inst && x.active
    | none => false

/-- A latch of the code stands with its reaction, whatever its instance. -/
def codeActive (c : Core) (code : BitVec 16) : Bool :=
  c.flt.l.toList.any fun e => match e with
    | some x => x.code == code && x.active
    | none => false

/-- Latches of a code and instance changed. -/
def updLatch (c : Core) (code : BitVec 16) (inst : BitVec 8) (f : Latch → Latch) : Core :=
  let g := fun (e : Option Latch) =>
    e.map fun x => if x.code == code && x.inst == inst then f x else x
  { c with flt := { c.flt with l := vmap (fun _ => g) c.flt.l } }

/-- The Active bit cleared by the recovery of a fault's row (R289). -/
def clearActive (c : Core) (code : BitVec 16) (inst : BitVec 8) : Core :=
  updLatch c code inst fun x => { x with active := false }

/-- Codes of the kinds that Table 11-2 gives as masked with a twin (R280, R283). -/
def maskable (code : BitVec 16) : Bool :=
  [0x0202, 0x0203, 0x0205, 0x0601, 0x0602, 0x0603, 0x0604, 0x0801, 0x0803, 0x0A01, 0x0A02, 0x0A03, 0x0A04, 0x0A05, 0x0A06,
    0x0A08, 0x0B02, 0x1301, 0x1302, 0x1401, 0x1601, 0x1602, 0x1801, 0x1802, 0x1803, 0x1804].contains code.toNat

/-- A fault of a code is masked as it is found: its kind is, and the twin is attached (R281, R283). -/
def maskedNow (c : Core) (code : BitVec 16) : Bool := maskable code && c.attached

/-- The latch taken or updated (R288). -/
def latchPut (c : Core) (code : BitVec 16) (inst : BitVec 8) (cls : FCls) (p : ProbeSt) :
    Core :=
  match findLatch c.flt.l.toList code inst with
  | some i =>
    { c with flt := { c.flt with l := vupd c.flt.l i fun e => match e with
        | some x => some { x with
            count := satNat 32 (x.count + 1), last := c.life.us, tick := c.life.imgNo + 1, new_ := true
            active := true, cls := x.cls.worse cls, masked := maskedNow c code
            probe := if p == .pending then (if x.probe == .lasting then .lasting else .pending) else p }
        | none => none } }
  | none =>
    match c.flt.l.toList.findIdx? Option.isNone with
    | some i =>
      { c with flt := { c.flt with
          fcount := c.flt.fcount + 1
          l := vupd c.flt.l i fun _ => some
            { code := code, inst := inst, cls := cls, first := c.life.us, last := c.life.us
              probe := p, masked := maskedNow c code, tick := c.life.imgNo + 1 } } }
    | none => { c with flt := { c.flt with ovfNew := true } }

/-- What the record of a latch says: its contents, and the occurrences that the record counts (R290). -/
def latchInfo (c : Core) (code : BitVec 16) (inst : BitVec 8) (n : Nat) : RecInfo :=
  match (findLatch c.flt.l.toList code inst).bind fun i => vget c.flt.l i none with
  | some x => .latch x n
  | none => .none_

/-- The record of a latch queued, or its occurrence added to the next one within 1 s (R290). -/
def latchRecord (c : Core) (code : BitVec 16) (inst : BitVec 8) : Core :=
  if c.flt.coal.any fun x => x.1 == code && x.2.1 == inst then
    { c with flt := { c.flt with coal := c.flt.coal.map fun x =>
        if x.1 == code && x.2.1 == inst then (x.1, x.2.1, x.2.2 + 1) else x } }
  else
    let c := queueFree c .fault (latchInfo c code inst 1)
    if inSafeHold c then c
    else { c with flt := { c.flt with coal := c.flt.coal ++ [(code, inst, 0)] } }

/-- The instance of the latch of a failed rotation item (Table 11-6, R298). -/
def rotLatch (item : Nat) (inst : BitVec 8) : BitVec 8 := if item = 5 then inst else BitVec.ofNat 8 item

/-- The rotation items that a latch 0x1805 of an instance stands for. -/
def rotItems (c : Core) (inst : BitVec 8) : List (Nat × BitVec 8) :=
  c.flt.rotBad.filter fun x => rotLatch x.1 x.2 == inst

/-- Index of the phase, input, load switch or port that an instance names: these count from 1, ledger channels and
sensors from 0 (Tables 21-6 and 21-9). -/
def instIx (inst : BitVec 8) : Nat := inst.toNat - 1

/-- The block that a rotation item tests, in the numbering of `probeBlock`. -/
def rotBlock (item : Nat) (inst : BitVec 8) : Nat :=
  match item with
  | 1 => 0x0A00 + inst.toNat
  | 2 => 0x0800 + inst.toNat
  | 3 => 0x0600 + inst.toNat
  | 5 => 0x1300 + instIx inst
  | 10 => 0x1200 + inst.toNat
  | k => 0x1800 + k

/-- What a Probe occupies: its converter, channel, phase, path pair or memory bank, else its own instance (R293, Table
11-5); a latent checker fault that of the block its item tested. -/
def probeBlock (c : Core) (code : BitVec 16) (inst : BitVec 8) : Nat :=
  match code.toNat / 256 with
  | 0x04 => if code == 0x0405 then 0x0804 else 0x0400 + code.toNat % 256
  | 0x08 => if code == 0x0804 then 0x0A00 + inst.toNat else 0x0800 + inst.toNat
  | 0x0C => 0x0C00
  | 0x10 => if code == 0x1005 then 0x0202 else 0x1000
  | 0x11 => if code == 0x1105 then 0x0203 else 0x1100
  | 0x13 => 0x1300
  | 0x14 => if code == 0x1405 then 0x0800 else 0x1400 + code.toNat % 256
  | 0x18 =>
    if code == 0x1804 then 0x1300 + instIx inst
    else match rotItems c inst with
      | x :: _ => if code == 0x1805 then rotBlock x.1 x.2 else 0x1880 + code.toNat % 256
      | [] => 0x1880 + code.toNat % 256
  | b => 256 * b + inst.toNat

/-- A Probe of the block runs. -/
def blockProbed (c : Core) (b : Nat) : Bool := c.flt.q.any fun x => x.running && probeBlock c x.code x.inst == b

/-- A targeted Probe queued: one already queued serves, and so does one that runs on the same block, whose result classifies
both (R302); a full queue leaves the error lasting with Probe state "not run" (R293, R296). -/
def queueProbe (c : Core) (code : BitVec 16) (inst : BitVec 8) : Core :=
  if c.flt.q.any fun x => x.code == code && x.inst == inst then c
  else if blockProbed c (probeBlock c code inst) then
    { c with flt := { c.flt with q := c.flt.q.map fun x =>
        if x.running && probeBlock c x.code x.inst == probeBlock c code inst && !x.also.contains (code, inst) then
          { x with also := x.also ++ [(code, inst)] }
        else x } }
  else if c.flt.q.length < 16 then
    { c with flt := { c.flt with q := c.flt.q ++ [{ code := code, inst := inst }] } }
  else updLatch { c with flt := { c.flt with noProbe := c.flt.noProbe ++ [(code, inst)] } } code inst
    fun x => { x with probe := .notRun }

/-- The action of a class (Table 11-4): class A stops the stage and ends every burst (R360), class D
resets; B and C act as the row's own text gives. -/
def classAction (c : Core) (cls : FCls) (cause ph : Nat) (code : BitVec 16) : Core :=
  match cls with
  | .a => shedBursts (exportEnd (noteChisel c.gdr (chiselAll c cause ph) code) true)
  | .d => resetEntry c .fault 4 code
  | _ => c

/-- A fault of chapter 05 or of the stage ends an export in progress (R156). -/
def endsExport (code : BitVec 16) : Bool := code.toNat / 256 == 0x02 || code.toNat / 256 == 0x0A

/-- What class C takes out of service in a row that FLTR has made more severe (R291, R292): a drop fault raised to class C
turns the BATFET off; the other rows of class B take their block out by their own text. -/
def raisedC (c : Core) (code : BitVec 16) (row cls : FCls) : Core :=
  if cls == .c && row == .b && code == 0x0206 then
    { c with path := { c.path with batfet := .off, linFault := true } }
  else c

/-- The instance of a class D fault is kept beside its code for the latch of the next Run entry (R284, R288). -/
def noteInst (before : Core) (c : Core) (inst : BitVec 8) : Core :=
  if c.life.st == .reset && before.life.st != .reset then { c with life := { c.life with rstInst := inst } } else c

/-- An export in progress ended by a fault; one that waits for a transfer goes on waiting (R156, R162). -/
def exportFault (c : Core) (code : BitVec 16) : Core :=
  if endsExport code && c.path.export_.isSome then exportEnd c true else c

/-- A fault found (R284): latched under its class in force, its record and its Probe queued, the
action of its class taken.  `p`: its Probe state at once (pending, or lasting where the row says so);
`probe`: a targeted Probe is due. -/
def faultWith (c : Core) (code : BitVec 16) (inst : BitVec 8) (row : FCls) (p : ProbeSt) (probe : Bool)
    (cause ph : Nat) : Core :=
  let cls := classInForce c code row
  let c := latchPut c code inst cls p
  let c := latchRecord c code inst
  let c := if probe then queueProbe c code inst else c
  noteInst c (exportFault (raisedC (classAction c cls cause ph code) code row cls) code) inst

/-- A fault of a row that is Probed (R293); class A reactions of rows outside the stage have cause 3. -/
def fault (c : Core) (code : BitVec 16) (inst : BitVec 8) : Core :=
  faultWith c code inst ((rowClass code).getD .b) .pending true 3 0

/-- A fault of a row whose Probe is not run and that is lasting at once (R212, R276, R421). -/
def faultLasting (c : Core) (code : BitVec 16) (inst : BitVec 8) : Core :=
  faultWith c code inst ((rowClass code).getD .b) .lasting false 3 0

/-- A condition that is recorded and is not a fault (R285, R398, R435). -/
def recordCondition (c : Core) : Core := queueFree c .fault

/-- An event of an attention cause: its bit is set at the merge tick (R508, Table 19-6). -/
def attend (c : Core) (bit : Nat) : Core :=
  { c with ord := { c.ord with attnNew := putBit c.ord.attnNew bit true } }

end Sys2Proof.Machine
end

