-- ==== Sys2Proof/Machine/Flags.lean ====
section
/-! DEFINITION. Status the controller shows of itself: the New and Active maps, FAULT_N and ATTN_N, the
guarantee, the port's error status, and the publication of an image. -/

namespace Sys2Proof.Machine

/-- Bit `e` of a 64-bit map of the latches that `f` selects. -/
def latchMap (c : Core) (f : Latch → Bool) : Nat :=
  (c.flt.l.toList.foldl (fun (p : Nat × Nat) e =>
    (p.1 * 2, p.2 + (match e with | some x => if f x then p.1 else 0 | none => 0))) (1, 0)).2

/-- A latch is New (R289). -/
def anyNew (c : Core) : Bool :=
  c.flt.l.toList.any fun e => match e with | some x => x.new_ | none => false

/-- The FLTR entry of a code asserts FAULT_N (R299). -/
def fltrFaultN (c : Core) (code : BitVec 16) : Bool :=
  c.maq.fltr.entries.any fun e => e.code == code && e.faultN

/-- A latch that asserts FAULT_N (R299). -/
def latchFaultN (c : Core) (x : Latch) : Bool :=
  (x.new_ || x.active) && (x.cls == .a || x.cls == .d || fltrFaultN c x.code)

/-- FAULT_N (R56, R299, Table 02-5); Dormant keeps the rule of Run. -/
def faultPin (c : Core) : Bool :=
  match c.life.st with
  | .off => false
  | .boot | .safeHold | .reset => true
  | .run | .dormant => c.flt.l.toList.any fun e => match e with | some x => latchFaultN c x | none => false

/-- ATTN_N (R300, R508, Table 02-5). -/
def attnPin (c : Core) : Bool :=
  match c.life.st with
  | .off | .boot | .reset => false
  | .safeHold => true
  | .run | .dormant => anyNew c || c.ord.attn != 0

/-- A fault awaits its classification (R282). -/
def awaitsProbe (c : Core) : Bool :=
  c.flt.l.toList.any fun e => match e with | some x => x.probe == .pending | none => false

/-- The watchdog meets the guarantee (R281). -/
def wdgGuards (c : Core) : Bool := c.wdg.run && decide (1 ≤ c.wdg.period) && decide (c.wdg.period ≤ 20)

/-- Causes that withdraw the guarantee, GUAR [1]–[9] at bits 0–8 (R281, Table 22-7). -/
def guardCauses (c : Core) : List Bool :=
  [!inRun c, !c.maq.head.checked, !c.maq.fltr.probes || decide (60 < c.maq.fltr.tRot), !wdgGuards c,
    !c.attached, c.flt.overdue != 0, decide (nPresent c = 1), (vget c.thm.s 2 {}).out, awaitsProbe c]

/-- The guarantee is in force: none of GUAR [1]–[4] and [9] stands (R281). -/
def guaranteed (c : Core) : Bool :=
  let l := guardCauses c
  !((l.take 4).any id || l.getD 8 false)

/-- A latch whose New and Active bits are both clear is freed (R289). -/
def freeLatches (c : Core) : Core :=
  let keep := fun (_ : Nat) (e : Option Latch) => e.bind fun x => if x.new_ || x.active then some x else none
  { c with flt := { c.flt with l := vmap keep c.flt.l } }

/-- An ACCSEL command carried out (R548, R557). -/
def selectAccount (c : Core) : Core :=
  match c.vlt.dselPend with
  | some n => { c with vlt := { c.vlt with
      dsel := (if n ≤ 4066 then n else c.vlt.dsel), dvalid := decide (n ≤ 4066), dselPend := none } }
  | none => c

/-- The pins and the status bits of a merge tick take their values (R499, R508, R541, R557, Table 19-6). -/
def settle (c : Core) : Core :=
  let c := selectAccount c
  let c := if c.life.st != c.life.seenSt || c.twn.role != c.life.seenRole then attend c 5 else c
  let c := { c with
    ord := { c.ord with attn := c.ord.attn ||| c.ord.attnNew, attnNew := 0 }
    flt := { c.flt with ovf := c.flt.ovf || c.flt.ovfNew, ovfNew := false }
    life := { c.life with seenSt := c.life.st, seenRole := c.twn.role, imgNo := c.life.imgNo + 1 } }
  { c with pins := { c.pins with attn := attnPin c, faultN := faultPin c } }

/-- The complete image of a merge tick published (R499, R544). -/
def publish (s : State) : State :=
  let c := settle s.core
  { s with core := c, img := c }

/-- What the port reports of a transaction: a status bit, its count in the SYS block and attention cause [2]
(R498, Tables 19-4, 19-6 and 21-2). -/
def portNote (s : State) (bit : Nat) : State :=
  let k := if bit = 5 then 4 else bit
  { s with
    win := { s.win with status := putBit s.win.status bit true }
    core := attend { s.core with ord := { s.core.ord with
      err := vupd s.core.ord.err k fun n => satNat 8 (n + 1) } } 2 }

/-- The port takes transactions of every kind (R506). -/
def portOpen (c : Core) : Bool := inRun c || inSafeHold c || c.life.st == .dormant

/-- A wake source of Dormant fires: the PLLs relock (R115); a watchdog wake alone keeps its mark (R117), but not one that
abandons the entry: the idle time is then counted again whatever the source (R132). -/
def wakeBegin (c : Core) (wd : Bool) : Core :=
  if c.life.st == .dormant then
    { c with life := { c.life with
      waking := true, wakeWd := wd && !c.life.entering && (c.life.wakeWd || !c.life.waking) } }
  else c

/-- A command that the lifecycle state refuses (R498, R547); the write that carried it wakes Dormant (Table 04-5). -/
def refusePort (s : State) : State :=
  if portOpen s.core then portNote { s with core := wakeBegin s.core false } 2 else s

end Sys2Proof.Machine
end

