-- ==== Sys2Proof/Machine/Limits.lean ====
section
/-! DEFINITION. Values the consumers form from state at their own rate: bands and throttle level
(chapter 16), cell values for decisions (chapter 07), charge targets and suspension (chapter 06),
floor, limits and discharge ceiling of the path (chapter 05), the stage cap (R224, R254). -/

namespace Sys2Proof.Machine

/-- Merged value of an order slot, by its place in Table 18-2 (R480). -/
def merged (c : Core) (k : Nat) : Nat := (vget c.ord.s k {}).merged.toNat

/-! ### Bands (R432–R436) -/

/-- Role of an external sensor (R427). -/
def sensorRole (c : Core) (i : Nat) : Nat := c.maq.thrm.roles.getD i 0

/-- Some sensor of a role has a standing rate-of-rise exceedance (R435). -/
def roleExceeds (c : Core) (r : Nat) : Bool :=
  (List.range 8).any fun i => sensorRole c i == r && (vget c.thm.s i {}).exceed

/-- Stage band with its fallbacks (R434, R435, R444). -/
def stageNow (c : Core) : Nat :=
  if c.thm.stageInv || c.thm.ntc1Out || roleExceeds c 2 then 3 else c.thm.stage

/-- Board band with its fallbacks (R434, R435). -/
def boardNow (c : Core) : Nat :=
  if c.thm.boardInv || roleExceeds c 3 then 2 else c.thm.board

/-- Pack band: the Lead's in an attached Follow (R441), 7 = invalid. -/
def packNow (c : Core) : Nat :=
  if c.attached && c.twn.role == .follow then c.thm.packLead.getD c.thm.pack else c.thm.pack

/-- The higher board band of the pair (R441); B2 while the twin's is not yet produced (R39). -/
def boardVault (c : Core) : Nat :=
  if c.attached && c.twn.role == .lead then max c.thm.boardApp (c.thm.twBoard.getD 2) else c.thm.boardApp

/-- A die sensor that is not excluded stands at or above T_DTH (R427, R436). -/
def dieHot (c : Core) : Bool :=
  (List.range 3).any fun k =>
    let s := vget c.thm.s (8 + k) {}
    !s.excl && !s.out && (match s.temp with | some t => decide (1400 ≤ t) | none => false)

/-- Throttle causes of R436: stage S3, die, pack P5, pack exceedance, NTC1 out, as a bit map. -/
def throttleCauses (c : Core) : BitVec 5 :=
  putBit (putBit (putBit (putBit (putBit 0 0 (stageNow c == 3)) 1 (dieHot c)) 2 (packNow c == 5))
    3 (roleExceeds c 1)) 4 c.thm.ntc1Out

/-- Level of a board band; none in B0 (R362). -/
def boardLevel (c : Core) (b : Nat) : Option Nat :=
  match b with
  | 0 => none | 1 => some c.maq.thrm.lvlB1 | _ => some c.maq.thrm.lvlB2

/-- The lower of two optional levels. -/
def minLevel (a b : Option Nat) : Option Nat :=
  match a, b with
  | none, x => x
  | x, none => x
  | some x, some y => some (min x y)

/-- The level the thermal block names (R436). -/
def levelNow (c : Core) : Option Nat :=
  let w := throttleCauses c
  minLevel (boardLevel c (boardNow c))
    (minLevel (if w.getLsbD 0 then some c.maq.thrm.lvlB1 else none)
      (if (w >>> 1) != 0 then some c.maq.thrm.lvlB2 else none))

/-- BAND entry of a pack band. -/
def bandEntry (c : Core) (b : Nat) : MqBandEntry := c.maq.band.pack.getD b {}

/-- The entry of an invalid band: P5's, and nothing above what the entry before it gave (R40, R434). -/
def MqBandEntry.within (e old : MqBandEntry) : MqBandEntry :=
  { e with
    chgPct := min e.chgPct old.chgPct, disPct := min e.disPct old.disPct, derate := min e.derate old.derate
    floatRed := max e.floatRed old.floatRed }

/-- BAND entry of the applied pack band; P5's where the band is invalid, which raises nothing (R40, R434). -/
def packEntry (c : Core) : MqBandEntry :=
  if c.thm.packApp = 7 then
    match c.thm.packLast with
    | some old => (bandEntry c 5).within old
    | none => bandEntry c 5
  else bandEntry c c.thm.packApp

/-! ### Cells (R204–R210, Table 07-5); cells count from index 0 -/

/-- Series count. -/
def nCells (c : Core) : Nat := c.maq.pack.n

/-- A reading of an inner wire pair: cell `i` lies beside an open inner wire. -/
def innerOpen (c : Core) (i : Nat) : Bool :=
  (decide (0 < i) && c.cel.wireOpen.getLsbD i)
    || (decide (i + 1 < nCells c) && c.cel.wireOpen.getLsbD (i + 1))

/-- Cell `i` is lost through an outer wire or its own channel. -/
def aloneLost (c : Core) (i : Nat) : Bool :=
  c.cel.chanFlt.getLsbD i || (i == 0 && c.cel.wireOpen.getLsbD 0)
    || (i + 1 == nCells c && c.cel.wireOpen.getLsbD (nCells c))

/-- Cell `i` is unknown: lost and not adopted from the twin (R205, R210). -/
def unknownCell (c : Core) (i : Nat) : Bool :=
  !c.cel.adopted.getLsbD i && (innerOpen c i || aloneLost c i)

/-- Cell `i` is held out of every decision while a disagreement waits for its classification (R207). -/
def heldCell (c : Core) (i : Nat) : Bool :=
  c.cel.disagree && c.cel.classify && (i == 0 || i + 1 == nCells c)

/-- Reading of cell `i` for decisions: its published value (R190). -/
def cellRead (c : Core) (i : Nat) : Nat := c.cel.cells.getD i 0

/-- The stack, mV: the cell sum while the stack path is isolated (Table 07-5). -/
def stackMv (c : Core) : Nat :=
  if c.cel.stackIso then sumBy id c.cel.cells / 10 else c.cel.stack

/-- Average cell, 0.1 mV (Table 06-3). -/
def avgCell (c : Core) : Nat := stackMv c * 10 / max 1 (nCells c)

/-- Middle of the substitute of an unknown cell, 0.1 mV (Table 07-5). -/
def cellMid (c : Core) (i : Nat) : Nat :=
  if aloneLost c i then
    stackMv c * 10 - sumBy (cellRead c) ((List.range (nCells c)).filter fun j => j != i && !aloneLost c j)
  else if decide (i + 1 < nCells c) && c.cel.wireOpen.getLsbD (i + 1) then
    (cellRead c i + cellRead c (i + 1)) / 2
  else (cellRead c (i - 1) + cellRead c i) / 2

/-- Value of cell `i` for undervoltage decisions (Table 07-5, R210).  DESIGN CHOICE (log entry 128): what the twin contributes
is its last single conversion, which is all that CELLS carries, beside the own published mean. -/
def uvCell (c : Core) (i : Nat) : Nat :=
  let v := if unknownCell c i then cellMid c i - 1000 else cellRead c i
  if c.cel.twDis.getLsbD i then min v (c.cel.twin.getD i v) else v

/-- Value of cell `i` for overvoltage decisions and charge limits (Table 07-5, R210; the twin's as in `uvCell`, log entry
128). -/
def ovCell (c : Core) (i : Nat) : Nat :=
  let v := if unknownCell c i then cellMid c i + 1000 else cellRead c i
  if c.cel.twDis.getLsbD i then max v (c.cel.twin.getD i v) else v

/-- The cells that enter decisions: all but the held ones. -/
def liveCells (c : Core) : List Nat := (List.range (nCells c)).filter fun i => !heldCell c i

/-- Highest cell, 0.1 mV. -/
def highCell (c : Core) : Nat := maxL ((liveCells c).map (ovCell c))

/-- Lowest cell, 0.1 mV. -/
def lowCell (c : Core) : Nat := minL ((liveCells c).map (uvCell c))

/-- Readings of the known cells that enter decisions (R207, Table 21-5). -/
def knownReads (c : Core) : List Nat := ((liveCells c).filter fun k => !unknownCell c k).map (cellRead c)

/-- Spread of the cells, 0.1 mV (R173, R197). -/
def cellSpread (c : Core) : Nat := maxL (knownReads c) - minL (knownReads c)

/-- Unknown cells, the pair of one inner open wire counting as one (R204, R205). -/
def unknownCount (c : Core) : Nat :=
  ((List.range (nCells c)).filter fun i => aloneLost c i && !c.cel.adopted.getLsbD i).length
    + ((List.range (nCells c)).filter fun i =>
        decide (0 < i) && c.cel.wireOpen.getLsbD i
          && !(c.cel.adopted.getLsbD i && c.cel.adopted.getLsbD (i - 1))
          && !(aloneLost c i && aloneLost c (i - 1))).length

/-- A cell monitor fault that suspends charging stands (Table 07-5). -/
def cellsSuspend (c : Core) : Bool :=
  decide (0 < unknownCount c) || c.cel.realCell != 0

/-- A cell fault code of a pack condition, or row 5, is active. -/
def twoUnknown (c : Core) : Bool := decide (2 ≤ unknownCount c)

/-- The condition of the BATFET undervoltage opening on the cells (R152, R208, Table 07-5 row 5): a known cell, or the
substitute of an unknown one, below the cell undervoltage limit; with two or more unknown the stack stands for those. -/
def undervoltage (c : Core) : Bool :=
  let low := fun i => decide (uvCell c i < c.maq.pack.vUv * 10)
  !c.cel.cells.isEmpty &&
    (if twoUnknown c then
      ((liveCells c).any fun i => !unknownCell c i && low i)
        || decide (stackMv c < nCells c * (c.maq.pack.vUv + 300))
    else (liveCells c).any low)

/-! ### Charging (chapter 06) -/

/-- Effective float, mV per cell (R166). -/
def vFltEff (c : Core) : Nat := min c.maq.pack.vFloat (merged c 4) - 10 * (packEntry c).floatRed

/-- Pack voltage target, mV (R166, R168). -/
def packVTgt (c : Core) : Nat := nCells c * vFltEff c - c.chg.corr

/-- Band current, mA (Table 06-2). -/
def bandCurrent (c : Core) : Nat :=
  if c.thm.packApp = 7 then 0 else c.maq.pack.iCeil * 10 * (packEntry c).chgPct / 100

/-- Current of the present phase, mA (Table 06-2). -/
def phaseCurrent (c : Core) : Nat :=
  match c.chg.phase with
  | .none | .term => 0
  | .cond => c.maq.pack.iCond * 10
  | .pre => c.maq.pack.iPre * 10
  | .bulk | .cv => bandCurrent c
  | .balTop => c.maq.pack.iTerm * 10

/-- A charger fault is latched (R177, Table 06-4). -/
def chargerFault (c : Core) : Bool :=
  c.chg.refused || c.chg.timerFault || c.chg.noWarm || c.chg.hardFault || codeActive c 0x0405

/-- What the twin's last heartbeat says of its charger, while attached (R185, R187, log entry 103): 0 a latched fault,
1 an overvoltage that ends every return, 2 its wish to refuse returns. -/
def twinCharger (c : Core) (k : Nat) : Bool :=
  c.attached && (match c.twn.last with | some h => h.charger.getLsbD k | none => false)

/-- A pack heater channel in service (R182): present, of duty 1, neither faulted nor isolated. -/
def heaterUsable (c : Core) : Bool :=
  (List.range 8).any fun n =>
    let l := vget c.maq.lsw n {}
    let x := vget c.lsw.ch n {}
    l.present && l.duty == 1 && !x.fault && !x.iso

/-- Fault tables of other chapters that suspend charging: cells, BATFET, Backstop, rate of rise; a pack in P0 without its
heater (R39, R182); the twin's faults (R187). -/
def otherSuspend (c : Core) : Bool :=
  cellsSuspend c || c.path.dropFault || (c.path.linFault && c.path.batfet != .full)
    || c.loop.latched || roleExceeds c 1 || (c.thm.packApp == 0 && !heaterUsable c)
    || (c.attached && c.twn.role == .follow && c.chg.leadSusp) || twinCharger c 0

/-- Suspension causes of R177, in its order, then those of other chapters (CHG block). -/
def suspendCauses (c : Core) : BitVec 7 :=
  putBit (putBit (putBit (putBit (putBit (putBit (putBit 0
    0 c.path.active.isNone)
    1 (c.thm.packApp != 7 && (packEntry c).chgPct == 0))
    2 c.thm.aboveP5)
    3 (c.thm.packApp == 7))
    4 (merged c 5 != 0))
    5 (chargerFault c))
    6 (otherSuspend c)

/-- Charging is suspended (R177). -/
def suspended (c : Core) : Bool := suspendCauses c != 0

/-- The charge current target of the pack, mA (R167). -/
def packCeiling (c : Core) : Nat := min (phaseCurrent c) (min (bandCurrent c) (merged c 3 * 10))

/-- Pack current target before the slew, mA (R167, R169, R177, R178). -/
def packTarget (c : Core) : Nat :=
  if suspended c || c.chg.restOff || c.chg.vLow then 0 else packCeiling c

/-! ### Path and stage -/

/-- A pair's figure as this controller takes it: the whole alone, falling to half along the share
ramp, and to nothing along the ramp of its own planned detach (R147, R457, R469, R587). -/
def pairShare (c : Core) (v : Nat) : Nat :=
  if c.twn.leaving == some true && c.twn.rampDown then v * c.twn.weight / 2000
  else v - v * c.twn.weight / 2000

/-- This controller's share of the charge current target, mA (R167). -/
def packShare (c : Core) : Nat := pairShare c (packCeiling c)

/-- A current as the Linear BATFET may carry it: drain-to-source voltage times current within P_LIN, 5 W (R150). -/
def linearCap (c : Core) (i : Nat) : Nat :=
  let vds := c.meas.vsys - c.meas.vpack
  if c.path.batfet == .linear && decide (0 < vds) then min i (5000000 / vds) else i

/-- MAIN setpoint by role (Table 17-2, R147). -/
def mainLimit (c : Core) (v : Nat) : Nat :=
  match c.twn.role with
  | .lead | .follow => pairShare c v
  | .pending => v / 2
  | .none | .fenced | .detached => 0

/-- Input current limit of an input, mA (R146, R147). -/
def inputLimit (c : Core) (i : Inp) : Nat :=
  match i with
  | .main => mainLimit c (merged c 2 * 10)
  | .pda => match (c.port .a).eff with | some k => k.i10 * 10 | none => 0
  | .pdb => match (c.port .b).eff with | some k => k.i10 * 10 | none => 0

/-- Discharge current ceiling of the present pack band, mA (Table 03-8). -/
def dischargeCeil (c : Core) : Nat := c.maq.pack.iDis * 10 * (packEntry c).disPct / 100

/-- The pack can hold SYS (R139). -/
def packCanHold (c : Core) : Bool :=
  c.path.batfet == .full && decide (c.path.floorSet ≤ c.meas.vpack)
    && decide (c.meas.iss < (dischargeCeil c : Int))

/-- Count of present phases that are not in Backstop (R254). -/
def nFree (c : Core) : Nat :=
  ((List.range 4).filter fun n => phasePresent c n && !(vget c.gdr.ph n {}).backstop).length

/-- Stage power cap, mW (R224, R254). -/
def stageCap (c : Core) : Nat :=
  let p := c.maq.stag.pCap * 1000 * nPresent c
    / max 1 ((List.range 4).filter fun n => c.maq.stag.mask.getLsbD n).length
  let p := if !c.attached then min p (c.maq.twin.pSolo * 1000) else p
  if c.loop.latched then min p (nFree c * 80 * c.maq.stag.iOc * c.meas.vsys / 1000) else p

/-- Dead time of a leg in the applied stage band, counts (R221). -/
def deadTime (c : Core) (outLeg : Bool) : Nat :=
  c.maq.stag.dead.getD (2 * c.thm.stageApp + b2n outLeg) 0

/-- The converter's SYS voltage setpoint while the BATFET is not fully on, mV (Table 05-3): the pack voltage target bounds
the tracking setpoint, where the phase has one (R170, Table 06-2). -/
def sysSetpoint (c : Core) : Nat :=
  match c.path.batfet with
  | .linear =>
    let track := c.meas.vpack + 150
    max c.path.floorSet (if c.chg.phase == .term || c.chg.phase == .none then track else min track c.chg.vTgt)
  | _ => c.path.floorSet

/-- Both twins' current-share correction that this controller adds, mA (R249). -/
def shareCorr (c : Core) : Int :=
  if c.attached && c.twn.role == .follow then c.twn.share * c.twn.weight / 1000000 else 0

/-! ### Twin link frames (R452, R453) -/

/-- A frame of types 2–9 sent to the twin while the link is trained, with the next sequence of its
type. -/
def twSend (c : Core) (type : Nat) (data : List Int) : Core :=
  if !c.twn.trained then c
  else
    let q := kget 0 type c.twn.txSeq
    { c with twn := { c.twn with
        sent := c.twn.sent ++ [{ type := type, seq := q, data := data }]
        log := ({ type := type, seq := q, data := data } :: c.twn.log).take 256
        txSeq := kset type (q + 1) c.twn.txSeq } }

end Sys2Proof.Machine
end

