-- ==== Sys2Proof/Machine/Loop.lean ====
section
/-! DEFINITION. The loop engine (chapter 09): the microcode instructions, selection of the demand,
the pattern logic, overruns and Backstop.  Amperes, volts and ratios inside the engine are Q16.16
words; conversions from mA and mV round toward minus infinity (log entry 8). -/

namespace Sys2Proof.Machine

/-- A number of thousandths as a Q16.16 word (log entry 8). -/
def q16 (v : Int) : Word := Word.ofSat (v * 65536 / 1000)

/-- A Q16.16 word in thousandths (log entry 8). -/
def ofQ16 (w : Word) : Int := w.toInt * 1000 / 65536

/-- A quotient as a Q16.16 word; by 0 it is free (log entry 6). -/
def q16Ratio (a b : Nat) : Word :=
  if b = 0 then Config.ratioByZero a else Word.ofSat ((a : Int) * 65536 / b)

/-! ### Inputs and sampling (R241–R243, Table 09-3) -/

/-- An export has its converter in reverse (R154). -/
def exporting (c : Core) : Bool := c.gdr.reverse

/-- Measured value, setpoint and feed-forward of a loop kind from the samples of an instant (Tables 09-3 and 09-4); none
where one of the samples it reads has not arrived (R256). -/
def loopMeas (c : Core) (d ph : Nat) (smp : LoopSample) : Option (Word × Word × Word) :=
  let ex := c.path.export_
  let rev := exporting c
  match d with
  | 4 =>
    if rev then do
      let v ← smp.vcin
      let i ← smp.port
      pure (q16 (v : Nat), q16 ((match ex with | some e => e.volt | none => 0) + c.loop.relief : Nat), q16 i)
    else do
      let v ← smp.vsys
      let i ← smp.iss
      pure (q16 (v : Nat), q16 (sysSetpoint c : Nat), q16 i)
  | 5 => do
    let i ← smp.port
    let vc ← smp.vcin
    let vs ← smp.vsys
    pure (q16 i, q16 ((if rev then (match ex with | some e => e.limit | none => 0) else c.path.iLim) : Nat), q16Ratio vc vs)
  | 6 => do
    let i ← smp.isp
    let l ← smp.iss
    pure (q16 i, q16 (c.chg.iShare : Nat), q16 l)
  | 7 => do
    let v ← smp.vstk
    let l ← smp.iss
    pure (q16 (v : Nat), q16 (c.chg.vTgt : Nat), q16 l)
  | _ => do
    let _ ← smp.vds
    let vc ← smp.vcin
    let vs ← smp.vsys
    let p := vget c.gdr.ph ph {}
    pure (q16 p.i, q16 p.setpoint, if rev then q16Ratio vc vs else q16Ratio vs vc)

/-- Sample interval of a descriptor as a Q16.16 word of seconds (Table 09-3, log entry 8). -/
def sampleInterval (c : Core) (d : Nat) : Word :=
  Word.ofSat ((c.maq.loop.desc.getD d {}).divider * c.maq.stag.period * 65536 / 12800000000)

/-- The inputs of a run, latched at its sample instant (R245, Table 09-3).  DESIGN CHOICE (log entry 117): the duty clamps
are given as the ratio that their per mille stand for. -/
def loopInputs (c : Core) (d ph : Nat) (smp : LoopSample) : Option (Vector Word 8) :=
  let e := c.maq.loop.desc.getD d {}
  (loopMeas c d ph smp).map fun (i0, i1, i5) =>
    #v[i0, i1, q16 c.loop.demand, q16 (e.hi : Nat), q16 (e.lo : Nat), i5, sampleInterval c d,
      q16 (1000 * nPresent c : Nat)]

/-- An outer loop is active (Table 09-4). -/
def loopActive (c : Core) (d : Nat) : Bool :=
  if exporting c then true
  else
    match d with
    | 4 => c.path.batfet != .full
    | 5 => true
    | _ => c.path.batfet == .full

/-- One descriptor changed. -/
def updDesc (c : Core) (d : Nat) (f : DescG → DescG) : Core :=
  { c with loop := { c.loop with d := vupd c.loop.d d f } }

/-! ### Selection (R246–R249) -/

/-- Relief term, mV: the larger of kinds 4 and 5, each within 0–5 % of the export voltage (R248). -/
def reliefNow (c : Core) : Nat :=
  match c.path.export_ with
  | some e =>
    let clamp := fun d => min (ofQ16 (vget c.loop.d d {}).out).toNat (e.volt * 5 / 100)
    if exporting c then max (clamp 6) (clamp 7) else 0
  | none => 0

/-- The demands that compete: the active loops' outputs, in mA with the name of each (R246, R248).  DESIGN CHOICE (log entry
118): a loop that has not yet run since it became active competes with the output of its last run, 0 before any. -/
def candidates (c : Core) : List (Int × Governor × Nat) :=
  let g := fun d => ofQ16 (vget c.loop.d d {}).sel
  (if loopActive c 4 then [(g 4, Governor.kind2, 4)] else [])
    ++ (if loopActive c 5 then [(g 5, .kind3, 5)] else [])
    ++ (if !exporting c && loopActive c 6 then [(g 6, .kind4, 6)] else [])
    ++ (if !exporting c && loopActive c 7 then [(g 7, .kind5, 7)] else [])

/-- The lowest of the candidates, the first where several are equal. -/
def lowest : List (Int × Governor × Nat) → Int × Governor × Nat → Int × Governor × Nat
  | [], b => b
  | x :: r, b => lowest r (if x.1 < b.1 then x else b)

/-- Full current of the present phases k × I_OC, mA. -/
def fullCurrent (c : Core) : Nat := nPresent c * c.maq.stag.iOc * 100

/-- The soft-start ramp one switching period on: 10 % of k × I_OC per ms, gone once it reaches k × I_OC (R246). -/
def softNext (c : Core) : Option Nat :=
  match c.gdr.soft with
  | none => none
  | some u =>
    let v := u + fullCurrent c * 100 * c.maq.stag.period / 12800000
    if fullCurrent c * 1000 ≤ v then none else some v

/-- Currents measured in the phases that are in Backstop, mA (R249). -/
def backstopCurrent (c : Core) : Int :=
  sumByI (fun n => if phasePresent c n && (vget c.gdr.ph n {}).backstop then (vget c.gdr.ph n {}).i else 0)
    (List.range 4)

/-- Setpoints of the phases: the demand, with the Follow's share correction, less what Backstop
phases carry, in equal parts; a phase in its calibration run takes the target of that run (R249, R229). -/
def phaseSetpoints (c : Core) : Core :=
  let each := (c.loop.demand + shareCorr c - backstopCurrent c) / (max 1 (nFree c) : Nat)
  { c with gdr := { c.gdr with ph := vmap (fun n p =>
      if p.st == .calibrating then { p with setpoint := calSetpoint c n }
      else if phasePresent c n && !p.backstop then { p with setpoint := each } else p) c.gdr.ph } }

/-- A phase loop that has not yet begun its run takes the setpoint that the outer loops have just formed (R243). -/
def refreshSetpoints (c : Core) : Core :=
  { c with loop := { c.loop with d := vmap (fun d g =>
      if c.loop.runs.any fun r => r.desc.val == d && decide (d < 4) && r.cycles == 0 then
        { g with i := vupd g.i 1 fun _ => q16 (vget c.gdr.ph d {}).setpoint } else g) c.loop.d } }

/-- Outer selection: the lowest of loops, cap and soft-start ramp, with the anti-windup clamp on
every loop that did not govern (R246, R247).  DESIGN CHOICE (log entry 119): the error is setpoint less measured value, and
while the cap or the ramp governs its sign stays as it stood (R250). -/
def outerSelect (c : Core) : Core :=
  let cap := (stageCap c * 1000 / max 1 c.meas.vsys : Nat)
  let soft := match c.gdr.soft with
    | some u => [((u / 1000 : Nat), Governor.soft, 8)] | none => ([] : List (Int × Governor × Nat))
  let best := lowest (candidates c ++ soft) ((cap : Int), .cap, 8)
  let lim := q16 (best.1 + fullCurrent c / 32)
  let g := vget c.loop.d best.2.2 {}
  let c := { c with
    loop := { c.loop with
      demand := best.1, gov := best.2.1, relief := reliefNow c
      errNeg := if best.2.2 < 8 then decide ((vget g.i 1 0).toInt < (vget g.i 0 0).toInt) else c.loop.errNeg
      d := vmap (fun d x => if 4 ≤ d && d != best.2.2 && lim.slt x.sel then { x with sel := lim } else x)
        c.loop.d } }
  refreshSetpoints (phaseSetpoints c)

/-! ### From ratio to switch commands (R250) -/

/-- The pattern that a ratio selects beside the standing one (R250). -/
def patternOf (rev : Bool) (old : Pattern) (m : Int) : Pattern :=
  let boost := if 1002 * 65536 ≤ m * 1000 then true
    else if m * 1000 ≤ 998 * 65536 then false
    else old == .fBoost || old == .rBoost
  match rev, boost with
  | false, false => .fBuck | false, true => .fBoost | true, false => .rBuck | true, true => .rBoost

/-- Pulse width of a ratio in counts before the duty clamps (Table 09-5). -/
def pulseWidth (pat : Pattern) (m : Int) (P : Nat) : Nat :=
  match pat with
  | .fBuck | .rBuck => (m * P / 65536).toNat
  | .fBoost | .rBoost => if m ≤ 0 then 0 else ((P : Int) * (m - 65536) / m).toNat

/-- Command kinds of G1n–G4n under a pattern (Table 09-5). -/
def patternKinds : Pattern → List CmdKind
  | .fBuck => [.pulse, .on, .off, .on]
  | .fBoost => [.on, .off, .pulse, .on]
  | .rBuck => [.on, .off, .on, .pulse]
  | .rBoost => [.on, .pulse, .off, .on]

/-- The four command words of a phase from the output of its current loop (R250). -/
def patternLogic (c : Core) (n : Nat) (m : Int) : Core :=
  let P := c.maq.stag.period
  let e := c.maq.loop.desc.getD n {}
  let pat := patternOf c.gdr.reverse (vget c.gdr.ph n {}).pat m
  let w := max (e.lo * P / 1000) (min (pulseWidth pat m P) (e.hi * P / 1000))
  let cmd := fun (j : Nat) =>
    let k := (patternKinds pat).getD j .off
    ({ kind := k, w := if k == .pulse then w else 0
       off := if k == .pulse then (P - w) / 2 else 0, neg := c.loop.errNeg } : SwCmd)
  { c with gdr := { c.gdr with
      ph := vupd c.gdr.ph n fun p => { p with pat := pat }
      sw := vmap (fun i s => if i / 4 == n then { s with next := cmd (i % 4) } else s) c.gdr.sw } }

/-! ### The end of a run -/

/-- An outer run still waits in the queue. -/
def outerWaits (l : LoopG) : Bool := l.runs.any fun r => decide (4 ≤ r.desc.val)

/-- The run at the head has ended; the selection follows the last outer loop of the sample. -/
def runEnded (c : Core) (d : Nat) : Core :=
  if 4 ≤ d && !outerWaits c.loop then outerSelect c else c

/-- A run ends with OUT (R244): output taken, consecutive count cleared, selection or pattern (R246, R250). -/
def loopOut (c : Core) (r : LoopRun) (v : Word) : Core :=
  let c := { c with loop := { c.loop with runs := c.loop.runs.tail } }
  let c := updDesc c r.desc.val fun g => { g with out := v, sel := v, consec := 0 }
  if 4 ≤ r.desc.val then runEnded c r.desc.val
  else if (vget c.gdr.ph r.desc.val {}).backstop then c
  else patternLogic c r.desc.val v.toInt

/-- The phases that an overrunning loop takes into Backstop (R252). -/
def backstopPhases (c : Core) (d n : Nat) : Bool := if d < 4 then n == d else phasePresent c n

/-- The fourth overrun in a row (R252, R254): Backstop is latched as a fault, an export ends, and the phases
enter it at their next period start. -/
def backstopDue (c : Core) (d : Nat) : Core :=
  let sel := fun n => backstopPhases c d n && !(vget c.gdr.ph n {}).backstop && !(vget c.gdr.ph n {}).bsNext
  if !((List.range 4).any sel) then c
  else
    let c := { c with
      gdr := { c.gdr with ph := vmap (fun n p => if sel n then { p with bsNext := true } else p) c.gdr.ph }
      loop := { c.loop with latched := true } }
    exportEnd (fault c 0x0B02 (BitVec.ofNat 8 (if d < 4 then d + 1 else 0))) true

/-- A phase enters Backstop at its period start (R236, R252): its residues are cancelled, it takes no more commands of the
engine, and the clamp on the active input's shunt holds the input limit that stands (R253). -/
def backstopEnter (c : Core) (n : Nat) : Core :=
  if !(vget c.gdr.ph n {}).bsNext then c
  else
    { c with
      gdr := { c.gdr with
        sw := vmap (fun i s => if i / 4 == n then { s.cancel with cmd := {}, next := {} } else s) c.gdr.sw
        ph := vupd c.gdr.ph n fun p => { p with
          backstop := true, bsNext := false
          bsClamp := c.path.iLim * (match c.path.active with
            | some i => c.maq.path.shunts.getD (inpIx i) 1 | none => 0) / 1000 } }
      loop := { c.loop with runs := c.loop.runs.filter fun r => r.desc.val != n } }

/-- A loop overruns (R251): it is stopped, its previous result is held, and the fourth in a row
is the fault of R252. -/
def overrun (c : Core) (d : Nat) : Core :=
  let k := min 4 ((vget c.loop.d d {}).consec + 1)
  let c := { c with loop := { c.loop with runs := c.loop.runs.filter fun r => r.desc.val != d } }
  let c := updDesc c d fun g => { g with ovr := satNat 24 (g.ovr + 1), consec := k }
  let c := if d < 4 then
      { c with gdr := { c.gdr with sw := vmap (fun i s =>
          if i / 4 == d then { s with next := { s.next with kind := .repeat_ } } else s) c.gdr.sw } }
    else runEnded c d
  if k = 4 then backstopDue c d else c

/-- A descriptor meets one of its sample instants: every divider-th one latches its inputs and puts a run in the queue
(R242, R245); a sample that has not arrived by then is an overrun (R256).  A loop that is not active keeps its state and
runs not (R246). -/
def loopSample (c : Core) (d : Fin 8) (ph : Nat) (smp : LoopSample) : Core :=
  let k := (vget c.loop.d d.val {}).count + 1
  if k < (c.maq.loop.desc.getD d.val {}).divider then updDesc c d.val fun g => { g with count := k }
  else
    let c := updDesc c d.val fun g => { g with count := 0 }
    if decide (4 ≤ d.val) && !loopActive c d.val then c
    else
      match loopInputs c d.val ph smp with
      | none => overrun c d.val
      | some ins =>
        let c := updDesc c d.val fun g => { g with i := ins }
        { c with loop := { c.loop with runs := c.loop.runs ++
            [{ desc := d, x := Vector.replicate 16 0, pc := (c.maq.loop.desc.getD d.val {}).entry
               cycles := 0 }] } }

/-- An illegal instruction or operand, or an uncorrectable error of the loop memory (R255): an overrun
of the running loop and an error of its memory. -/
def loopIllegal (c : Core) (d : Nat) : Core :=
  fault (overrun c d) 0x0B03 (BitVec.ofNat 8 d)

/-! ### Microcode (R244, R245) -/

/-- The value an operand code names in a run; none = illegal (R245). -/
def operand (c : Core) (r : LoopRun) (k : BitVec 6) : Option Word :=
  let n := k.toNat
  let g := vget c.loop.d r.desc.val {}
  if n < 16 then some (vget r.x n 0)
  else if n < 24 then some (vget g.s (n - 16) 0)
  else if n < 32 then some (vget g.i (n - 24) 0)
  else none

/-- Engine cycles counted in the present sample (Table 21-8). -/
def addCycles (c : Core) (cyc : Nat) : Core :=
  let total := c.loop.cyc + cyc
  { c with loop := { c.loop with cyc := total, cycMax := max c.loop.cycMax (satNat 16 total) } }

/-- A run has gone past the worst-case cycles of its descriptor (R251). -/
def pastWorst (c : Core) (r : LoopRun) (cycles : Nat) : Bool :=
  decide ((c.maq.loop.desc.getD r.desc.val {}).worst < cycles)

/-- A word has taken `cyc` engine cycles; the run goes on at `pc` (Table 09-2), or overruns where it has gone past its
worst case (R251). -/
def runStep (c : Core) (r : LoopRun) (pc cyc : Nat) : Core :=
  let c := addCycles c cyc
  if pastWorst c r (r.cycles + cyc) then overrun c r.desc.val
  else { c with loop := { c.loop with runs := { r with pc := pc, cycles := r.cycles + cyc } :: c.loop.runs.tail } }

/-- A result written to a destination; an input or an unused code is illegal (R245). -/
def writeDest (c : Core) (r : LoopRun) (k : BitVec 6) (v : Word) (cyc : Nat) : Core :=
  let n := k.toNat
  if n < 16 then runStep c { r with x := vupd r.x n fun _ => v } (r.pc + 1) cyc
  else if n < 24 then
    runStep (updDesc c r.desc.val fun g => { g with s := vupd g.s (n - 16) fun _ => v }) r (r.pc + 1) cyc
  else loopIllegal c r.desc.val

/-- A field of a microcode word (R244). -/
def wordField (w : Word) (lo n : Nat) : BitVec n := w.extractLsb' lo n

/-- A microcode word with this opcode, destination and operand A (R244). -/
def isWord (op : BitVec 6) (dest a : BitVec 6) (w : Word) : Bool :=
  wordField w 26 6 == op && wordField w 20 6 == dest && wordField w 14 6 == a

/-- A microcode word with this opcode, destination and both operands (R244). -/
def isWord2 (op : BitVec 6) (dest a b : BitVec 6) (w : Word) : Bool := isWord op dest a w && wordField w 8 6 == b

/-- The word that the run at the head executes next satisfies `p` (R244). -/
def fetches (c : Core) (r : LoopRun) (p : Word → Bool) : Bool :=
  match c.maq.loop.code[r.pc]? with
  | some w => p w
  | none => false

/-- An instruction runs in the run at the head, where the word at its place is that instruction; else nothing
happens (log entry 4). -/
def inHead (c : Core) (p : Word → Bool) (f : LoopRun → Core) : Core :=
  match c.loop.runs with
  | r :: _ => if fetches c r p then f r else c
  | [] => c

/-- An instruction of one operand. -/
def unary (c : Core) (p : Word → Bool) (dest a : BitVec 6) (cyc : Nat) (f : Word → Word) : Core :=
  inHead c p fun r =>
    match operand c r a with
    | some x => writeDest c r dest (f x) cyc
    | none => loopIllegal c r.desc.val

/-- An instruction of two operands. -/
def binary (c : Core) (op : BitVec 6) (dest a b : BitVec 6) (cyc : Nat) (f : Word → Word → Word) : Core :=
  inHead c (isWord2 op dest a b) fun r =>
    match operand c r a, operand c r b with
    | some x, some y => writeDest c r dest (f x y) cyc
    | _, _ => loopIllegal c r.desc.val

/-- LDI: dest = immediate × 2^8 (R244). -/
def execLdi (dest : BitVec 6) (imm : BitVec 16) (s : State) : Res :=
  onRun s fun c =>
    inHead c (fun w => wordField w 26 6 == 1 && wordField w 20 6 == dest && wordField w 0 16 == imm) fun r =>
      writeDest c r dest (Word.ofSat (imm.toInt * 256)) 1

/-- LDC: dest = the microcode word at the index; a word beyond the loaded microcode is free (log entry 6). -/
def execLdc (dest : BitVec 6) (idx : BitVec 12) (s : State) : Res :=
  onRun s fun c =>
    inHead c (fun w => wordField w 26 6 == 2 && wordField w 20 6 == dest && wordField w 0 12 == idx) fun r =>
      writeDest c r dest ((c.maq.loop.code[idx.toNat]?).getD (Config.pastMicrocode idx.toNat)) 2

/-- MOV: dest = A (R244). -/
def execMov (dest a : BitVec 6) (s : State) : Res :=
  onRun s fun c => unary c (isWord 3 dest a) dest a 1 id

/-- ADD: dest = A + B, saturating (R244). -/
def execAdd (dest a b : BitVec 6) (s : State) : Res :=
  onRun s fun c => binary c 4 dest a b 1 fun x y => Word.ofSat (x.toInt + y.toInt)

/-- SUB: dest = A − B, saturating (R244). -/
def execSub (dest a b : BitVec 6) (s : State) : Res :=
  onRun s fun c => binary c 5 dest a b 1 fun x y => Word.ofSat (x.toInt - y.toInt)

/-- MUL: dest = A × B with 16 fraction bits, saturating; the bits below are dropped (R244, log entry 8). -/
def execMul (dest a b : BitVec 6) (s : State) : Res :=
  onRun s fun c => binary c 6 dest a b 2 fun x y => Word.ofSat (x.toInt * y.toInt / 65536)

/-- MIN: dest = the smaller of A and B (R244). -/
def execMin (dest a b : BitVec 6) (s : State) : Res :=
  onRun s fun c => binary c 7 dest a b 1 fun x y => if y.slt x then y else x

/-- MAX: dest = the larger of A and B (R244). -/
def execMax (dest a b : BitVec 6) (s : State) : Res :=
  onRun s fun c => binary c 8 dest a b 1 fun x y => if x.slt y then y else x

/-- ASR: dest = A shifted right arithmetically by the count (R244). -/
def execAsr (dest a : BitVec 6) (count : BitVec 6) (s : State) : Res :=
  onRun s fun c => unary c (isWord2 9 dest a count) dest a 1 fun x => x.sshiftRight count.toNat

/-- BLT: where A < B, the next `skip` words are skipped; a skip beyond the microcode is illegal (R244, R245).  DESIGN CHOICE
(log entry 120): a skip count of 0, which Table 09-2 does not give, skips none. -/
def execBlt (a b : BitVec 6) (skip : BitVec 8) (s : State) : Res :=
  onRun s fun c =>
    inHead c (fun w => wordField w 26 6 == 10 && wordField w 14 6 == a && wordField w 8 6 == b
        && wordField w 0 8 == skip) fun r =>
      match operand c r a, operand c r b with
      | some x, some y =>
        let pc := r.pc + 1 + (if x.slt y then skip.toNat else 0)
        if x.slt y && decide (c.maq.loop.n ≤ pc) then loopIllegal c r.desc.val
        else runStep c r pc 1
      | _, _ => loopIllegal c r.desc.val

/-- OUT: output = A and the loop ends (R244). -/
def execOut (a : BitVec 6) (s : State) : Res :=
  onRun s fun c => inHead c (fun w => wordField w 26 6 == 11 && wordField w 14 6 == a) fun r =>
    match operand c r a with
    | some x =>
      if pastWorst c r (r.cycles + 1) then runStep c r r.pc 1 else loopOut (addCycles c 1) r x
    | none => loopIllegal c r.desc.val

/-- ILLEGAL_INSTRUCTION (R255). -/
def execIllegalInstruction (s : State) : Res :=
  onRun s fun c =>
    match c.loop.runs with
    | r :: _ => loopIllegal c r.desc.val
    | [] => c

/-- LOOP_OVERRUN (R251): the run in progress of this descriptor has taken more engine cycles, stalls among them, than its
worst case, and is stopped. -/
def execLoopOverrun (d : Fin 8) (cycles : Nat) (s : State) : Res :=
  onRun s fun c =>
    match c.loop.runs with
    | r :: _ => if r.desc == d && pastWorst c r (max r.cycles cycles) then overrun c d.val else c
    | [] => c

end Sys2Proof.Machine
end

