-- ==== Sys2Proof/Machine/Stage.lean ====
section
/-! DEFINITION. The converter stage and its gate drive (chapter 08): the switch commands of a period,
residues, interlock, refresh, overcurrent, Chisel Off, stage start and calibration. -/

namespace Sys2Proof.Machine

/-- The first present phase that runs: the outer loops sample at its sample instant (R242). -/
def firstPhase (c : Core) : Option Nat :=
  (List.range 4).find? fun n => phasePresent c n && (vget c.gdr.ph n {}).st == .run

/-- The command a switch carries out in the period that begins: kind 0b11 repeats the previous one
(Table 08-3). -/
def SwG.resolve (s : SwG) : SwCmd := if s.next.kind = .repeat_ then s.cmd else s.next

/-- What a switch knows of the period that begins: its command, an interlock conflict, the pulse threshold, the period,
the first count at which it may turn on, and whether its partner's sensed gate stands on. -/
structure PeriodIn where
  cmd : SwCmd
  conflict : Bool
  thr : Nat
  per : Nat
  free : Nat
  blocked : Bool

/-- Where a pulse begins: at its offset, or later where the partner must first be off for the dead
time (R220). -/
def PeriodIn.begin (p : PeriodIn) (off : Nat) : Nat := max off p.free

/-- Counts of a pulse that can be emitted from its beginning to the period end: none while the partner's sensed gate
stands above V_IL (R218, R220). -/
def PeriodIn.room (p : PeriodIn) (off : Nat) : Nat := if p.blocked then 0 else p.per - p.begin off

/-- The residue merge of R217: what is emitted, and the residue, with the part that interlock or the
period end prevented returned to it (R218). -/
def residueMerge (p : PeriodIn) (residue : Int) : Bool × Nat × Int :=
  if p.cmd.kind = .pulse then
    let total := residue + p.cmd.w
    if (p.thr : Int) ≤ total then
      let out := if p.thr ≤ p.cmd.w then total.toNat else p.thr
      let e := min out (p.room p.cmd.off)
      (true, e, total - e)
    else (false, 0, total)
  else (false, 0, residue)

/-- A residue held within one period each way (R218). -/
def residueClamp (P : Nat) (v : Int) : Int := max (-(P : Int)) (min v P)

/-- The residue's age limit (R219): a forced pulse where the sign stands, a cancellation otherwise. -/
def residueAge (p : PeriodIn) (s : SwG) : SwG :=
  if s.age < 64 then s
  else if 0 < s.residue && p.cmd.neg == s.sign then
    let e := min p.thr (p.room s.lastOff)
    { s with
      residue := s.residue - e, age := 0, emitted := e
      cnt := vupd (vupd s.cnt 1 (· + (e : Int))) 2 (· + 1) }
  else s.cancel

/-- One switch at the start of its period (R215–R219). -/
def SwG.period (p : PeriodIn) (s : SwG) : SwG :=
  let (hit, e, r) := residueMerge p s.residue
  let r' := residueClamp p.per r
  let w : Int := if p.cmd.kind = .pulse then p.cmd.w else 0
  residueAge p { s with
    cmd := p.cmd
    on := p.cmd.kind == .on && !p.conflict && !p.blocked
    lastOff := if p.cmd.kind = .pulse then p.cmd.off else s.lastOff
    residue := r', emitted := e, refW := 0
    sign := if s.residue = 0 && r' != 0 then p.cmd.neg else s.sign
    age := if hit then 0 else if r' != 0 then s.age + 1 else s.age
    cnt := vupd (vupd (vupd s.cnt 0 (· + w)) 1 (· + (e : Int))) 5 (· + (r - r')) }

/-- The other switch of a leg (Table 08-2). -/
def partner (e : Nat) : Nat := if e % 2 = 0 then e + 1 else e - 1

/-- Pulse threshold of a leg: the larger of t_MIN and the dead time in force (R217). -/
def pulseThreshold (c : Core) (outLeg : Bool) : Nat :=
  max c.maq.stag.tMin (if outLeg then c.gdr.dtOut else c.gdr.dtIn)

/-- Both switches of a leg are commanded on-kind (R220). -/
def conflictAt (c : Core) (e : Nat) : Bool :=
  (vget c.gdr.sw e {}).resolve.kind == .on && (vget c.gdr.sw (partner e) {}).resolve.kind == .on

/-- What a leg knows of the period that begins: pulse threshold, period, dead time, refresh interval in counts, and an
interlock conflict. -/
structure LegIn where
  thr : Nat
  per : Nat
  dead : Nat
  tRef : Nat
  conflict : Bool

/-- First count at which a switch may turn on beside its partner `q`: a dead time into the period where the partner
stands on, a dead time past a pulse of the partner that comes first (R220). -/
def LegIn.free (k : LegIn) (s q : SwG) (first : Bool) : Nat :=
  let a := s.resolve
  let b := q.resolve
  match b.kind with
  | .on => k.dead
  | .pulse =>
    if (a.kind == .on || b.off < a.off || (b.off == a.off && !first)) && decide ((k.thr : Int) ≤ q.residue + b.w) then
      b.off + max k.thr b.w + k.dead
    else if q.on then k.dead else 0
  | _ => if q.on then k.dead else 0

/-- The period of one switch of a leg, not before the count `from_` (R217–R220). -/
def LegIn.run (k : LegIn) (s q : SwG) (first : Bool) (from_ : Nat) : SwG :=
  s.period { cmd := s.resolve, conflict := k.conflict, thr := k.thr, per := k.per
             free := max from_ (k.free s q first), blocked := decide (0 < q.stuckOn) }

/-- An on-kind switch opens for its partner's pulse and refresh, a dead time on each side (R220, R225). -/
def LegIn.opening (k : LegIn) (s q : SwG) : Nat :=
  if !s.on then 0
  else (if 0 < q.emitted then q.emitted + 2 * k.dead else 0) + (if 0 < q.refW then q.refW + 2 * k.dead else 0)

/-- The two switches of a leg at the start of their period, high side first: residue merge, interlock and dead time, then
the bootstrap refresh (R216).  A due refresh is served by a low-side pulse of the threshold width, or inserted at the
period start with a dead time on both sides, and a pulse that then does not fit is shifted (R225, R235).  The third
result counts an inserted refresh (R226). -/
def legPeriod (k : LegIn) (hi lo : SwG) : SwG × SwG × Nat :=
  let h := k.run hi lo true 0
  let l := k.run lo hi false 0
  let serves := decide (k.thr ≤ l.emitted) || l.on
  let due := hi.refDue || decide (k.tRef ≤ hi.refT)
  let r : SwG × SwG × Nat :=
    if serves then ({ h with refT := 0, refDue := false }, l, 0)
    else if due && !k.conflict && !decide (0 < hi.stuckOn) then
      let t := 2 * k.dead + k.thr
      ({ k.run hi lo true t with refT := 0, refDue := false }, { k.run lo hi false t with refW := k.thr }, 1)
    else ({ h with refT := if h.on then hi.refT + k.per else 0, refDue := due }, l, 0)
  ({ r.1 with opened := k.opening r.1 r.2.1 }, { r.2.1 with opened := k.opening r.2.1 r.1 }, r.2.2)

/-- The leg of a switch in its period: place of its high side and of its low side (Table 08-2). -/
def legOf (c : Core) (n : Nat) (out : Bool) : SwG × SwG × Nat :=
  let hi := 4 * n + (if out then 3 else 0)
  legPeriod
    { thr := pulseThreshold c out, per := c.maq.stag.period, dead := if out then c.gdr.dtOut else c.gdr.dtIn
      tRef := c.maq.stag.tRef * 12800, conflict := conflictAt c hi }
    (vget c.gdr.sw hi {}) (vget c.gdr.sw (partner hi) {})

/-- The switches of a phase at the start of its period (R215, R216, R220, R225). -/
def phasePeriod (c : Core) (n : Nat) : Core :=
  let i := legOf c n false
  let o := legOf c n true
  let f := fun (e : Nat) (s : SwG) =>
    if e = 4 * n then i.1 else if e = 4 * n + 1 then i.2.1
    else if e = 4 * n + 2 then o.2.1 else if e = 4 * n + 3 then o.1 else s
  { c with gdr := { c.gdr with
      sw := vmap f c.gdr.sw
      refresh := satNat 32 (c.gdr.refresh + i.2.2 + o.2.2)
      ilConf := c.gdr.ilConf + b2n (conflictAt c (4 * n)) + b2n (conflictAt c (4 * n + 2)) } }

/-- The double buffer swap of the dead times and the interleave (R34, R221, R222). -/
def bufferSwap (c : Core) (first : Bool) : Core :=
  { c with gdr := { c.gdr with
      dtIn := deadTime c false, dtOut := deadTime c true
      step := if first then c.maq.stag.period / max 1 (nPresent c) else c.gdr.step
      reOffset := c.gdr.reOffset && !first } }

/-- Runs left over at the start of the period in which their results are due overrun (R251). -/
def leftovers (c : Core) (ds : List Nat) : Core :=
  ds.foldl (fun c d => if c.loop.runs.any fun r => r.desc.val == d then overrun c d else c) c

/-- The outer loops meet a sample instant of the first present phase (R242); one that is not active only counts, and one
whose samples have not all arrived overruns (R256). -/
def sampleOuter (c : Core) (n : Fin 4) (smp : LoopSample) : Core :=
  [4, 5, 6, 7].foldl (fun c (d : Fin 8) => loopSample c d n.val smp) c

/-- The phase's own loop samples its current, or misses it (R241, R251, R256). -/
def samplePhase (c : Core) (n : Fin 4) (smp : LoopSample) : Core :=
  if (vget c.gdr.ph n.val {}).backstop then c else loopSample c ⟨n.val, by omega⟩ n.val smp

/-- Place of the pulsing switch of a pattern in its phase (Table 09-5). -/
def pulsing : Pattern → Nat
  | .fBuck => 0 | .fBoost => 2 | .rBuck => 3 | .rBoost => 1

/-- Place of the switch whose VDS gives the current of phase `n` (R241): the through switch G4n forward and G1n in reverse
at the sample instant; where the pulse leaves less than 2 × (t_DT + t_LEB) of off time, the pulsing switch at the period
midpoint. -/
def senseSwitch (c : Core) (n : Nat) : Nat :=
  let k := pulsing (vget c.gdr.ph n {}).pat
  let w := (vget c.gdr.sw (4 * n + k) {}).cmd.w
  let dead := if 2 ≤ k then c.gdr.dtOut else c.gdr.dtIn
  if c.maq.stag.period - w < 2 * (dead + 512) then k else if c.gdr.reverse then 0 else 3

/-- The current of a phase, mA: the sensed VDS over the on-resistance estimate of its switch (R227); without an estimate
it is free (log entry 6). -/
def senseCurrent (c : Core) (n : Nat) (uv : Int) : Int :=
  match (vget c.gdr.sw (4 * n + senseSwitch c n) {}).rEst with
  | 0 => (Config.ratioByZero uv).toInt
  | r => uv * 1000 / (r : Int)

/-- The analog control of a phase in Backstop (R253): the error amplifier compares VSYS with its setpoint and holds the peak
at 0 while VSYS stands at or above it; below, its gain is free (log entry 116). -/
def errorAmp (vsys vBs : Nat) : Nat := if vBs ≤ vsys then 0 else Config.errorAmp (vBs - vsys)

/-- The peak current of a phase in Backstop, mA (R253): forward only, the smaller of I_BS and the error amplifier's
output. -/
def backstopPeak (c : Core) : Nat :=
  if c.gdr.reverse then 0 else min (c.maq.loop.iBs * 100) (errorAmp c.meas.vsys c.maq.loop.vBs)

/-- The peak current of a phase formed anew where it is in Backstop (R253). -/
def backstopRun (c : Core) (n : Nat) : Core :=
  { c with gdr := { c.gdr with ph := vupd c.gdr.ph n fun p =>
      if p.backstop then { p with peak := backstopPeak c } else p } }

/-- Samples of an instant that have not arrived; those of the outer loops belong to the first present phase (R256). -/
def missing (first : Bool) (smp : LoopSample) : Nat :=
  b2n smp.vds.isNone + b2n smp.vsys.isNone + b2n smp.vcin.isNone
    + (if first then b2n smp.vstk.isNone + b2n smp.port.isNone + b2n smp.iss.isNone + b2n smp.isp.isNone else 0)

/-- The phase current of the sample (R241); a phase that runs, and ISC at the first present phase, enter the sums of R229. -/
def latchCurrent (c : Core) (n : Nat) (first : Bool) (smp : LoopSample) : Core :=
  let c := { c with loop := { c.loop with adcMiss := satNat 32 (c.loop.adcMiss + missing first smp) } }
  match smp.vds with
  | some uv =>
    let i := senseCurrent c n uv
    let run := (vget c.gdr.ph n {}).st == .run
    { c with gdr := { c.gdr with
        ph := vupd c.gdr.ph n fun p => { p with i := i }
        sumPh := if run then c.gdr.sumPh + i else c.gdr.sumPh
        sumIsc := if first then c.gdr.sumIsc + c.meas.isc else c.gdr.sumIsc } }
  | none => c

/-- A period of a phase begins (R215, R241, R252); at the first present phase the outer loops sample and the soft-start ramp
goes on (R242, R246). -/
def periodStart (c : Core) (n : Fin 4) (smp : LoopSample) : Core :=
  let first := firstPhase c == some n.val
  let c := bufferSwap c first
  let c := backstopEnter c n.val
  let c := leftovers c (n.val :: if first then [4, 5, 6, 7] else [])
  let c := if first then { c with loop := { c.loop with cyc := 0 } } else c
  let c := latchCurrent (backstopRun (phasePeriod c n.val) n.val) n.val first smp
  let c := if first then sampleOuter { c with gdr := { c.gdr with soft := softNext c } } n smp else c
  samplePhase c n smp

/-- SWITCHING_PERIOD_START (R215, R241): a phase that runs or calibrates; in Safe Hold phase 1 runs under its analog control
(R231, R257). -/
def execSwitchingPeriodStart (ph : Fin 4) (smp : LoopSample) (s : State) : Res :=
  onCore s fun c =>
    if inSafeHold c then
      if c.path.shConv && ph == 0 then
        { c with gdr := { c.gdr with ph := vupd c.gdr.ph 0 fun p =>
          { p with peak := errorAmp c.meas.vsys c.path.shSoft } } }
      else c
    else
      let st := (vget c.gdr.ph ph.val {}).st
      if inRun c && c.gdr.st == .switching && (st == .run || st == .calibrating) then periodStart c ph smp else c

/-- A class C fault of a phase: Chisel Off of the phase, latched and Probed (Table 08-6). -/
def phaseFault (c : Core) (code : BitVec 16) (n : Nat) : Core :=
  fault (noteChisel c.gdr (chiselPhase c n 4) code) code (BitVec.ofNat 8 (n + 1))

/-- BOOTSTRAP_REFRESH (R225): the bootstrap of a high-side gate asks for a refresh in the next period of its phase; one
that still stands below V_BUV after a refresh is a fault of the phase.  A phase in Chisel Off takes none (R233). -/
def execBootstrapRefresh (sw : Fin 16) (bootOkAfter : Bool) (s : State) : Res :=
  onCoreIf s (fun c => c.gdr.st == .switching && (sw.val % 4 == 0 || sw.val % 4 == 3)
      && ((vget c.gdr.ph (sw.val / 4) {}).st == .run || (vget c.gdr.ph (sw.val / 4) {}).st == .calibrating)) fun c =>
    let n := sw.val / 4
    let bit := if sw.val % 4 = 0 then n else 4 + n
    let c := { c with gdr := { c.gdr with
      boot := putBit c.gdr.boot bit bootOkAfter, sw := vupd c.gdr.sw sw.val fun x => { x with refDue := true } } }
    if bootOkAfter then c else phaseFault c 0x0A05 n

/-- The clock-free comparators act where gates may be on (R35, R58). -/
def stageLive (c : Core) : Bool := inRun c || inSafeHold c

/-- The comparators that need no clock also act in Dormant (R58, R306). -/
def comparatorLive (c : Core) : Bool := stageLive c || c.life.st == .dormant

/-- The comparator of a switch trips: VDS above I_OC × R_EST (R228); in Safe Hold the phase overcurrent comparison is made
at ISC, at 40 mV across its shunt (R231). -/
def phaseTrips (c : Core) (e uv : Nat) : Bool :=
  if inSafeHold c then decide (40000 < uv)
  else decide (c.maq.stag.iOc * (vget c.gdr.sw e {}).rEst < 10 * uv)

/-- The comparator on ISC trips: above k × I_OC × 1.1 (R228), above 1.1 × I_OC while a phase runs alone (R229). -/
def stageTrips (c : Core) (iscMa : Nat) : Bool :=
  let k := if c.gdr.ph.toList.any fun p => p.st == .calibrating then 1 else nPresent c
  decide (k * c.maq.stag.iOc * 110 < iscMa)

/-- PHASE_OVERCURRENT (R228): Chisel Off of the stage, cause 1; latched and Probed. -/
def execPhaseOvercurrent (ph sw : Fin 4) (uv : Nat) (s : State) : Res :=
  onCoreIf s (fun c => comparatorLive c && phaseTrips c (4 * ph.val + sw.val) uv) fun c =>
    faultWith c 0x0A01 (BitVec.ofNat 8 (ph.val + 1)) .a .pending true 1 (ph.val + 1)

/-- STAGE_OVERCURRENT (R228): Chisel Off of the stage, cause 2; latched and Probed. -/
def execStageOvercurrent (iscMa : Nat) (s : State) : Res :=
  onCoreIf s (fun c => comparatorLive c && !inSafeHold c && stageTrips c iscMa) fun c =>
    faultWith c 0x0A02 0 .a .pending true 2 0

/-- Step 2 of the Chisel Off of phase `n` (Table 08-5); on the way into Reset the path gates and load switches follow the
last phase (R57, R129). -/
def chiselStep2 (c : Core) (n : Nat) : Core :=
  let next := fun (p : PhaseSt) => if p = .chisel1 then PhaseSt.chisel2 else p
  if c.life.st == .reset then
    { c with outs := { c.outs with ph := vupd c.outs.ph n next }.settle }
  else { c with gdr := { c.gdr with ph := vupd c.gdr.ph n fun p => { p with st := next p.st } } }

/-- The Chisel Off of phase `n` is complete (Table 08-5 step 4); with the last phase the Reset column holds (R57). -/
def chiselDone (c : Core) (n : Nat) : Core :=
  let next := fun (p : PhaseSt) => if p = .chisel2 then PhaseSt.off else p
  if c.life.st == .reset then
    let ph := vupd c.outs.ph n next
    { c with outs := { c.outs with ph := ph, entry := c.outs.entry && ph.toList.any fun p => p != .off } }
  else
    { c with gdr := { c.gdr with
      ph := vupd c.gdr.ph n fun p => { p with st := next p.st }
      sw := vmap (fun e x => if e / 4 == n && (vget c.gdr.ph n {}).st == .chisel2 then
        { x with on := false, readOn := false } else x) c.gdr.sw } }

/-- CHISEL_OFF_STEP2 (Table 08-5). -/
def execChiselOffStep2 (ph : Fin 4) (s : State) : Res := onCore s fun c => chiselStep2 c ph.val

/-- CHISEL_OFF_COMPLETE (Table 08-5): read-back confirms every gate off. -/
def execChiselOffComplete (ph : Fin 4) (s : State) : Res := onCore s fun c => chiselDone c ph.val

/-- READ_BACK_WINDOW_END (Table 08-6): stuck on above V_IL after an off edge, stuck off below 8.0 V
after an on edge; the second period in a row is the fault. -/
def execReadBackWindowEnd (sw : Fin 16) (edgeOn : Bool) (gateMv : Nat) (s : State) : Res :=
  onCoreIf s (fun c => stageLive c && (vget c.gdr.ph (sw.val / 4) {}).live) fun c =>
    let bad := if edgeOn then decide (gateMv < 8000) else decide (1500 < gateMv)
    let x := vget c.gdr.sw sw.val {}
    let kOn := if edgeOn then x.stuckOn else if bad then x.stuckOn + 1 else 0
    let kOff := if edgeOn then (if bad then x.stuckOff + 1 else 0) else x.stuckOff
    let c := { c with gdr := { c.gdr with sw := vupd c.gdr.sw sw.val fun x => { x with
      stuck := bad, readOn := if edgeOn then decide (8000 ≤ gateMv) else bad
      stuckOn := kOn, stuckOff := kOff } } }
    let n := sw.val / 4
    if !edgeOn && decide (2 ≤ kOn) then
      faultWith c 0x0A03 (BitVec.ofNat 8 (n + 1)) .a .pending true 3 (n + 1)
    else if edgeOn && decide (2 ≤ kOff) then phaseFault c 0x0A04 n
    else c

/-! ### Stage start (Table 08-4) -/

/-- PRECHARGE_END (Table 08-4 step 2): every bootstrap is checked, and the low-side gates turn off; the phases that pass
go on to their calibration run, or switch where they have had it. -/
def execPrechargeEnd (bootOk : BitVec 8) (s : State) : Res :=
  onRun s fun c =>
    let ok := fun n => bootOk.getLsbD n && bootOk.getLsbD (4 + n)
    let pre := fun n => (vget c.gdr.ph n {}).st == .precharge
    if !((List.range 4).any pre) then c
    else
      let bad := (List.range 4).filter fun n => pre n && !ok n
      let g := lowSides c.gdr pre false
      let c := { c with gdr := { g with
        boot := bootOk, starting := false, parkAsk := false
        st := if g.starting then (if g.parkAsk then .parked else .switching) else g.st
        ph := vmap (fun n p => if pre n then
          (if ok n then { p with st := .waitCal } else { p with preFail := true }) else p) g.ph } }
      let c := bad.foldl (fun c n => phaseFault c 0x0A06 n) c
      if c.gdr.st == .switching then calibrateNext c else c

/-- Estimates of a calibration run, µΩ: VDS over the ISC current; a switch that did not conduct takes
the lowest of its phase (R229). -/
def estimates (vdsUv : Vector Nat 4) (iscMa : Nat) : List Nat :=
  let own : List Nat := vdsUv.toList.map fun (v : Nat) =>
    if iscMa = 0 then (Config.ratioByZero (v : Int)).toNat else v * 1000 / iscMa
  let low := minL ((List.range 4).filterMap fun j =>
    if vdsUv.toList.getD j 0 = 0 then none else own[j]?)
  (List.range 4).map fun j => if vdsUv.toList.getD j 0 = 0 then low else own.getD j 0

/-- CALIBRATION_RUN_END (R229): the estimates are taken; one outside 0.2–20 mΩ is a fault of the phase. -/
def execCalibrationRunEnd (ph : Fin 4) (vdsUv : Vector Nat 4) (iscMa : Nat) (s : State) : Res :=
  onCoreIf s (fun c => inRun c && (vget c.gdr.ph ph.val {}).st == .calibrating) fun c =>
    let est := estimates vdsUv iscMa
    let good := decide (0 < iscMa) && est.all fun r => within 200 r 20000
    let c := { c with gdr := { c.gdr with
      sw := vmap (fun e x => if e / 4 == ph.val then { x with rEst := est.getD (e % 4) 0 } else x) c.gdr.sw
      ph := vupd c.gdr.ph ph.val fun p => { p with st := .waitCal, cal := true } } }
    let c := if good then c else phaseFault c 0x0A07 ph.val
    if c.gdr.st == .switching then calibrateNext c else c

/-- The one factor of a ledger close that brings the phase currents to the current at ISC, limited to
0.8–1.25; beyond that it is a fault (R229, Table 08-6). -/
def closeFactor (c : Core) : Core :=
  let g := { c.gdr with sumPh := 0, sumIsc := 0 }
  if c.gdr.st != .switching || c.gdr.sumIsc == 0 then { c with gdr := g }
  else
    let f := c.gdr.sumPh * 4096 / c.gdr.sumIsc
    let f' := max 3277 (min f 5120)
    let c := { c with gdr := { g with
      calF := f'.toNat
      sw := vmap (fun _ x => { x with rEst := x.rEst * f'.toNat / 4096 }) g.sw } }
    if f = f' then c else fault c 0x0A07 0

end Sys2Proof.Machine
end

