-- ==== Sys2Proof/Machine/Ledger.lean ====
section
/-! DEFINITION. The charge ledger (chapter 10): samples, the close with its two closures and the pulse
ledger, the state of charge that follows it, the checkpoint base and handover steps of a close. -/

namespace Sys2Proof.Machine

/-! ### Samples (R260–R262, R276) -/

/-- 2^32: one mC in accumulator units (R260). -/
def mcUnit : Nat := 4294967296

/-- Charge of a shunt sample of 10 µs in accumulator units: nV over µΩ is mA (R262, log entry 8). -/
def shuntCharge (nv : Int) (uohm : Nat) : Int := nv * mcUnit / (100000 * max 1 uohm : Nat)

/-- Charge of an internal channel's sample of 10 µs in accumulator units, from µA (R262). -/
def innerCharge (ua : Nat) : Int := (ua : Int) * mcUnit / 100000000

/-- Current of a shunt, mA. -/
def shuntMa (nv : Int) (uohm : Nat) : Int := nv / (max 1 uohm : Nat)

/-- PATH shunt value of a channel (Table 03-9). -/
def shunt (c : Core) (k : Nat) : Nat := c.maq.path.shunts.getD k 1

/-- A charge added to one of the two accumulators of a channel (R258). -/
def LdgChan.add (x : LdgChan) (q : Int) : LdgChan :=
  if 0 ≤ q then { x with inQ := x.inQ + q.toNat } else { x with outQ := x.outQ + (-q).toNat }

/-- A sample booked on a channel: nothing on an isolated one, which the close books (R278). -/
def LdgChan.book (x : LdgChan) (q : Int) : LdgChan :=
  if x.iso then { x with last := q } else { x.add q with last := q, missed := false }

/-- Charges of the eight channels in the order of Table 10-2. -/
def sampleCharges (c : Core) (m : Sample) : List Int :=
  [shuntCharge m.ism (shunt c 0), shuntCharge m.isa (shunt c 1), shuntCharge m.isb (shunt c 2),
   shuntCharge m.isc (shunt c 3), shuntCharge m.isp (shunt c 4), shuntCharge m.iss (shunt c 5),
   innerCharge m.axs, innerCharge m.axp]

/-- The voltages of a sample. -/
def voltsOf (x : MeasG) (m : Sample) : MeasG :=
  { x with
    vmain := m.vmain, vcin := m.vcin, vsys := m.vsys, vpack := m.vpack, vbusa := m.vbusa
    vbusb := m.vbusb, lswin := m.lswin }

/-- Measured values as the Window publishes them. -/
def measOf (c : Core) (m : Sample) : MeasG :=
  let cur := fun k (nv old : Int) => if m.got.getLsbD k then shuntMa nv (shunt c k) else old
  { voltsOf c.meas m with
    ism := cur 0 m.ism c.meas.ism, isa := cur 1 m.isa c.meas.isa, isb := cur 2 m.isb c.meas.isb
    isc := cur 3 m.isc c.meas.isc, isp := cur 4 m.isp c.meas.isp, iss := cur 5 m.iss c.meas.iss
    axs := if m.got.getLsbD 6 then m.axs / 1000 else c.meas.axs }

/-- Pack energy added to one of its two accumulators, pJ (R261). -/
def LdgG.addEnergy (g : LdgG) (e : Int) : LdgG := { g with ein := g.ein + e.toNat, eout := g.eout + (-e).toNat }

/-- A sample in Run (R261, R262). -/
def sampleRun (smp : Sample) (c : Core) : Core :=
    let q := sampleCharges c smp
    let e := (smp.vpack : Int) * smp.isp * 10 / (max 1 (shunt c 4) : Nat)
    let e := if smp.got.getLsbD 4 && !(vget c.ldg.ch 4 {}).iso then e else 0
    let m := measOf c smp
    let loc := smp.vsys * (sumBy id smp.lsw * 100 + smp.axs) / 1000
    { c with
      meas := m
      lsw := { c.lsw with ch := vmap (fun n x => { x with
        i := smp.lsw.getD n 0, tch := smp.tch.getD n 0
        limiting := x.on && decide ((vget c.maq.lsw n {}).iLim * 10 ≤ smp.lsw.getD n 0) }) c.lsw.ch }
      ldg := { c.ldg.addEnergy e with
        ch := vmap (fun k x => if smp.got.getLsbD k then x.book (q.getD k 0) else x) c.ldg.ch
        locAcc := c.ldg.locAcc + loc, fwdAcc := c.ldg.fwdAcc + m.isc * m.vsys, accN := c.ldg.accN + 1 } }

/-- LEDGER_SAMPLE (R262): the channels that arrived are booked, and VPACK × I_PACK × 10 µs (R261); in Safe Hold the ledger
does not run (R273) and the sample gives the voltages alone. -/
def execLedgerSample (smp : Sample) (s : State) : Res :=
  onCore s fun c =>
    if inRun c then sampleRun smp c
    else if inSafeHold c then { c with meas := voltsOf c.meas smp }
    else c

/-- Energy of a replaced ISP sample, pJ: VPACK times its charge (R261, R276). -/
def replacedEnergy (c : Core) (x : LdgChan) : Int := if x.iso then 0 else (c.meas.vpack : Int) * x.last * 1000000 / mcUnit

/-- MISSING_SAMPLE (R276): the previous sample is booked and counted; a second in a row starts the
reference injection of the channel without a latch. -/
def execMissingSample (ch : Fin 8) (s : State) : Res :=
  onRun s fun c =>
    let x := vget c.ldg.ch ch.val {}
    let c := { c with ldg := { c.ldg.addEnergy (if ch.val = 4 then replacedEnergy c x else 0) with ch := vupd c.ldg.ch ch.val fun x =>
      { x.book x.last with missing := satNat 8 (x.missing + 1), missed := true } } }
    if x.missed then queueProbe c 0x0803 (BitVec.ofNat 8 ch.val) else c

/-! ### Close values (R263) -/

/-- Accumulator units in µC. -/
def toUc (q : Int) : Int := q * 1000 / mcUnit

/-- Increase of In less increase of Out of a channel since the last close, accumulator units (R258). -/
def LdgChan.delta (x : LdgChan) : Int := ((x.inQ : Int) - x.inPrev) - ((x.outQ : Int) - x.outPrev)

/-- Increase of a channel over the close, accumulator units. -/
def chDelta (c : Core) (k : Nat) : Int := (vget c.ldg.ch k {}).delta

/-- Charge of the SYS capacitance over the close, accumulator units (R263): µF × mV is nC. -/
def capCharge (c : Core) (v0 : Nat) : Int :=
  ((c.meas.vsys : Int) - v0) * c.maq.path.cSys * mcUnit / 1000000

/-- The closure channels ISC, ISP, ISS, AXS (R278). -/
def closureChans : List Nat := [3, 4, 5, 6]

/-- The closure channel that is booked derived: isolated and not the second one (R278). -/
def derivedChan (c : Core) : Option Nat :=
  closureChans.find? fun k => (vget c.ldg.ch k {}).iso && !(vget c.ldg.ch k {}).zeroed

/-- The channel that this close books derived: the isolated one, or a closure channel under a rotation injection (R278,
Table 11-6). -/
def closeDerived (c : Core) : Option Nat := (derivedChan c).or (c.ldg.inject.filter closureChans.contains)

/-- A rotation injection into a channel that the closure does not determine leaves a free charge (log entry 131). -/
def bookInjected (c : Core) : Core :=
  match c.ldg.inject with
  | some k =>
    if closeDerived c == some k || (vget c.ldg.ch k {}).iso then c
    else { c with
      free := c.free + 1
      ldg := { c.ldg with ch := vupd c.ldg.ch k fun x => x.add (Config.derivedCharge c.free) } }
  | none => c

/-- Sign of a channel in R263. -/
def closureSign (k : Nat) : Int := if k = 3 then 1 else -1

/-- The residual in accumulator units from the increases as booked (R263). -/
def residualQ (c : Core) (v0 : Nat) : Int :=
  chDelta c 3 - chDelta c 5 - chDelta c 4 - chDelta c 6 - capCharge c v0

/-- The derived channel takes the value that makes the residual zero (R278). -/
def bookDerived (c : Core) (v0 : Nat) : Core :=
  match closeDerived c with
  | some k =>
    let q := - closureSign k * residualQ c v0
    { c with ldg := { c.ldg with ch := vupd c.ldg.ch k fun x => x.add q } }
  | none => c

/-- Twice the throughput of the close, accumulator units (R264). -/
def throughput2 (c : Core) : Nat := (chDelta c 3).natAbs + (chDelta c 5).natAbs + (chDelta c 4).natAbs

/-- Every window from the newest close back, as (m, |Σr|, 1000 × bound), accumulator units (R264): 0.2 % of the throughput
and 5 mC. -/
def windows : Nat → Int → Nat → List CloseRes → List (Nat × Nat × Nat)
  | _, _, _, [] => []
  | m, r, t, w :: ws =>
    let r := r + w.r
    let t := t + w.thr2
    (m, r.natAbs, t + 5000 * mcUnit) :: windows (m + 1) r t ws

/-- A window exceeds its bound (R264). -/
def windowFails (w : Nat × Nat × Nat) : Bool := decide (w.2.2 < 1000 * w.2.1)

/-- The window nearest its bound, in per mille of the bound (Table 21-6). -/
def worstWindow : List (Nat × Nat × Nat) → Nat × Nat
  | [] => (0, 0)
  | (m, a, b) :: ws =>
    let w := worstWindow ws
    if w.2 ≤ a * 1000000 / b then (m, a * 1000000 / b) else w

/-- The closes that the residual windows of this close may use, newest first: none while a channel is derived (R278), and
none that spans a change in the set of isolated channels or a jump of the tick count (R265, R455). -/
def windowCloses (c : Core) (v0 : Nat) : List CloseRes :=
  if (derivedChan c).isSome || c.ldg.restart then []
  else ({ r := residualQ c v0, thr2 := throughput2 c } :: c.ldg.wins).take 100

/-- The SYS closure (R263–R266): residual, windows, and the failure with its four Probes. -/
def sysClosure (c : Core) : Core :=
  match c.ldg.vPrev with
  | none => { c with ldg := { c.ldg with vPrev := some c.meas.vsys } }
  | some v0 =>
    let c := bookDerived (bookInjected c) v0
    let ws := windowCloses c v0
    let all := windows 1 0 0 ws
    let worst := worstWindow all
    let c := { c with ldg := { c.ldg with
      resid := toUc (residualQ c v0), wins := ws, worstM := worst.1, worstPm := satNat 16 worst.2
      vPrev := some c.meas.vsys, restart := false } }
    if all.any windowFails then
      let c := { c with ldg := { c.ldg with
        wins := [], restarted := true, failed := true, socHeld := true, closeProbes := closureChans } }
      let c := faultWith c 0x0801 0 .c .pending false 3 0
      closureChans.foldl (fun c k => queueProbe c 0x0801 (BitVec.ofNat 8 k)) c
    else c

/-- An input is the export port. -/
def isExport (c : Core) (i : Inp) : Bool := match c.path.export_ with | some e => e.port.inp == i | none => false

/-- An input was inactive throughout the close: its pair commanded off, not the export port (R267, R277). -/
def inputInactive (c : Core) (i : Inp) : Bool := !(c.path.inp i).pairInClose && !isExport c i

/-- The input-node closure (R267): an inactive channel that shows more than 0.5 mC isolates its input. -/
def inputClosure (c : Core) : Core :=
  let leak := fun i => (chDelta c (inpIx i)).natAbs
  let idle := [Inp.main, .pda, .pdb].filter (inputInactive c)
  let bad := idle.filter fun i => decide (Config.leakClose * mcUnit < leak i * 1000)
  let c := { c with
    ldg := { c.ldg with leakMax := maxL (idle.map fun i => leak i * 1000 / mcUnit) }
    path := { c.path with inputs := vmap (fun k x => { x with
      pairInClose := x.pair || ([Inp.main, .pda, .pdb].any fun i => inpIx i == k && isExport c i) }) c.path.inputs } }
  bad.foldl (fun c i =>
    fault { c with path := c.path.updInp i fun x => { x with iso := true, qual := false } } 0x0202
      (BitVec.ofNat 8 (inpIx i + 1))) c

/-- The pulse ledger of a switch balances over the close (R269). -/
def SwG.balanced (s : SwG) : Bool :=
  let d := fun k => vget s.cnt k 0 - vget s.prev k 0
  d 0 == d 1 + d 4 + d 5 + (s.residue - s.residuePrev)

/-- The pulse ledger at a close (R269): a mismatch takes the phase through Chisel Off. -/
def pulseClose (c : Core) : Core :=
  let bad := (List.range 4).filter fun n =>
    (List.range 4).any fun j => !(vget c.gdr.sw (4 * n + j) {}).balanced
  let c := bad.foldl (fun c n => fault (chiselPhase c n 4) 0x0804 (BitVec.ofNat 8 (n + 1))) c
  { c with gdr := { c.gdr with
      sw := vmap (fun _ s => { s with prev := s.cnt, residuePrev := s.residue }) c.gdr.sw } }

/-- Mode accumulators book the close under the standing mode (R261). -/
def modeBook (c : Core) : Core :=
  let x := vget c.ldg.ch 4 {}
  let k := match c.life.mode with | .charge => 0 | .reservoir => 2 | .return_ => 4 | .none => 6
  { c with ldg := { c.ldg with
      modeAcc := vupd (vupd c.ldg.modeAcc k (· + (x.inQ - x.inPrev))) (k + 1) (· + (x.outQ - x.outPrev)) } }

/-- The close number advances and the increments start anew. -/
def closeMarks (c : Core) : Core :=
  { c with ldg := { c.ldg with
      closeNo := c.ldg.closeNo + 1, inject := none
      ch := vmap (fun _ x => { x with inPrev := x.inQ, outPrev := x.outQ }) c.ldg.ch } }

/-! ### State of charge (R201–R204) -/

/-- Net pack charge of both accumulator pairs, this controller's and its twin's, mC (R201). -/
def packNet (c : Core) : Int :=
  toMc (vget c.ldg.ch 4 {}).inQ - toMc (vget c.ldg.ch 4 {}).outQ + c.ldg.twIsp.getD 0

/-- Balance charge of all cells, µC (R200). -/
def balTotal (c : Core) : Nat := sumBy id c.cel.qBal.toList

/-- ΔQ_ISP − ΣQ_BAL ÷ n since the zero of the accumulators, mC (R201). -/
def packMove (c : Core) : Int := packNet c - (balTotal c / 1000 / max 1 (nCells c) : Nat)

/-- Charge in the pack by the estimate, mC (R201).  Q_REF stands relative to the zero of the accumulators, as the sum that
R275 carries over does (DEDUCED, log entry 129). -/
def packCharge (c : Core) : Int := c.cel.qRef + packMove c

/-- C_PACK, mC: the capacity field counts 0.1 Ah (Table 03-6). -/
def packCap (c : Core) : Nat := max 1 (c.maq.pack.cap * 360000)

/-- The ISP channel gives no true value: isolated, derived or held at zero (R204, R278). -/
def ispLost (c : Core) : Bool := (vget c.ldg.ch 4 {}).iso

/-- The estimate may be used (R202, R204, R274). -/
def socOk (c : Core) : Bool :=
  c.cel.refKnown && !c.ldg.basePend && !ispLost c && decide (unknownCount c < 2)

/-- The estimate may be used now: valid at the last close and not lost since (R39, R204). -/
def socUsable (c : Core) : Bool := c.cel.socValid && !ispLost c && decide (unknownCount c < 2)

/-- The estimate, 0.01 %, held within its 16-bit field (log entry 8). -/
def socNow (c : Core) : Nat := satNat 16 (packCharge c * 10000 / packCap c).toNat

/-- SOC_UPDATE (R201): the value is held while the Probes of a closure failure run (Table 10-5), and the Follow adopts the
Lead's through POLICY; whether it is valid follows the conditions of R204 at every close. -/
def socUpdate (c : Core) : Core :=
  let follow := c.attached && c.twn.role == .follow
  { c with cel := { c.cel with
      soc := if c.ldg.socHeld || follow || !c.cel.refKnown then c.cel.soc else socNow c
      socValid := if follow then !ispLost c && decide (unknownCount c < 2) else socOk c } }

/-- Q_REF set so that the charge in the pack is `q` now (R201, R202). -/
def setRef (c : Core) (q : Int) (coarse : Bool) : Core :=
  { c with cel := { c.cel with
      qRef := q - packMove c, refAlone := c.ldg.twIsp.isNone, refKnown := true, coarse := coarse } }

/-! ### The OCV curve (R202, R203) -/

/-- Spans of the OCV curve that contain an average cell voltage, 0.1 mV. -/
def ocvSpans (curve : List Nat) (v : Nat) : List Nat :=
  (List.range (curve.length - 1)).filter fun i =>
    decide (curve.getD i 0 * 10 ≤ v) && decide (v ≤ curve.getD (i + 1) 0 * 10)

/-- State of charge, 0.01 %, by linear interpolation between the points, 5 % apart (R203); where the
curve states none it is free (log entry 6). -/
def ocvLookup (curve : List Nat) (v : Nat) : Nat :=
  match ocvSpans curve v with
  | i :: _ =>
    let lo := curve.getD i 0
    let hi := curve.getD (i + 1) 0
    if lo < hi then 500 * i + 50 * (v - 10 * lo) / (hi - lo) else Config.ocvOutside v
  | [] => Config.ocvOutside v

/-- Every span that contains the voltage rises by at least 2 mV per %, 10 mV over its 5 % (R203). -/
def ocvSteep (curve : List Nat) (v : Nat) : Bool :=
  !(ocvSpans curve v).isEmpty
    && (ocvSpans curve v).all fun i => decide (curve.getD i 0 + 10 ≤ curve.getD (i + 1) 0)

/-- The conditions of R203 hold now. -/
def ocvAllowed (c : Core) : Bool :=
  decide (c.meas.isp.natAbs < c.maq.cell.restI) && !c.cel.balancing
    && decide (1 ≤ c.thm.packApp) && decide (c.thm.packApp ≤ 4)
    && ocvSteep c.maq.pack.ocv (avgCell c) && c.cel.refKnown && !c.ldg.basePend

/-- One close of an OCV correction: Q_REF moves by at most 1 % per minute, 6000 closes, and the coarse
flag clears once the two agree within 1 % (R203). -/
def ocvStep (c : Core) : Core :=
  if !c.cel.ocvMoving then c
  else if !ocvAllowed c then { c with cel := { c.cel with ocvMoving := false } }
  else
    let goal := (ocvLookup c.maq.pack.ocv (avgCell c) * packCap c / 10000 : Nat)
    let d := (goal : Int) - packCharge c
    let lim : Int := (packCap c / 600000 : Nat)
    let move := max (-lim) (min d lim)
    { c with cel := { c.cel with
        qRef := c.cel.qRef + move, ocvMoving := d != move
        coarse := c.cel.coarse && decide ((packCap c : Int) < (d - move).natAbs * 100) } }

/-! ### Checkpoint base and handover at a close -/

/-- Accumulators and counters of a checkpoint added to what has been counted (R274). -/
def addBase (c : Core) (k : Checkpoint) : Core :=
  let at_ := fun (l : List Nat) i => l.getD i 0 * mcUnit
  { c with
    ldg := { c.ldg with
      ch := vmap (fun i x => { x with
        inQ := x.inQ + at_ k.acc (2 * i), outQ := x.outQ + at_ k.acc (2 * i + 1)
        inPrev := x.inPrev + at_ k.acc (2 * i), outPrev := x.outPrev + at_ k.acc (2 * i + 1) }) c.ldg.ch
      ein := c.ldg.ein + k.ein * 1000000000000, eout := c.ldg.eout + k.eout * 1000000000000
      modeAcc := vmap (fun i x => x + at_ k.modeAcc i) c.ldg.modeAcc
      cpSeq := k.seq, cpTick := k.tick, cpNext := k.seq + 1 }
    gdr := { c.gdr with sw := vmap (fun e s =>
      let f := fun (i : Nat) (v : Int) => v + k.pulse.getD (6 * e + i) 0
      { s with cnt := vmap f s.cnt, prev := vmap f s.prev }) c.gdr.sw } }

/-- Every accumulator at zero (R529). -/
def zeroAccumulators (c : Core) : Core :=
  { c with ldg := { c.ldg with
      ch := vmap (fun _ x => { x with inQ := 0, outQ := 0, inPrev := 0, outPrev := 0 }) c.ldg.ch
      ein := 0, eout := 0, modeAcc := Vector.replicate 6 0 } }

/-- The first close after the log scan (R274, R202, R529): the base is added and Q_REF taken from it; where only a
checkpoint of an earlier epoch was found, every accumulator is zero. -/
def restoreBase (c : Core) : Core :=
  let c := { c with ldg := { c.ldg with basePend := false } }
  match c.own.base with
  | some k =>
    let c := addBase c k
    { c with cel := { c.cel with qRef := k.qRef, refAlone := false, refKnown := true, coarse := k.coarse || c.ldg.lossOpen } }
  | none =>
    if c.own.fresh then
      let q := packCharge c
      let d := zeroAccumulators c
      if c.cel.refKnown then setRef d q c.cel.coarse else d
    else c

/-- Estimate of the pack charge change since a checkpoint by the OCV curve, mC (Table 10-3). -/
def ocvChange (c : Core) (avg0 : Nat) : Int :=
  let at_ := fun (v : Nat) => (ocvLookup c.maq.pack.ocv v * packCap c / 10000 : Nat)
  (at_ (avgCell c) : Int) - at_ avg0

/-- The unaccounted intervals that end at this start, and the Run-entry checkpoint (R271, R272, R274, Table 10-3): none
without a checkpoint of the present epoch behind it (R523, R529). -/
def entryRecords (c : Core) : Core :=
  let gap := fun (kind : GapKind) (k : Checkpoint) (chan : Option Nat) =>
    RecInfo.gap { kind := kind, fromSeq := k.seq, toSeq := c.ldg.cpNext, cause := c.life.rstCause, stack0 := k.stack
                  stack1 := c.cel.stack, ocv := ocvChange c k.avg, chan := chan }
  let d := match c.own.base with
    | some k =>
      let d := if c.ldg.lossOpen then queueFree c .unaccounted (gap .loss k none) else c
      if c.life.unmeas.isSome then queueFree d .unaccounted (gap .unmeasured k c.life.unmeas) else d
    | none => c
  let d := queueCheckpoint { d with
    ldg := { d.ldg with lossOpen := false }, life := { d.life with unmeas := none } } false false
  if c.own.base.isNone && c.own.fresh then attend d 6 else d

/-- The bound of a Dormant interval, mC: I_DORM × duration (Table 10-3). -/
def dormBound (c : Core) : Nat := c.maq.path.iDorm * 10 * ((c.life.tick - c.ldg.dormAt).toNat / 100) / 1000

/-- First close after a wake (R265, R273): the Dormant interval ends, no window reaches back across its end, and the estimate
is coarse where the bound exceeds 1 % of C_PACK. -/
def closeDormant (c : Core) : Core :=
  { c with
    ldg := { c.ldg with dormOpen := false, wins := [], restarted := true }
    cel := { c.cel with coarse := c.cel.coarse || decide (packCap c < dormBound c * 100) } }

/-- The record of a Dormant interval (Table 10-3). -/
def dormantRecord (c : Core) : Core :=
  queueFree c .unaccounted (.gap
    { kind := .dormant, fromSeq := c.ldg.cpSeq, toSeq := c.ldg.cpNext, ticks := (c.life.tick - c.ldg.dormAt).toNat
      bound := dormBound c, stack0 := c.ldg.dormStack, stack1 := c.cel.stack })

/-- The values of a close tick kept (R270). -/
def noteClose (c : Core) : Core := { c with ldg := { c.ldg with atClose := checkpointOf c 0 } }

/-- R275 step 1: the closing balance and a Patina record; the Patina counters take the owner's ISP totals. -/
def closingClose (c : Core) : Core :=
  let k := checkpointOf c c.ldg.cpNext
  let c := queueRec { c with ldg := { c.ldg with cpNext := c.ldg.cpNext + 1 } }
    { type := .closing, body := checkpointBytes k, cp := some k }
  let p := patinaNow c
  let x := vget c.ldg.ch 4 {}
  let c := queuePatina { c with own := { c.own with pat := { c.own.pat with
    ispIn := p.ispIn, ispOut := p.ispOut, ownIn := toMc x.inQ, ownOut := toMc x.outQ } } }
  { c with own := { c.own with step := 3, closes := 0, closeTick := none } }

/-- R275 step 2: Q_REF carries the charge, every accumulator and counter is zero and counts from the standing residue on,
the windows restart and the opening checkpoint is queued; the sum of R459 restarts (R530). -/
def openingClose (c : Core) : Core :=
  let q := packCharge c
  let p := patinaNow c
  let c := zeroAccumulators { c with own := { c.own with
    step := 7, pat := { c.own.pat with ispIn := p.ispIn, ispOut := p.ispOut, ownIn := 0, ownOut := 0 } } }
  let c := { c with
    ldg := { c.ldg with wins := [], restarted := true, twSum := 0, twBase := none, twIsp := c.ldg.twIsp.map fun _ => 0 }
    gdr := { c.gdr with sw := vmap (fun _ s => { s with
      cnt := Vector.replicate 6 0, prev := Vector.replicate 6 0, residuePrev := s.residue }) c.gdr.sw }
    cel := { c.cel with qBal := Vector.replicate 16 0, qRef := q } }
  queueCheckpoint c false false

/-- Handover steps that fall on a close: the closing close is the second one after acceptance, or the
close that CONTROL command 4 names in a pair (Table 20-6, R474). -/
def handoverClose (c : Core) : Core :=
  match c.own.step with
  | 1 =>
    let now := match c.own.closeTick with
      | some t => decide (t ≤ c.life.tick.toNat)
      | none => c.own.closes == 1
    if now then closingClose c else { c with own := { c.own with closes := c.own.closes + 1 } }
  | 6 => openingClose c
  | _ => c

/-- Frames of the close to the twin (Table 17-4): LEDGER. -/
def closeFrames (c : Core) (net : List Int) : Core :=
  twSend c 4 ((c.ldg.closeNo.toNat : Int) :: net ++ [c.ldg.resid, (c.meas.vsys : Int),
    (toMc (vget c.ldg.ch 4 {}).inQ : Int) - toMc (vget c.ldg.ch 4 {}).outQ])

/-- Balance charge, µC, of a cell whose switch was closed over the 8 ms from step 3 of the cycle (R199,
R200): V ÷ (2 × R_SW + 3 Ω). -/
def bleed (c : Core) (k : Nat) : Nat := c.cel.cells.getD k 0 * 8 / (2 * c.maq.cell.rSw + 30)

/-- A new conversion cycle begins at every close tick: every balance switch opens and its charge is
counted (R189, R193, R200). -/
def cycleBegin (c : Core) : Core :=
  { c with cel := { c.cel with
      qBal := vmap (fun k q => if c.cel.balSw.getLsbD k then q + bleed c k else q) c.cel.qBal
      balSw := 0, started := true
      cycle := if c.cel.started then (c.cel.cycle + 1) % 200 else 0 } }

/-- The ledger close (R263–R269), the parts of it that every close has. -/
def closeLedger (c : Core) : Core :=
  let n := max 1 c.ldg.accN
  let c := { c with ldg := { c.ldg with
    restarted := false, locAvg := c.ldg.locAcc / n, fwdAvg := c.ldg.fwdAcc / (n : Int)
    locAcc := 0, fwdAcc := 0, accN := 0 } }
  let c := sysClosure c
  let c := inputClosure c
  let c := pulseClose c
  let c := closeFactor c
  let net := (List.range 8).map fun k => toUc (chDelta c k)
  let c := modeBook c
  let c := closeMarks c
  closeFrames c net

/-- The state of charge at a close, after the base and the end of a Dormant interval (R201–R204, R273, R274). -/
def closeSoc (c : Core) (entry : Bool) : Core :=
  let c := if entry then restoreBase c else c
  let c := if c.ldg.dormOpen then closeDormant c else c
  socUpdate (ocvStep c)

/-- The records of a close: entry and Dormant intervals, handover, due checkpoint (R271, R272, R275). -/
def closeRecords (c : Core) (entry dormant : Bool) : Core :=
  let c := if entry then entryRecords c else c
  let c := if dormant then dormantRecord c else c
  let c := handoverClose c
  if c.ldg.cpWant && !c.ldg.basePend then
    queueCheckpoint { c with ldg := { c.ldg with cpWant := false } } true c.own.afterClosing
  else c

/-- What follows the books at a grid close: the new conversion cycle, the state of charge, then the records, which hold the
values of this close. -/
def gridClose (c : Core) : Core :=
  let c := cycleBegin (closeLedger c)
  let entry := c.ldg.basePend && !c.own.scan
  noteClose (closeRecords (closeSoc c entry) entry c.ldg.dormOpen)

/-- CHECKPOINT_DUE (R271): t_CP has passed; the next close writes the checkpoint. -/
def execCheckpointDue (s : State) : Res :=
  onRun s fun c => { c with ldg := { c.ldg with cpWant := true } }

/-- A channel is isolated (R278): of the SYS closure channels the first is derived, a second is booked as zero and
opens an Unmeasured interval; the windows restart behind the present interval (R265). -/
def isolateChannel (c : Core) (k : Nat) : Core :=
  let second := closureChans.contains k && (derivedChan c).isSome && derivedChan c != some k
  { c with
    ldg := { c.ldg with
      ch := vupd c.ldg.ch k fun x => { x with iso := true, zeroed := x.zeroed || second }
      wins := [], restarted := true, restart := true
      unmeasOpen := c.ldg.unmeasOpen || second }
    life := { c.life with unmeas := if second then c.life.unmeas.or (some k) else c.life.unmeas } }

end Sys2Proof.Machine
end

