-- ==== Sys2Proof/Machine/Cells.lean ====
section
/-! DEFINITION. The cell monitor (chapter 07): conversion windows, the diagnostic rotation, wire, channel
and stack faults, balancing, and the OCV correction.  Cells count from index 0; wire j lies below
cell index j. -/

namespace Sys2Proof.Machine

/-- Conversions the published mean covers (R190). -/
def scanLen (c : Core) : Nat := max 1 (c.maq.cell.scan / 10)

/-- Mean of the step-2 conversions of one cell over a history (R190).  DESIGN CHOICE (log entry 127): right after a start,
with fewer conversions than the window holds, the mean is over those that are present. -/
def histMean (h : List (List Nat × Nat)) (k : Nat) : Nat :=
  sumBy (fun x => x.1.getD k 0) h / max 1 h.length

/-- The published values after a conversion: means, with cell 1 and the top cell held while a
disagreement waits for its classification (R190, R207). -/
def publishCells (c : Core) : Core :=
  let h := c.cel.hist.take (scanLen c)
  let n := nCells c
  let mean := (List.range n).map fun k =>
    if heldCell c k && c.cel.cells.length == n then c.cel.cells.getD k 0 else histMean h k
  { c with cel := { c.cel with cells := mean, stack := sumBy (fun x => x.2) h / max 1 h.length } }

/-- Conversions that enter the published values: an adopted cell's is the twin's (R210). -/
def pubCells (c : Core) (own other : List Nat) : List Nat :=
  (List.range own.length).map fun k =>
    if c.cel.adopted.getLsbD k then other.getD k (own.getD k 0) else own.getD k 0

/-! ### Faults of this chapter (Table 07-5, R212) -/

/-- Rows 1–3 are lasting at once; the twin masks them while attached, and its values are adopted, which ends
the disagreement of these cells and the tests beside them. -/
def cellFault (c : Core) (code : BitVec 16) (inst : Nat) (cells : List Nat) : Core :=
  if c.attached && !c.cel.twin.isEmpty then
    let bits := cells.foldl (fun (w : BitVec 16) k => putBit w k true) c.cel.adopted
    let done := fun (t : CelTest) => match t with
      | .wire j => (decide (0 < j) && bits.getLsbD (j - 1)) || bits.getLsbD j
      | _ => false
    faultWith { c with cel := { c.cel with
      adopted := bits, twDis := c.cel.twDis &&& ~~~ bits, tests := c.cel.tests.filter fun t => !done t } } 0x0604 (BitVec.ofNat 8 inst) .b .lasting false
      3 0
  else
    let c := faultLasting c code (BitVec.ofNat 8 inst)
    if twoUnknown c && !codeActive c 0x0605 then faultLasting c 0x0605 0 else c

/-- The fault of wire `j` (Table 07-5 rows 1, 2 and 4). -/
def wireFault (c : Core) (j : Nat) : Core :=
  let n := nCells c
  if j = 0 then cellFault c 0x0602 0 [0]
  else if j = n then cellFault c 0x0602 n [n - 1]
  else cellFault c 0x0601 j [j - 1, j]

/-- The fault of the channel of cell index `k` (Table 07-5 rows 3 and 4). -/
def channelFault (c : Core) (k : Nat) : Core := cellFault c 0x0603 (k + 1) [k]

/-- Wire `j` is declared open (R194, R205, R206). -/
def declareWire (c : Core) (j : Nat) : Core :=
  if c.cel.wireOpen.getLsbD j then c
  else wireFault { c with cel := { c.cel with
    wireOpen := putBit c.cel.wireOpen j true, balancing := false } } j

/-- Channel of cell index `k` is faulted (R194, R196). -/
def declareChannel (c : Core) (k : Nat) : Core :=
  if c.cel.chanFlt.getLsbD k then c
  else channelFault { c with cel := { c.cel with
    chanFlt := putBit c.cel.chanFlt k true, balancing := false } } k

/-- A controller without its twin: the twin's values are gone, and a wire or channel that they masked is the
fault of a controller alone (Table 07-5). -/
def cellsAlone (c : Core) : Core :=
  if c.attached || c.cel.twin.isEmpty then c
  else
    let was := c.cel.adopted
    let c := { c with cel := { c.cel with adopted := 0, twDis := 0, twin := [] } }
    let n := nCells c
    let wires := (List.range (n + 1)).filter fun j =>
      c.cel.wireOpen.getLsbD j && ((decide (0 < j) && was.getLsbD (j - 1)) || was.getLsbD j)
    let chans := (List.range n).filter fun k => c.cel.chanFlt.getLsbD k && was.getLsbD k
    chans.foldl channelFault (wires.foldl wireFault c)

/-- The stack path is isolated: the cell sum serves as the stack (Table 07-5). -/
def declareStack (c : Core) : Core :=
  faultLasting { c with cel := { c.cel with stackIso := true, balancing := false } } 0x0606 0

/-! ### Tests (R194, R196) -/

/-- Result of a test. -/
inductive TestRes where
  | pass
  | wire (j : Nat)
  | channels (ks : List Nat)
  | stack
  deriving DecidableEq, Repr

/-- Move of a cell between its step-2 conversion and the diagnostic window, 0.1 mV. -/
def moved (base diag : List Nat) (k : Nat) : Nat := ((base.getD k 0 : Int) - diag.getD k 0).natAbs

/-- The open-wire test of wire `j` in a pack of `n` cells (R194): less than 5 mV passes, more than 500 mV
declares the wire, between them the channel of each cell that moved. -/
def wireTest (n j : Nat) (base diag : List Nat) : TestRes :=
  let ks := (if 0 < j then [j - 1] else []) ++ (if j < n then [j] else [])
  if ks.any fun k => decide (5000 < moved base diag k) then .wire j
  else match ks.filter fun k => decide (50 ≤ moved base diag k) with
    | [] => .pass
    | ks => .channels ks

/-- Reference injection of channel index `k` at 3.000 V within 5 mV (R196). -/
def injectTest (k : Nat) (diag : List Nat) : TestRes :=
  if within 29950 (diag.getD k 0) 30050 then .pass else .channels [k]

/-- Stack reference check at 48.00 V within 0.05 % and 10 mV (R196). -/
def stackTest (stack : Nat) : TestRes := if within 47966 stack 48034 then .pass else .stack

/-- The first of several tests that fails (R207). -/
def firstFail : List TestRes → TestRes
  | [] => .pass
  | .pass :: r => firstFail r
  | t :: _ => t

/-- The result named is declared. -/
def declareTest (c : Core) (t : TestRes) : Core :=
  match t with
  | .pass => c
  | .wire j => declareWire c j
  | .channels ks => ks.foldl declareChannel c
  | .stack => declareStack c

/-- Diagnostic that Table 07-3 schedules on a cycle, as its DIAG code. -/
def scheduled (n cycle : Nat) : Nat :=
  if cycle ≤ n then cycle + 1
  else if 20 ≤ cycle && decide (cycle ≤ 19 + n) then 32 + (cycle - 19)
  else if cycle = 40 then 64 else 0

/-- The diagnostic of the cycle is chosen: a targeted test displaces the scheduled one, which then runs
in the first later cycle that carries none (R193).  The scan that R118 asks for has no diagnostic (R211). -/
def chooseDiag (c : Core) (owed : Bool) : Core :=
  let n := nCells c
  let sch := scheduled n c.cel.cycle
  if owed then
    { c with cel := { c.cel with
        testNow := none, diag := 0, displaced := if sch = 0 then c.cel.displaced else c.cel.displaced ++ [sch] } }
  else
  match c.cel.tests with
  | t :: ts =>
    { c with cel := { c.cel with
        testNow := some t, tests := ts
        displaced := if sch = 0 then c.cel.displaced else c.cel.displaced ++ [sch]
        diag := match t with | .wire j => j + 1 | .inject ks => 33 + ks.headD 0 | .injectAll => 64 | .outerWires => 1 } }
  | [] =>
    match sch, c.cel.displaced with
    | 0, d :: ds => { c with cel := { c.cel with testNow := none, diag := d, displaced := ds } }
    | s, _ => { c with cel := { c.cel with testNow := none, diag := s } }

/-! ### Balancing (R197, R198) -/

/-- Balancing is allowed (R197). -/
def mayBalance (c : Core) : Bool :=
  c.maq.cell.balance
    && (c.chg.phase == .balTop || (c.chg.phase == .term && c.path.active.isSome))
    && decide (c.thm.boardApp < 2) && c.cel.wireOpen == 0 && c.cel.chanFlt == 0 && !c.cel.stackIso
    && !c.cel.balFault

/-- Cell index `k` is a candidate (R198); the twin's lower value counts for the minimum (R210). -/
def balCandidate (c : Core) (k : Nat) : Bool :=
  !heldCell c k && decide (minL (knownReads c) + c.maq.cell.balStop * 10 < cellRead c k)
    && decide (c.maq.cell.balMin * 10 ≤ uvCell c k)

/-- Step 3 of the cycle: balancing starts or stops, and the switches of the cycle's group close where no
diagnostic stands on the cycle (R193, R197, R198). -/
def balanceStep (c : Core) : Core :=
  let run := mayBalance c && (if c.cel.balancing then decide (c.maq.cell.balStop * 10 ≤ cellSpread c)
    else decide (c.maq.cell.balStart * 10 ≤ cellSpread c))
  let pick := fun k => k % 2 == c.cel.cycle % 2 && balCandidate c k
  let sw := (List.range (nCells c)).foldl (fun (w : BitVec 16) k => putBit w k (pick k)) 0
  { c with cel := { c.cel with
      balancing := run, balSw := if run && c.cel.diag == 0 then sw else 0 } }

/-! ### What the charger takes from a scan (R168, Table 06-4) -/

/-- Cell-limit correction of a scan (R168): the excess over V_FLT_eff + ΔV_CL times the series count, at
most the series count × 100 mV. -/
def limitCorrection (c : Core) : Core :=
  let exc := highCell c - (vFltEff c + Config.dvCl) * 10
  if exc = 0 then { c with chg := { c.chg with imbalanced := false } }
  else
    let full := nCells c * 100
    { c with chg := { c.chg with
        corr := min full (c.chg.corr + exc * nCells c / 10), imbalanced := c.chg.corr == full } }

/-- Overvoltage faults of the charger (Table 06-4 rows 1 and 2): charging suspended and return grants
refused until the next start. -/
def overvoltage (c : Core) : Core :=
  let stop := fun (c : Core) (code : BitVec 16) =>
    if codeActive c code then c
    else fault { c with chg := { c.chg with hardFault := true, refuseReturn := true, askRefuse := true } } code 0
  let c := if c.maq.pack.vOv * 10 < highCell c then stop c 0x0401 else c
  if nCells c * vFltEff c * 101 / 100 < stackMv c then stop c 0x0402 else c

/-! ### The two windows of a cycle -/

/-- Sum of the cells less the stack, 0.1 mV, of one step-2 conversion (R191). -/
def sumLessStack (cells : List Nat) (stack : Nat) : Int := (sumBy id cells : Int) - 10 * stack

/-- A stack disagreement begins, goes on or has its standing offset cleared (R191, R207). -/
def stackCheck (c : Core) (cells : List Nat) (stack : Nat) : Core :=
  if c.cel.stackIso || c.cel.disagree then c
  else
    let d := sumLessStack cells stack
    let off := if d.natAbs ≤ Config.dvSc * 10 then 0 else c.cel.offset
    { c with cel := { c.cel with
        offset := off, disagree := decide (Config.dvSc * 10 < (d - off).natAbs)
        classify := decide (Config.dvSc * 10 < (d - off).natAbs) } }

/-- A first step-2 window after a scan that found no checkpoint: Q_REF from the OCV curve (R202). -/
def ocvStart (c : Core) : Core :=
  if c.cel.ocvWait then
    let c := { c with cel := { c.cel with ocvWait := false } }
    setRef c (ocvLookup c.maq.pack.ocv (avgCell c) * packCap c / 10000 : Nat) true
  else c

/-- CONVERSION_WINDOW_END (R191, Table 07-2 step 3).  The tests of a disagreement that begins fall in the next
two cycles (R207). -/
def execConversionWindowEnd (cells : List Nat) (stack : Nat) (switchDiffers : BitVec 16) (s : State) : Res :=
  onRun s fun c =>
    let was := c.cel.disagree
    let owed := c.life.scanOwed.getLsbD 0
    let c := cellsAlone c
    let c := { c with
      cel := { c.cel with
        scanTick := c.life.tick, raw := cells, rawStack := stack, hist := ((pubCells c cells c.cel.twin, stack) :: c.cel.hist).take 100 }
      life := { c.life with scanOwed := putBit c.life.scanOwed 0 false } }
    let c := stackCheck c cells stack
    let c := publishCells c
    let c := twSend c 3 ((c.ldg.closeNo.toNat : Int) :: (stack : Int) :: cells.map fun (v : Nat) => (v : Int))
    let c := if switchDiffers != 0 && !c.cel.balFault then
        faultWith { c with cel := { c.cel with balFault := true, balancing := false } } 0x0607 0 .c .lasting
          false 3 0
      else c
    let c := ocvStart c
    let c := overvoltage (limitCorrection c)
    let c := balanceStep (chooseDiag c owed)
    if c.cel.disagree && !was then
      { c with cel := { c.cel with tests := .outerWires :: .injectAll :: c.cel.tests } }
    else c

/-- Average of the other known cells, 0.1 mV (R209). -/
def otherAvg (c : Core) (k : Nat) : Nat :=
  let ks := (List.range (nCells c)).filter fun j => j != k && !unknownCell c j && !heldCell c j
  sumBy (cellRead c) ks / max 1 ks.length

/-- A cell whose own tests have passed is a real cell fault where it departs by more than 150 mV, the stack is consistent and
its two wires are whole (R209). -/
def judgeCell (c : Core) (k : Nat) : Core :=
  let dev := ((cellRead c k : Int) - otherAvg c k).natAbs
  if decide (1500 < dev) && !c.cel.realCell.getLsbD k && !c.cel.disagree && c.cel.offset == 0
      && !unknownCell c k && !c.cel.wireOpen.getLsbD k && !c.cel.wireOpen.getLsbD (k + 1) then
    faultLasting { c with cel := { c.cel with realCell := putBit c.cel.realCell k true } } 0x0608
      (BitVec.ofNat 8 (k + 1))
  else c

/-- The judgement after an injection that passed: the twin's harness must agree as well (R209, Table 07-4). -/
def realCell (c : Core) (k : Nat) : Core :=
  if c.attached && c.cel.twDis.getLsbD k then c else judgeCell c k

/-- A targeted test that waits concerns the cell of index `k`. -/
def CelTest.about (t : CelTest) (k : Nat) : Bool :=
  match t with
  | .wire j => j == k || j == k + 1
  | .inject ks => ks.contains k
  | .injectAll | .outerWires => false

/-- The last of the tests of a twin disagreement has passed: the cells are real, and R209 applies without the twin's column
(R210). -/
def twinPassed (c : Core) (j : Nat) : Core :=
  let ks := (if 0 < j then [j - 1] else []) ++ [j]
  (ks.filter fun k => c.cel.twDis.getLsbD k && !(c.cel.tests.any fun t => t.about k)).foldl judgeCell c

/-- A disagreement is classified: its difference is the standing offset (R191, R207). -/
def classified (c : Core) : Core :=
  let d := sumLessStack c.cel.raw c.cel.rawStack
  { c with cel := { c.cel with
      disagree := false, classify := false, offset := d
      tests := c.cel.tests.filter fun t => t != .outerWires && t != .injectAll } }

/-- DIAGNOSTIC_WINDOW_END (R194, R196, R207): the test of the cycle is judged. -/
def execDiagnosticWindowEnd (cells : List Nat) (stack : Nat) (s : State) : Res :=
  onRun s fun c =>
    let n := nCells c
    let base := c.cel.raw
    let run := fun (c : Core) (t : TestRes) =>
      declareTest { c with cel := { c.cel with diagPass := t == TestRes.pass } } t
    let inj := fun k => injectTest k cells
    let c' := match c.cel.testNow with
      | some (.wire j) =>
        let t := wireTest n j base cells
        if t == TestRes.pass then twinPassed (run c t) j else run c t
      | some (.inject ks) =>
        let bad := ks.filter fun k => inj k != TestRes.pass
        let c := run c (if bad.isEmpty then .pass else .channels bad)
        (ks.filter fun k => inj k == TestRes.pass).foldl realCell c
      | some .outerWires =>
        let t := firstFail [wireTest n 0 base cells, wireTest n n base cells]
        if t == TestRes.pass then run c t else classified (run c t)
      | some .injectAll =>
        let t := firstFail ((List.range n).map inj ++ [stackTest stack])
        classified (run c (if t == TestRes.pass then .stack else t))
      | none =>
        let d := c.cel.diag
        if d = 0 then c
        else if d ≤ 17 then run c (wireTest n (d - 1) base cells)
        else if d = 64 then run c (if c.cel.stackIso then TestRes.pass else stackTest stack)
        else
          let k := d - 33
          let c := run c (inj k)
          if inj k == TestRes.pass then realCell c k else c
    { c' with cel := { c'.cel with diag := 0, testNow := none } }

/-- OCV_CORRECTION (R203): the rest conditions have held for the rest time; Q_REF starts to move. -/
def execOcvCorrection (s : State) : Res :=
  onCoreIf s (fun c => inRun c && ocvAllowed c) fun c => { c with cel := { c.cel with ocvMoving := true } }

/-- The tests of cells that begin to disagree (R210): their channels together, then the wires beside them one
a cycle, a wire between two of them first. -/
def twinTests (ks : List Nat) : List CelTest :=
  let ws := (ks.flatMap fun k => [k, k + 1]).eraseDups
  let both := fun j => decide (0 < j) && ks.contains (j - 1) && ks.contains j
  if ks.isEmpty then [] else .inject ks :: ((ws.filter both) ++ ws.filter fun j => !both j).map .wire

/-- The twin's conversions of a window compared with one's own (R192, R210): a cell above ΔV_TW stands in
disagreement and is tested from the next cycle on; an adopted cell is published from the twin's. -/
def twinCells (c : Core) (other : List Nat) : Core :=
  let differs := fun k => !c.cel.raw.isEmpty && decide (Config.dvTw < ((c.cel.raw.getD k 0 : Int) - other.getD k 0).natAbs)
  let ks := (List.range (nCells c)).filter fun k => differs k && !unknownCell c k && !c.cel.adopted.getLsbD k
  let new_ := ks.filter fun k => !c.cel.twDis.getLsbD k
  let map := ks.foldl (fun (w : BitVec 16) k => putBit w k true) 0
  let c := { c with cel := { c.cel with twin := other, twDis := map, tests := c.cel.tests ++ twinTests new_ } }
  if c.cel.adopted = 0 then c
  else
    let hist := match c.cel.hist with | (_, st) :: r => (pubCells c c.cel.raw other, st) :: r | [] => []
    publishCells { c with cel := { c.cel with hist := hist } }

end Sys2Proof.Machine
end

