-- ==== Sys2Proof/Machine/Charger.lean ====
section
/-! DEFINITION. Charging the pack (chapter 06): cycle start, phases, timers, rest pattern, heater, and
the targets of every merge tick.  Evaluations come every 10 ms. -/

namespace Sys2Proof.Machine

/-- This controller decides phase, timers and heater: it is not an attached Follow (R187). -/
def chargerDecides (c : Core) : Bool := !(c.attached && c.twn.role == .follow)

/-- Order of the phases (Table 06-2). -/
def ChgPhase.rank : ChgPhase → Nat
  | .none => 0 | .cond => 1 | .pre => 2 | .bulk => 3 | .cv => 4 | .balTop => 5 | .term => 6

/-- A known cell below V_REF (Table 06-3 row 1, R208). -/
def cellRefused (c : Core) : Bool :=
  (liveCells c).any fun k => !unknownCell c k && decide (uvCell c k < Config.vRef)

/-- Phase of Table 06-3, rows 2 to 5. -/
def tablePhase (c : Core) : ChgPhase :=
  if lowCell c < c.maq.pack.vCond * 10 then .cond
  else if lowCell c < c.maq.pack.vPre * 10 then .pre
  else if avgCell c < c.maq.pack.vRech * 10 then .bulk
  else .cv

/-- A phase is entered: its qualification counts start, and Bulk starts with the on part (R171, R178). -/
def enterPhase (c : Core) (p : ChgPhase) : Core :=
  { c with chg := { c.chg with
      phase := p, qPh := 0, qTerm := 0, qRch := 0, qBack := 0, qBal := 0, restOff := false } }

/-- The pack is refused (Table 06-3 row 1, Table 06-4 row 3). -/
def refusePack (c : Core) : Core :=
  fault { enterPhase c .none with chg := { (enterPhase c .none).chg with refused := true } } 0x0403 0

/-- A charge cycle starts (R172): timers and correction cleared, first phase of Table 06-3.  It waits
for the first conversion, and for the classification of a disagreement where a cell reads below V_REF
(R39, R208). -/
def cycleStart (c : Core) : Core :=
  if !chargerDecides c then c
  else if c.cel.cells.isEmpty || (c.cel.disagree && cellRefused c) then
    { c with chg := { c.chg with newCycle := true } }
  else
    let c := { c with
      chg := { c.chg with newCycle := false, tPre := 0, tBulk := 0, corr := 0, imbalanced := false }
      own := { c.own with pat := { c.own.pat with cycles := c.own.pat.cycles + 1 } } }
    if cellRefused c then refusePack c else enterPhase c (tablePhase c)

/-- Re-evaluation under Table 06-3: the phase only moves backward (R175); a cell below V_REF whose disagreement waits for
its classification does not refuse the pack yet (R208). -/
def reevaluate (c : Core) : Core :=
  if c.chg.phase = .none then c
  else if cellRefused c then (if c.cel.disagree then c else refusePack c)
  else if (tablePhase c).rank < c.chg.phase.rank then enterPhase c (tablePhase c)
  else c

/-- The first Charge decision after a period in Reservoir (R175, R184). -/
def chargeDecision (c : Core) : Core :=
  match c.life.mode with
  | .reservoir => { c with chg := { c.chg with wasRes := true, qTerm := 0, qRch := 0 } }
  | .charge =>
    if c.chg.wasRes then
      let c := { c with chg := { c.chg with wasRes := false, qTerm := 0, qRch := 0 } }
      if chargerDecides c then reevaluate c else c
    else c
  | _ => c

/-- The active input was lost and a new one is active: a timer fault ends (Table 06-4 row 4). -/
def timerFaultEnds (c : Core) : Core :=
  if c.chg.timerFault then clearActive { c with chg := { c.chg with timerFault := false } } 0x0404 0 else c

/-- An input becomes active while none was (R172, Table 06-4): a timer fault ends and a cycle starts. -/
def inputBecomesActive (c : Core) : Core := cycleStart (timerFaultEnds c)

/-- A restart order (R188): a timer fault and "pack did not warm" end, and a new cycle starts.  DEDUCED (log entry 124): the
heater time clears with "pack did not warm"; at t_HTR it would bar every further request (R180). -/
def chargeRestart (c : Core) : Core :=
  let c := clearActive (clearActive c 0x0404 0) 0x0406 0
  cycleStart { c with chg := { c.chg with timerFault := false, noWarm := false, tHtr := 0 } }

/-- A qualification count after one evaluation: one more while its condition holds, 0 once it breaks (R171).
A time of n evaluations has run at the one n beyond the first, as in Table 05-6 step 6. -/
def qualify (b : Bool) (n : Nat) : Nat := if b then n + 1 else 0

/-- The pack current that is compared with I_TERM: the pair's total while attached (Table 06-2). -/
def termCurrent (c : Core) (iPackAvg : Int) : Int := if c.attached then iPackAvg + c.twn.isp else iPackAvg

/-- The threshold condition that the phase leaves by (Table 06-2). -/
def phaseHolds (c : Core) : Bool :=
  match c.chg.phase with
  | .cond => decide (c.maq.pack.vCond * 10 ≤ lowCell c)
  | .pre => decide (c.maq.pack.vPre * 10 ≤ lowCell c)
  | .bulk => c.loop.gov == .kind5
  | _ => false

/-- The pack current is below I_TERM in Constant voltage; time in Reservoir does not count (Table 06-2, R184). -/
def termHolds (c : Core) (iPackAvg : Int) : Bool :=
  c.chg.phase == .cv && c.life.mode != .reservoir && decide (termCurrent c iPackAvg < (c.maq.pack.iTerm * 10 : Nat))

/-- The average cell is low enough for a maintenance recharge in Termination (R174, R184). -/
def rechHolds (c : Core) : Bool :=
  c.chg.phase == .term && c.life.mode != .reservoir
    && decide (avgCell c < min c.maq.pack.vRech (vFltEff c - 50) * 10)

/-- The lowest cell stands far below the pre-charge threshold in Bulk or later (R175). -/
def backHolds (c : Core) : Bool :=
  decide (3 ≤ c.chg.phase.rank) && decide (lowCell c + 1000 ≤ c.maq.pack.vPre * 10)

/-- The phase and its counts are held: suspension (R177), and a transfer in progress (R183). -/
def phaseHeld (c : Core) : Bool :=
  suspended c || (match c.path.xfer with | some x => x.out.isSome | none => false)

/-- The qualification counts of one evaluation (R171): a condition that breaks restarts its time, also while the phase is
held; a held count does not run on. -/
def countStep (c : Core) (iPackAvg : Int) : Core :=
  let q := fun (b : Bool) (n : Nat) => if phaseHeld c then (if b then n else 0) else qualify b n
  { c with chg := { c.chg with
      qPh := q (phaseHolds c) c.chg.qPh, qTerm := q (termHolds c iPackAvg) c.chg.qTerm
      qRch := q (rechHolds c) c.chg.qRch, qBack := q (backHolds c) c.chg.qBack
      qBal := if c.chg.phase == .balTop && !phaseHeld c then c.chg.qBal + 1 else c.chg.qBal } }

/-- Phase transitions of one evaluation, from its counts (Table 06-2, R173–R175). -/
def phaseStep (c : Core) : Core :=
  if 101 ≤ c.chg.qBack then reevaluate { c with chg := { c.chg with qBack := 0 } }
  else
    match c.chg.phase with
    | .none => c
    | .cond => if 101 ≤ c.chg.qPh then enterPhase c .pre else c
    | .pre => if 101 ≤ c.chg.qPh then enterPhase c .bulk else c
    | .bulk => if decide (101 ≤ c.chg.qPh) || decide (vFltEff c * 10 ≤ highCell c) then enterPhase c .cv else c
    | .cv =>
      if 3001 ≤ c.chg.qTerm then
        enterPhase c (if c.maq.cell.balance && decide (c.maq.cell.balStart * 10 ≤ cellSpread c)
          then .balTop else .term)
      else c
    | .balTop =>
      if cellSpread c < c.maq.cell.balStop * 10 then enterPhase c .term
      else if 1440000 ≤ c.chg.qBal then
        enterPhase { c with chg := { c.chg with balEnds := satNat 16 (c.chg.balEnds + 1) } } .term
      else c
    | .term =>
      if 1001 ≤ c.chg.qRch then cycleStart { c with chg := { c.chg with recharges := satNat 16 (c.chg.recharges + 1) } }
      else c

/-- Timers of one evaluation: they count in Charge, unsuspended, in the on part of the pattern (R176). -/
def timerStep (c : Core) : Core :=
  if c.life.mode == .charge && !suspended c && !c.chg.restOff then
    match c.chg.phase with
    | .cond | .pre => { c with chg := { c.chg with tPre := c.chg.tPre + 10 } }
    | .bulk | .cv => { c with chg := { c.chg with tBulk := c.chg.tBulk + 10 } }
    | _ => c
  else c

/-- The heater request to the duty-1 channel, where there is one (R180–R182): time counts while it stands and clears at entry to P1. -/
def heaterStep (c : Core) : Core :=
  let warm := decide (1 ≤ c.thm.packApp) && decide (c.thm.packApp ≤ 5)
  let c := if warm && c.chg.noWarm then
      clearActive { c with chg := { c.chg with noWarm := false } } 0x0406 0 else c
  let h := (c.maq.lsw.toList.any fun l => l.present && l.duty == 1) && c.thm.packApp == 0 && c.path.active.isSome && merged c 5 == 0 && !chargerFault c
  { c with chg := { c.chg with
      heater := h
      tHtr := if warm then 0 else if c.chg.heater then c.chg.tHtr + 10 else c.chg.tHtr } }

/-- The charger asks the vault to refuse and recall return grants where returned current raises the pack above its share
or its voltage target (R185); Termination has no voltage target (Table 06-2).  DESIGN CHOICE (log entry 125): current counts
as returned while return levels stand delivered. -/
def askStep (c : Core) (iPackAvg : Int) : Core :=
  let back := decide (0 < c.vlt.ret.g)
  { c with chg := { c.chg with
      askRefuse := c.chg.refuseReturn
        || (back && (decide ((packShare c : Int) < iPackAvg) || (c.chg.phase != .term && decide (c.chg.vTgt < c.meas.vpack)))) } }

/-- An entry into a band during Bulk starts the rest pattern with its on part (R178). -/
def restStep (c : Core) : Core :=
  { c with chg := { c.chg with
      lastBand := c.thm.packApp
      restOff := c.chg.restOff && c.chg.lastBand == c.thm.packApp && c.chg.phase == .bulk
        && (packEntry c).restOn != 0 } }

/-- CHARGE_EVALUATION (R171): every 10 ms with the pack current of the last 100 ms; the phase is held
during suspension and a transfer (R177, R183), and an attached Follow takes the Lead's (R187). -/
def execChargeEvaluation (iPackAvg : Int) (s : State) : Res :=
  onRun s fun c =>
    let c := { c with meas := { c.meas with ispAvg := iPackAvg } }
    let c := askStep c iPackAvg
    if !chargerDecides c then c
    else
      let c := heaterStep (restStep c)
      let c := if c.chg.newCycle && c.path.active.isSome then cycleStart c else c
      let c := countStep c iPackAvg
      timerStep (if phaseHeld c then c else phaseStep c)

/-- CHARGE_TIMER_EXPIRY (R176, Table 06-4 row 4). -/
def execChargeTimerExpiry (s : State) : Res :=
  onCoreIf s (fun c => inRun c && chargerDecides c && decide (1 ≤ c.chg.phase.rank)
      && decide (c.chg.phase.rank ≤ 4)) fun c =>
    fault { c with chg := { c.chg with timerFault := true } } 0x0404 0

/-- REST_PATTERN_EDGE (R178): Bulk alternates where the band carries a rest pattern. -/
def execRestPatternEdge (s : State) : Res :=
  onCoreIf s (fun c => inRun c && chargerDecides c && c.chg.phase == .bulk && (packEntry c).restOn != 0)
    fun c => { c with chg := { c.chg with restOff := !c.chg.restOff } }

/-- HEATER_TIME_LIMIT (R181): the request is withdrawn and "pack did not warm" latched. -/
def execHeaterTimeLimit (s : State) : Res :=
  onCoreIf s (fun c => inRun c && chargerDecides c && c.chg.heater) fun c =>
    fault { c with chg := { c.chg with heater := false, noWarm := true } } 0x0406 0

/-- PACK_CURRENT_ABOVE_SHARE (Table 06-4 row 5): charging is suspended while the latch is active. -/
def execPackCurrentAboveShare (s : State) : Res :=
  onRun s fun c => fault c 0x0405 0

/-- What the pack current target of the pair may move by in one merge tick, mA: 2 A per ms of each controller's share, as
Table 06-6 step 6 has it (R169, log entry 123). -/
def slewStep (c : Core) : Nat := if c.attached then 40 else 20

/-- The targets of a merge tick (R150, R166, R167, R169): the current moves within its slew, a lowered voltage target below
the pack holds it at 0, and the Linear BATFET takes no more than P_LIN allows; a transfer holds the targets (R183). -/
def chargeTargets (c : Core) : Core :=
  if (match c.path.xfer with | some x => x.out.isSome | none => false) then c
  else
    let v := packVTgt c
    let low := (decide (v < c.chg.vTgt) || c.chg.vLow) && decide (v < c.meas.vpack)
    let c := { c with chg := { c.chg with vTgt := v, vFlt := vFltEff c, vLow := low } }
    let goal := packTarget c
    let d := slewStep c
    let i := if goal < c.chg.iTgt then max goal (c.chg.iTgt - d) else min goal (c.chg.iTgt + d)
    { c with chg := { c.chg with iTgt := i, iShare := linearCap c (pairShare c i) } }

end Sys2Proof.Machine
end

