-- ==== Sys2Proof/Machine/Path.lean ====
section
/-! DEFINITION. The power path (chapter 05): qualification, selection, break-before-make transfers, the
BATFET, the start of an export, and the path in Safe Hold (R108). -/

namespace Sys2Proof.Machine

/-! ### Inputs (R135–R140) -/

/-- The path of an input is declared present (PATH flags). -/
def inputPresent (c : Core) : Inp → Bool
  | .main => c.maq.path.main | .pda => c.maq.path.pda | .pdb => c.maq.path.pdb

/-- An input serves as the export port, or its pair is not yet off after an export (R157). -/
def isExportPort (c : Core) (i : Inp) : Bool :=
  (match c.path.export_ with | some e => e.port.inp == i | none => false)
    || (match c.path.exOff with | some p => p.inp == i | none => false)

/-- A port holds an explicit sink contract without Capability Mismatch (R378, R381), in effect since a merge tick (R34). -/
def sinkContract (g : PdG) : Bool :=
  g.att == .sink && (match g.eff with | some k => !k.mismatch | none => false)

/-- An input may qualify now (R135–R137, R157, R164). -/
def mayQualify (c : Core) (i : Inp) : Bool :=
  inRun c && inputPresent c i && !(c.path.inp i).iso && !(c.path.inp i).trq && !(c.path.inp i).flt && !isExportPort c i
    && (match i with
      | .main => true
      | .pda => sinkContract (c.port .a)
      | .pdb => sinkContract (c.port .b))

/-- The standing priority order (R140): merged slot 0x0001, a 0 position skipped. -/
def priority (c : Core) : List Inp := (prioCodes (BitVec.ofNat 8 (merged c 0))).filterMap inpOfCode

/-- An input can be selected (R138). -/
def selectable (c : Core) (i : Inp) : Bool :=
  (c.path.inp i).qual && !(c.path.inp i).iso && !isExportPort c i

/-- `best` of R138. -/
def bestInput (c : Core) : Option Inp := (priority c).find? (selectable c)

/-- Place of an input in the standing order; one that it does not name ranks last. -/
def rankOf (c : Core) (i : Inp) : Nat := (priority c).findIdx (· == i)

/-- VCIN stands at or below the incoming input's voltage plus 0.5 V (Table 05-2 step 3). -/
def drained (c : Core) (i : Inp) : Bool := decide (c.meas.vcin ≤ inpVolt c.meas i + 500)

/-- The incoming pair's turn-on begins, with the converter parked (R142), or waits for the drain. -/
def incomingOn (c : Core) (x : Xfer) : Core :=
  if drained c x.inc then
    let c := setPair (stagePark c) x.inc true
    { c with path := { c.path with xfer := some { x with step := .inOn } } }
  else { c with path := { c.path with xfer := some { x with step := .drain } } }

/-- A turn-on with no input active (R138). -/
def beginTurnOn (c : Core) (i : Inp) : Core := incomingOn c { out := none, inc := i, step := .outOff }

/-- A transfer begins (R141): outgoing pair off, BATFET fully on; from Linear the floor is suspended until
an input is active again (R158).  `loss`: the active input was lost. -/
def beginTransfer (c : Core) (out inc : Inp) (loss : Bool) : Core :=
  let lin := c.path.batfet == .linear
  let c := batfetFull (pairOff c out)
  { c with path := { c.path with
      xfer := some { out := some out, inc := inc, step := .outOff, loss := loss }
      floorSusp := lin, collapsed := false } }

/-- The active input is gone with none to follow: pair off, converter parked, BATFET fully on (R138,
R149); from Linear the floor is suspended (R158). -/
def noInput (c : Core) (i : Inp) : Core :=
  let lin := c.path.batfet == .linear
  let c := batfetFull (stagePark (pairOff c i))
  { c with
    path := { c.path with
      active := none, xfer := none, floorSusp := lin || (c.path.xfer.isSome && c.path.floorSusp), collapsed := false }
    life := { c.life with pathDriven := true } }

/-- The path may select: nothing holds its gates, and the role lets it run (Table 17-2). -/
def pathFree (c : Core) : Bool :=
  !c.path.held && c.twn.role != .fenced && c.twn.role != .detached && c.twn.role != .none

/-- Selection at a merge tick (R138); no pair turns on before the one commanded off is confirmed off (R16). -/
def selectInput (c : Core) : Core :=
  if !pathFree c || c.path.export_.isSome || c.path.exOff.isSome || c.path.xfer.isSome then c
  else
    match c.path.active, bestInput c with
    | none, some b => if c.path.offWait.isSome then c else beginTurnOn c b
    | none, none => c
    | some a, b =>
      if !selectable c a then
        match b with
        | some b => beginTransfer c a b true
        | none => noInput c a
      else
        match b with
        | some b => if b != a && decide (rankOf c b < rankOf c a) && packCanHold c then beginTransfer c a b false else c
        | none => c

/-! ### Export start (R154, R162, Table 05-4) -/

/-- The path asks for a direction: the stage is parked for it, and takes it while it is Parked (R214, R256). -/
def setDirection (c : Core) (rev : Bool) : Core :=
  let c := stagePark c
  takeDirection { c with gdr := { c.gdr with dirWant := rev } }

/-- Table 05-4 steps 2 and 3: converter parked, then in reverse with the export pair off. -/
def exportReverse (c : Core) : Core :=
  match c.path.export_ with
  | some e =>
    let c := { c with
      path := { c.path with export_ := some { e with step := .ramp } }
      life := { c.life with pathDriven := true } }
    stageUnpark (setDirection c true)
  | none => c

/-- Table 05-4 step 1: input pair off, BATFET fully on; an export requested during a transfer waits
(R162).  The port reads not qualified, and qualifies afresh once its export has ended (R157). -/
def exportBegin (c : Core) (e : Export) : Core :=
  if c.path.xfer.isSome then { c with path := { c.path with exportWait := some e } }
  else
    let off := c.path.active.isSome || c.path.offWait.isSome
    let c := match c.path.active with | some i => pairOff c i | none => c
    let c := batfetFull c
    let c := { c with
      path := { c.path.updInp e.port.inp fun x => { x with qual := false, pairInClose := true } with
        active := none, exportWait := none, collapsed := false, export_ := some { e with step := .outOff } }
      life := { c.life with pathDriven := true } }
    if off then c else exportReverse c

/-- A waiting export starts once the transfer has ended (R162). -/
def exportWaiting (c : Core) : Core :=
  match c.path.exportWait with
  | some e => if c.path.xfer.isNone then exportBegin c e else c
  | none => c

/-! ### Loss and requalification (R135–R137, R161) -/

/-- An input is lost (R161): it acts at once.  The active one transfers or ends, an incoming one ends its
transfer without an active input, and an export that waited for its end starts (R162). -/
def inputLost (c : Core) (i : Inp) : Core :=
  let c := { c with path := c.path.updInp i fun x => { x with qual := false } }
  match c.path.xfer with
  | some x => if x.inc = i then exportWaiting (noInput c i) else c
  | none => if c.path.active = some i then selectInput c else c

/-- MAIN_QUALIFIED (R135). -/
def execMainQualified (s : State) : Res :=
  onCoreIf s (fun c => mayQualify c .main) fun c =>
    { c with path := c.path.updInp .main fun x => { x with qual := true } }

/-- MAIN_DISQUALIFIED (R135); not judged while MAIN exports (R157). -/
def execMainDisqualified (s : State) : Res :=
  onCoreIf s (fun c => inRun c && !isExportPort c .main) fun c => inputLost c .main

/-- FAST_INPUT_OVERVOLTAGE_TRIP (R135, R137, R157): MAIN is disqualified, its pair goes off, t_RQ runs, and a MAIN export
ends. -/
def execFastInputOvervoltageTrip (s : State) : Res :=
  onRun s fun c =>
    let c := { c with path := c.path.updInp .main fun x => { x with qual := false, trq := true } }
    match c.path.export_ with
    | some e => if e.port = .main then exportEnd c true else c
    | none => inputLost (pairOff c .main) .main

/-- PD_INPUT_QUALIFIED (R136). -/
def execPdInputQualified (port : PdId) (s : State) : Res :=
  onCoreIf s (fun c => mayQualify c (pdInp port)) fun c =>
    { c with path := c.path.updInp (pdInp port) fun x => { x with qual := true } }

/-- PD_INPUT_DISQUALIFIED (R136). -/
def execPdInputDisqualified (port : PdId) (s : State) : Res :=
  onCoreIf s (fun c => inRun c && !isExportPort c (pdInp port)) fun c => inputLost c (pdInp port)

/-- REQUALIFICATION_DELAY_END (R137). -/
def execRequalificationDelayEnd (i : Inp) (s : State) : Res :=
  onRun s fun c => { c with path := c.path.updInp i fun x => { x with trq := false } }

/-! ### Transfer (Table 05-2) and the path in Safe Hold (R108) -/

/-- Safe Hold: GBT is off, so GPM turns on, and phase 1 starts under its analog control: from the SYS voltage present, with
the 20 mV limit at the MAIN shunt (R231, R257, Table 04-4).  The converter stays stopped after a KLN loss and while the PWM
PLL is not locked (R37, R38). -/
def safeHoldStart (c : Core) : Core :=
  let c := setPair c .main true
  let go := !c.life.klnLost && c.life.pwmLock && !inChisel c.gdr
  let c := { c with path := { c.path with
    gbtWait := false, shConv := go, active := some .main, shSoft := min c.meas.vsys 36000 } }
  if go then
    { c with gdr := { c.gdr with
      st := .switching
      ph := vupd c.gdr.ph 0 fun p => { p with st := .run, backstop := true, bsClamp := 20000 } } }
  else c

/-- Safe Hold: MAIN is qualified and nothing holds the path gates, so GBT goes off; GPM and the converter wait for its
confirmation (R108). -/
def safeHoldMain (c : Core) : Core :=
  { c with path := { c.path with gbtWait := true, shGpmWait := false, batfet := .off } }

/-- Safe Hold: the path gates are free again, and Table 04-4 operation resumes (R58, R439). -/
def safeHoldResume (c : Core) : Core :=
  let c := { c with path := { c.path with held := false } }
  if (c.path.inp .main).qual then safeHoldMain c
  else { c with path := { c.path with batfet := if c.path.shTrip then .off else .full } }

/-- PAIR_CONFIRMED_OFF (R16, R141, R154, R156, R108): the sequence that waits goes on. -/
def execPairConfirmedOff (s : State) : Res :=
  onCore s fun c =>
    if inSafeHold c then
      if c.path.held then c
      else if c.path.gbtWait then safeHoldStart c
      else if c.path.shGpmWait then
        { c with path := { c.path with shGpmWait := false, batfet := if c.path.shTrip then .off else .full } }
      else c
    else if !inRun c then c
    else
      let c := { c with path := { c.path with offWait := none } }
      match c.path.exOff with
      | some p =>
        let c := book c p.acct .supply fun x => { x with lower := 0 }
        exportWaiting (setDirection { c with path := { c.path with exOff := none } } false)
      | none =>
        match c.path.export_, c.path.xfer with
        | some e, _ => if e.step = .outOff then exportReverse c else c
        | none, some x => if x.step = .outOff then incomingOn c x else c
        | none, none => c

/-- VCIN_DRAIN_END (R142). -/
def execVcinDrainEnd (s : State) : Res :=
  onRun s fun c =>
    match c.path.xfer with
    | some x =>
      if x.step = .drain then
        let c := setPair (stagePark c) x.inc true
        { c with path := { c.path with xfer := some { x with step := .inOn } } }
      else c
    | none => c

/-- An input is active where none was: path-driven (R23), the BATFET leaves its undervoltage opening
(R152), and a charge cycle starts (R172). -/
def becameActive (c : Core) : Core :=
  let c := if c.path.uvOpen then
      { c with path := { c.path with uvOpen := false, batfet := if c.path.linFault then .off else .linear } } else c
  inputBecomesActive { c with life := { c.life with pathDriven := true } }

/-- PAIR_CONFIRMED_ON (Table 05-2 step 4): the incoming input is active and its limit ramps from 0. -/
def execPairConfirmedOn (s : State) : Res :=
  onRun s fun c =>
    match c.path.xfer with
    | some x =>
      if x.step = .inOn then
        let c := { c with path := { c.path with
          active := some x.inc, iLim := 0, limRamp := none, floorSusp := false, xfer := some { x with step := .ramp } } }
        let c := stageUnpark c
        if x.out.isNone then becameActive c else if x.loss then timerFaultEnds c else c
      else c
    | none => c

/-- TRANSFER_COMPLETE (Table 05-2 step 5, R183): full limit; after a transfer the pack current target
ramps from 0. -/
def execTransferComplete (s : State) : Res :=
  onRun s fun c =>
    match c.path.xfer with
    | some x =>
      if x.step = .ramp then
        let c := { c with
          path := { c.path with
            xfer := none, iLim := inputLimit c x.inc, floorSusp := false
            xferCnt := if x.out.isSome then satNat 16 (c.path.xferCnt + 1) else c.path.xferCnt }
          chg := if x.out.isSome then { c.chg with iTgt := 0, iShare := 0 } else c.chg }
        exportWaiting c
      else c
    | none => c

/-- A fault of the pair of an input: disqualified until its Probe passed and t_RQ has run (R164; log entry 122). -/
def pairFault (c : Core) (i : Inp) : Core :=
  { c with path := c.path.updInp i fun x => { x with qual := false, trq := true, flt := true } }

/-- TRANSFER_BOUND_EXPIRY (R144, Table 05-5 row 4): the incoming pair off, its input disqualified for t_RQ. -/
def execTransferBoundExpiry (s : State) : Res :=
  onRun s fun c =>
    match c.path.xfer with
    | some x =>
      if x.step = .ramp then c
      else
        let c := noInput (pairFault { c with path := { c.path with xferAbt := satNat 16 (c.path.xferAbt + 1) } } x.inc) x.inc
        exportWaiting (fault c 0x0204 (BitVec.ofNat 8 (inpIx x.inc + 1)))
    | none => c

/-! ### Faults and the BATFET (Tables 05-3 and 05-5) -/

/-- Every path gate commanded off and held so until the stage restarts (Table 05-5, R58). -/
def pathGatesOff (c : Core) (batfet : Batfet) : Core :=
  let c := allPairsOff c
  { c with
    path := { c.path with
      active := none, xfer := none, held := true, batfet := batfet, collapsed := false, offWait := none }
    life := { c.life with pathDriven := true } }

/-- The path pair that waits to be confirmed off (R164): the one commanded off, or that of an ended export. -/
def pairWaiting (c : Core) : Option Inp := c.path.offWait.or (c.path.exOff.map ExPort.inp)

/-- PAIR_NOT_CONFIRMED_OFF (Table 05-5 row 3): Chisel Off, every path gate off, BATFET fully on. -/
def execPairNotConfirmedOff (s : State) : Res :=
  onRun s fun c =>
    match pairWaiting c with
    | some i =>
      let c := fault (pairFault (exportEnd c true) i) 0x0203 (BitVec.ofNat 8 (inpIx i + 1))
      pathGatesOff (chiselAll c 3 0) .full
    | none => c

/-- REVERSE_CURRENT_TRIP (Table 05-5 row 1): pair off, t_RQ, then R138. -/
def execReverseCurrentTrip (s : State) : Res :=
  onRun s fun c =>
    match c.path.active with
    | some i => inputLost (fault (pairFault (pairOff c i) i) 0x0201 (BitVec.ofNat 8 (inpIx i + 1))) i
    | none => c

/-- BATFET_LINEAR_ENTRY (Table 05-3); after a SYS collapse the way back to Linear is that of R159. -/
def execBatfetLinearEntry (s : State) : Res :=
  onCoreIf s (fun c => inRun c && c.path.active.isSome && c.path.xfer.isNone && c.path.batfet == .full
      && !c.path.held && !c.path.collapsed) fun c =>
    { c with path := { c.path with batfet := if c.path.linFault then .off else .linear } }

/-- BATFET_FULLY_ON (R151): a Linear BATFET goes fully on, and one that a SYS collapse drove fully on stays so. -/
def execBatfetFullyOn (s : State) : Res :=
  onCoreIf s (fun c => inRun c && (c.path.batfet == .linear || (c.path.batfet == .full && c.path.collapsed))) fun c =>
    batfetFull { c with path := { c.path with collapsed := false } }

/-- SYS_COLLAPSE (R159, R588): counted; a Linear BATFET goes fully on, an Off one stays off. -/
def execSysCollapse (s : State) : Res :=
  onCoreIf s (fun c => inRun c && c.path.active.isSome && c.path.batfet != .full) fun c =>
    let c := { c with path := { c.path with collapse := satNat 16 (c.path.collapse + 1) } }
    if c.path.batfet == .linear then batfetFull { c with path := { c.path with collapsed := true } }
    else { c with path := { c.path with floorSusp := true } }

/-- COLLAPSE_RECOVERY (R159). -/
def execCollapseRecovery (s : State) : Res :=
  onCoreIf s (fun c => inRun c && c.path.collapsed && c.path.active.isSome && c.path.batfet == .full) fun c =>
    { c with path := { c.path with batfet := .linear, collapsed := false } }

/-- BATFET_UNDERVOLTAGE_OPENING (R152): the 100 ms have passed. -/
def execBatfetUndervoltageOpening (s : State) : Res :=
  onCoreIf s (fun c => (inRun c || c.life.st == .dormant) && c.path.active.isNone && c.path.batfet == .full
      && undervoltage c) fun c =>
    { c with path := { c.path with batfet := .off, uvOpen := true } }

/-- BATFET_NOT_OFF (Table 05-5 row 5): Chisel Off, all input pairs off. -/
def execBatfetNotOff (s : State) : Res :=
  onCoreIf s (fun c => stageLive c && c.path.batfet == .off) fun c =>
    let c := chiselAll (fault c 0x0205 0) 3 0
    pathGatesOff c c.path.batfet

/-- BATFET_DROP_FAULT (Table 05-5 row 6): charging and Reservoir discharge stop. -/
def execBatfetDropFault (s : State) : Res :=
  onCoreIf s (fun c => inRun c && c.path.batfet == .full) fun c =>
    fault { c with path := { c.path with dropFault := true } } 0x0206 0

/-- LINEAR_DISSIPATION_FAULT (Table 05-5 row 7): BATFET off, linear charging stopped. -/
def execLinearDissipationFault (s : State) : Res :=
  onCoreIf s (fun c => inRun c && c.path.batfet == .linear) fun c =>
    fault { c with path := { c.path with batfet := .off, linFault := true } } 0x0207 0

/-- VCP_UNDERVOLTAGE (Table 05-5 row 8): Chisel Off, every path gate off. -/
def execVcpUndervoltage (s : State) : Res :=
  onCoreIf s stageLive fun c =>
    pathGatesOff (chiselAll (fault c 0x0208 0) 3 0) .off

/-- EXPORT_VCIN_REACHED (Table 05-4 step 4). -/
def execExportVcinReached (s : State) : Res :=
  onRun s fun c =>
    match c.path.export_ with
    | some e =>
      if e.step = .ramp then
        let c := setPair c e.port.inp true
        { c with path := { c.path with export_ := some { e with step := .pairOn } } }
      else c
    | none => c

/-- EXPORT_FLOOR_TIMEOUT (R156). -/
def execExportFloorTimeout (s : State) : Res :=
  onRun s fun c => exportEnd c true

/-- SAFE_HOLD_MAIN_QUALIFIED (R108): GBT off; GPM and the converter wait for its confirmation.  Where the path gates are
held low, that action wins (R58). -/
def execSafeHoldMainQualified (s : State) : Res :=
  onCoreIf s (fun c => inSafeHold c && !(c.path.inp .main).qual) fun c =>
    let c := { c with path := c.path.updInp .main fun x => { x with qual := true } }
    if c.path.held then c else safeHoldMain c

/-- SAFE_HOLD_MAIN_LOST (R108): converter stopped, GPM off; GBT waits for its confirmation. -/
def execSafeHoldMainLost (s : State) : Res :=
  onCoreIf s (fun c => inSafeHold c && (c.path.inp .main).qual) fun c =>
    let c := setPair c .main false
    { c with
      path := { c.path.updInp .main fun x => { x with qual := false } with
        shConv := false, gbtWait := false, shGpmWait := !c.path.held, active := none }
      gdr := { c.gdr with
        st := .stopped, ph := vupd c.gdr.ph 0 fun p => if p.st == .run then { p with st := .off } else p } }

/-- SAFE_HOLD_BATFET_TRIP (Table 04-4): open until Reset. -/
def execSafeHoldBatfetTrip (s : State) : Res :=
  onCoreIf s inSafeHold fun c => { c with path := { c.path with batfet := .off, shTrip := true } }

/-! ### What a merge tick does on the path -/

/-- The floor setpoint moves toward the merged value at 1 V/ms, 10 mV a tick (R153). -/
def floorStep (c : Core) : Core :=
  let goal := merged c 1
  let f := c.path.floorSet
  { c with path := { c.path with
      floorSet := if goal < f then max goal (f - 10) else min goal (f + 10) } }

/-- The value on a straight ramp from `v` to `full`, `t` of `n` steps on. -/
def rampAt (v full t n : Nat) : Nat :=
  if v ≤ full then v + (full - v) * t / n else v - (v - full) * t / n

/-- The input limit setpoint in force: the active input's (R146); an incoming limit ramps from 0 over the 100 µs of
Table 05-2 step 5, and a take-over over 1 ms (R163), each in equal steps (log entry 121). -/
def limitStep (c : Core) : Core :=
  match c.path.active, c.path.xfer with
  | some i, none =>
    let full := inputLimit c i
    match c.path.limRamp with
    | some (v, t) =>
      { c with path := { c.path with
        iLim := rampAt v full (min 100 (t + 1)) 100, limRamp := if t + 1 < 100 then some (v, t + 1) else none } }
    | none => { c with path := { c.path with iLim := full } }
  | some i, some x =>
    let full := inputLimit c i
    if x.step = .ramp then { c with path := { c.path with iLim := min full (c.path.iLim + ceilDiv full 10) } } else c
  | _, _ => c

/-- With an input active and the BATFET Off, SYS stands below the floor by more than its tolerance (R588, Table 05-1). -/
def floorShort (c : Core) : Bool :=
  c.path.active.isSome && c.path.batfet == .off && decide (c.meas.vsys * 100 < c.path.floorSet * 99)

/-- The floor is suspended while no input is active after a loss with the BATFET Linear (R158), and while the input cannot
hold it with the BATFET Off (R588). -/
def floorSuspStep (c : Core) : Core :=
  { c with path := { c.path with
      floorSusp := floorShort c || (c.path.floorSusp
        && (c.path.active.isNone || (match c.path.xfer with | some x => x.step != .ramp | none => false))) } }

end Sys2Proof.Machine
end

