-- ==== Sys2Proof/Machine/LoadSwitch.lean ====
section
/-! DEFINITION. The protected load switch channels (chapter 15): requests and orders, protection, open
load, free-wheel path, and the start stagger. -/

namespace Sys2Proof.Machine

/-- Maquette entry of a channel. -/
def lswCfg (c : Core) (n : Nat) : MqLsw := vget c.maq.lsw n {}

/-- One channel. -/
def lswCh (c : Core) (n : Nat) : LswCh := vget c.lsw.ch n {}

/-- One channel changed. -/
def updLsw (c : Core) (n : Nat) (f : LswCh → LswCh) : Core :=
  { c with lsw := { c.lsw with ch := vupd c.lsw.ch n f } }

/-- The fan request of R408: a band above S0 or B0, an invalid one counting as S3 or B2. -/
def fanWanted (c : Core) : Bool := decide (1 ≤ c.thm.stageApp) || decide (1 ≤ c.thm.boardApp)

/-- An internal on request of a channel: LSWC flag [3], the heater, the fan (R407). -/
def lswInternal (c : Core) (n : Nat) : Bool :=
  (lswCh c n).flag3 || ((lswCfg c n).duty == 1 && c.chg.heater) || ((lswCfg c n).duty == 2 && fanWanted c)

/-- A forced-off condition or a state out of service stands (R407, R411, R415–R421). -/
def lswForced (c : Core) (n : Nat) : Bool :=
  let x := lswCh c n
  x.curTrip || x.thTrip || x.retryDly || x.openOn || x.openOff || x.shortSup || x.noWheel || x.fault
    || x.iso || x.minOff || x.kiln || c.lsw.uv || !inRun c

/-- A channel is to be on (R407): its merged slot 0x0010–0x0017 carries requests and orders. -/
def lswWanted (c : Core) (n : Nat) : Bool :=
  (lswCfg c n).present && merged c (6 + n) != 0 && !lswForced c n

/-- A channel turned off; an inductive one keeps its minimum off time (R411). -/
def LswCh.off (x : LswCh) (inductive_ : Bool) : LswCh :=
  { x with on := false, startWait := false, limiting := false, minOff := x.minOff || (inductive_ && x.on) }

/-- Channel `n` turned off. -/
def lswOff (c : Core) (n : Nat) : Core := updLsw c n fun x => x.off (lswCfg c n).inductive_

/-- Every channel turned off. -/
def lswAllOff (c : Core) : Core := (List.range 8).foldl lswOff c

/-- The channel states a merge tick decides (R407, R411): several that turn on start in turn (R425). -/
def lswStep (c : Core) : Core :=
  let fan := fun n (x : LswCh) => { x with fan := (lswCfg c n).duty == 2 && fanWanted c }
  let c := { c with lsw := { c.lsw with ch := vmap fan c.lsw.ch } }
  let c := (List.range 8).foldl (fun c n =>
    if ((lswCh c n).on || (lswCh c n).startWait) && !lswWanted c n then lswOff c n else c) c
  let new_ := (List.range 8).filter fun n => lswWanted c n && !(lswCh c n).on && !(lswCh c n).startWait
  let busy := (List.range 8).any fun n => (lswCh c n).startWait
  let go := fun n (x : LswCh) =>
    if new_.contains n then
      (if !busy && new_.head? == some n then { x with on := true } else { x with startWait := true })
    else x
  { c with lsw := { c.lsw with ch := vmap go c.lsw.ch } }

/-- CHANNEL_START_STAGGER (R425): 200 µs on, the next waiting channel starts. -/
def execChannelStartStagger (s : State) : Res :=
  onRun s fun c =>
    match (List.range 8).find? fun n => (lswCh c n).startWait with
    | some n => updLsw c n fun x => { x with startWait := false, on := true }
    | none => c

/-- The Kiln Guard turns off every channel whose duty is not 2 (R417). -/
def lswKiln (c : Core) : Core :=
  (List.range 8).foldl (fun c n =>
    if (lswCfg c n).duty == 2 then c else updLsw (lswOff c n) n fun x => { x with kiln := true }) c

/-- The channels follow R407 again (R417). -/
def lswRelease (c : Core) : Core :=
  { c with lsw := { c.lsw with ch := vmap (fun _ x => { x with kiln := false }) c.lsw.ch } }

/-- A latched fault of a channel: off, and latched with its row (Table 15-2). -/
def lswFault (c : Core) (row n : Nat) : Core :=
  let c := updLsw (lswOff c n) n fun x => { x with fault := true, row := row }
  fault c (BitVec.ofNat 16 (0x0E00 + row)) (BitVec.ofNat 8 (n + 1))

/-- A trip of a channel that is on (R413–R415, R423, R426): off, the retry delay runs, and with the retries
used up its fault is latched.  A thermal fault's Probe waits until the channel has cooled. -/
def lswTrip (c : Core) (n : Nat) (thermal : Bool) : Core :=
  let x := lswCh c n
  if x.noWheel then c
  else
    let asked := merged c (6 + n) != 0
    let c := updLsw (lswOff c n) n fun x => { x with
      curTrip := x.curTrip || !thermal, thTrip := x.thTrip || thermal, hot := x.hot || thermal
      retries := if asked then x.retries else x.retries + 1 }
    if x.retries < (lswCfg c n).retries then updLsw c n fun x => { x with retryDly := true }
    else if thermal then
      let c := updLsw c n fun x => { x with fault := true, row := 2 }
      faultWith c 0x0E02 (BitVec.ofNat 8 (n + 1)) .c .pending false 3 0
    else lswFault c 1 n

/-- Channels whose gate reads other than commanded at a merge tick: each off, and its fault latched once while it stands
(Table 15-2 row 7). -/
def lswGateStep (bad : BitVec 8) (c : Core) : Core :=
  (List.range 8).foldl (fun c n =>
    if bad.getLsbD n && (lswCfg c n).present && !(lswCh c n).fault && !(lswCh c n).iso then lswFault c 7 n else c) c

/-- CURRENT_LIMIT_TIMEOUT (R413). -/
def execCurrentLimitTimeout (ch : Fin 8) (s : State) : Res :=
  onCoreIf s (fun c => (lswCh c ch.val).on) fun c => lswTrip c ch.val false

/-- SHORT_CIRCUIT_TRIP (R413). -/
def execShortCircuitTrip (ch : Fin 8) (s : State) : Res :=
  onCoreIf s (fun c => (lswCh c ch.val).on) fun c => lswTrip c ch.val false

/-- THERMAL_TRIP (R414). -/
def execThermalTrip (ch : Fin 8) (s : State) : Res :=
  onCoreIf s (fun c => (lswCh c ch.val).on) fun c => lswTrip c ch.val true

/-- A trip has run its course (R415): the trip flags clear, and turning on again counts as one retry. -/
def lswRetry (c : Core) (n : Nat) : Core :=
  updLsw c n fun x =>
    if x.retryDly || x.hot || x.fault || !(x.curTrip || x.thTrip) then x
    else { x with
      curTrip := false, thTrip := false
      retries := if merged c (6 + n) != 0 then x.retries + 1 else x.retries }

/-- RETRY_DELAY_END (R415). -/
def execRetryDelayEnd (ch : Fin 8) (s : State) : Res :=
  onRun s fun c => lswRetry (updLsw c ch.val fun x => { x with retryDly := false }) ch.val

/-- CHANNEL_COOLED (R415): a retry may follow, and the Probe of a latched thermal trip is queued. -/
def execChannelCooled (ch : Fin 8) (s : State) : Res :=
  onRun s fun c =>
    let x := lswCh c ch.val
    let c := updLsw c ch.val fun x => { x with hot := false }
    if x.hot && x.fault && x.row == 2 then queueProbe c 0x0E02 (BitVec.ofNat 8 (ch.val + 1))
    else lswRetry c ch.val

/-- TRIP_FREE_TIME (R415): 1 s on without a trip clears the retry count. -/
def execTripFreeTime (ch : Fin 8) (s : State) : Res :=
  onCoreIf s (fun c => (lswCh c ch.val).on) fun c => updLsw c ch.val fun x => { x with retries := 0 }

/-- LSWIN_UNDERVOLTAGE (R416). -/
def execLswinUndervoltage (s : State) : Res :=
  onRun s fun c => { lswAllOff c with lsw := { (lswAllOff c).lsw with uv := true } }

/-- LSWIN_RECOVERY (R416): the channels whose request stands turn on at the next merge tick. -/
def execLswinRecovery (s : State) : Res :=
  onRun s fun c => { c with lsw := { c.lsw with uv := false } }

/-- ON_STATE_OPEN_LOAD (R418). -/
def execOnStateOpenLoad (ch : Fin 8) (s : State) : Res :=
  onCoreIf s (fun c => (lswCh c ch.val).on && !(lswCh c ch.val).limiting) fun c =>
    lswFault (updLsw c ch.val fun x => { x with openOn := true }) 3 ch.val

/-- A Probe of a channel runs. -/
def lswProbing (c : Core) (n : Nat) : Bool :=
  c.flt.q.any fun x => x.running && x.code.toNat / 256 == 0x0E && x.inst.toNat == n + 1

/-- OFF_STATE_TEST (R419): short to supply above LSWIN − 1 V, open above V_OPEN, each latched once while it stands;
skipped while a Probe of the channel runs. -/
def execOffStateTest (ch : Fin 8) (outMv : Nat) (s : State) : Res :=
  onCoreIf s (fun c => inRun c && (lswCfg c ch.val).present && !(lswCh c ch.val).on
      && (lswCfg c ch.val).duty != 5 && !c.lsw.uv && !lswProbing c ch.val) fun c =>
    let x := lswCh c ch.val
    let c := updLsw c ch.val fun x => { x with testPass := false }
    if c.meas.lswin < outMv + 1000 then
      if x.shortSup then c else lswFault (updLsw c ch.val fun x => { x with shortSup := true }) 5 ch.val
    else if 3000 < outMv then
      if x.openOff then c else lswFault (updLsw c ch.val fun x => { x with openOff := true }) 4 ch.val
    else updLsw c ch.val fun x => { x with testPass := true }

/-- MISSING_FREE_WHEEL_PATH (R421, R426): off until the next start, lasting at once. -/
def execMissingFreeWheelPath (ch : Fin 8) (s : State) : Res :=
  onCoreIf s (fun c => inRun c && (lswCfg c ch.val).present && !(lswCh c ch.val).on) fun c =>
    let c := updLsw c ch.val fun x => { x with noWheel := true, fault := true, row := 6, retryDly := false }
    faultLasting c 0x0E06 (BitVec.ofNat 8 (ch.val + 1))

/-- MINIMUM_OFF_TIME_END (R411). -/
def execMinimumOffTimeEnd (ch : Fin 8) (s : State) : Res :=
  onRun s fun c => updLsw c ch.val fun x => { x with minOff := false }

/-- The flag [3] request ends once an off order is merged for the channel (R407). -/
def lswFlagStep (c : Core) : Core :=
  { c with lsw := { c.lsw with ch := vmap (fun n x =>
      let s := vget c.ord.s (6 + n) {}
      if s.host == some 0 || s.sup == some 0 then { x with flag3 := false } else x) c.lsw.ch } }

end Sys2Proof.Machine
end

