-- ==== Sys2Proof/Machine/Tokens.lean ====
section
/-! DEFINITION. What the vault does to one account: its limits, the messages that carry its levels
(R346, Table 12-5), and the token movements of Table 13-2. -/

namespace Sys2Proof.Machine

/-! ### Accounts -/

/-- Tokens that cover a voltage (mV) at a current (mA), rounded up (R366, R386). -/
def tokensFor (mv ma : Nat) : Nat := ceilDiv (mv * ma) 500000

/-- Ceiling of an internal account (R366): the contract power, or export voltage × I_EXP_M. -/
def internalCeil (c : Core) (a : Nat) : Nat :=
  if a = 4064 then max (c.port .a).asked (c.port .a).backing
  else if a = 4065 then max (c.port .b).asked (c.port .b).backing
  else
    match c.path.export_, c.path.exportWait with
    | some e, _ => tokensFor e.volt (c.maq.path.iExp * 10)
    | none, some e => tokensFor e.volt (c.maq.path.iExp * 10)
    | none, none => tokensFor (merged c 22) (c.maq.path.iExp * 10)

/-- Largest level of an account: ceiling less floor (R347). -/
def acctHead (c : Core) (a : Nat) : Nat :=
  if 4064 ≤ a then internalCeil c a else (c.acctCfg a).ceil - (c.acctCfg a).floor

/-- Weight in force of an account (R350, R366). -/
def acctWeight (c : Core) (a : Nat) : Nat :=
  if 4064 ≤ a || (c.acctCfg a).weight = 0 then c.maq.valt.weight else (c.acctCfg a).weight

/-- Recall tier of an account (R354, R366). -/
def acctTier (c : Core) (a : Nat) : Nat := if 4064 ≤ a then 0 else (c.acctCfg a).tier

/-- One Plinth port. -/
def Core.plbPort (c : Core) (p : Nat) : PlbPort := vget c.plb.p p {}

/-- The partner at an address of a port. -/
def partnerOf (c : Core) (p addr : Nat) : Partner := kget {} addr (c.plbPort p).partners

/-- The partner at an address of a port changed. -/
def updPartner (c : Core) (p addr : Nat) (f : Partner → Partner) : Core :=
  updPlb c p fun g => { g with partners := kupd {} addr f g.partners }

/-- The partner that holds an account. -/
def acctPartner (c : Core) (a : Nat) : Partner := partnerOf c (acctPort a) (acctAddr a)

/-- Tokens of a record whose level the vault has named and the partner has not yet met or received. -/
def ColRec.granted (x : ColRec) : Nat := x.level + x.raise

/-! ### Messages (Tables 12-4 and 12-5) -/

/-- A message queued on a port; an Isolated port sends no frame, and one broadcast of a type waits at
most (R316, R329). -/
def queueMsg (c : Core) (p : Nat) (m : PlbMsg) : Core :=
  updPlb c p fun g =>
    if g.st == .isolated || (m.dest == 0xFF && g.queue.any fun x => x.dest == 0xFF && x.type == m.type) then g
    else { g with queue := g.queue ++ [m] }

/-- A message to an account. -/
def acctMsg (a : Nat) (type : Byte) (payload : List Byte) (col : Option Column) : PlbMsg :=
  { dest := BitVec.ofNat 8 (acctAddr a), type := type, idx := a % 4, payload := payload, col := col }

/-- GRANT (R346, R357). -/
def grantMsg (a : Nat) (k : Column) (tokens lease burst : Nat) (seq : Byte) (isBurst : Bool) : PlbMsg :=
  acctMsg a 0x06
    (toLe 2 tokens ++ toLe 2 lease ++ toLe 4 burst ++ [seq]
      ++ [BitVec.ofNat 8 (b2n (k == .ret) + 2 * b2n isBurst)] ++ toLe 2 0)
    (if isBurst then none else some k)

/-- RECALL of one account's supply level (R354). -/
def recallMsg (a tokens : Nat) : PlbMsg :=
  acctMsg a 0x09 (toLe 2 tokens ++ toLe 2 Config.tRd) (some .supply)

/-- DEFER sent to an account and counted (R352). -/
def sendDefer (c : Core) (a : Nat) (seq : Byte) (reason : Nat) : Core :=
  let c := { c with vlt := { c.vlt with nDefer := c.vlt.nDefer + 1 } }
  queueMsg c (acctPort a) (acctMsg a 0x07 [seq, BitVec.ofNat 8 reason] none)

/-- BURST_DENIED with the largest admissible energy (R357). -/
def sendDenied (c : Core) (a : Nat) (seq : Byte) (eMax : Nat) : Core :=
  let c := { c with vlt := { c.vlt with nDenied := c.vlt.nDenied + 1 } }
  queueMsg c (acctPort a) (acctMsg a 0x08 (toLe 4 eMax ++ [seq, 0, 0, 0]) none)

/-- THROTTLE to an account (R363). -/
def sendThrottle (c : Core) (a level : Nat) : Core :=
  queueMsg c (acctPort a) (acctMsg a 0x0A (toLe 2 level ++ toLe 2 c.maq.thrm.grace) none)

/-- A broadcast SHED frame with its cause (R323). -/
def sendShedFrame (c : Core) (p cause : Nat) : Core :=
  queueMsg c p { dest := 0xFF, type := 0x0B, payload := [BitVec.ofNat 8 cause, 0] }

/-- A message is a GRANT of this account in this column, not a burst. -/
def isGrantOf (a : Nat) (k : Column) (m : PlbMsg) : Bool :=
  m.type == 0x06 && m.col == some k && m.dest == BitVec.ofNat 8 (acctAddr a) && m.idx == a % 4

/-- The undelivered GRANT of an account and column withdrawn (R370): one that was never attempted gives
its tokens back at once, one that was holds them in transit until its time ends (Table 13-2). -/
def withdrawGrant (c : Core) (a : Nat) (k : Column) : Core :=
  let g := c.plbPort (acctPort a)
  let tried := (g.queue.any fun m => isGrantOf a k m && decide (0 < m.tries))
    || (match g.await with | some m => isGrantOf a k m | none => false)
  let c := updPlb c (acctPort a) fun g => { g with
    queue := g.queue.filter fun m => !isGrantOf a k m
    await := g.await.map fun m => if isGrantOf a k m then { m with col := none, tries := 3 } else m }
  if tried then c else book c a k fun x => { x with raise := 0 }

/-! ### Movements (Table 13-2) -/

/-- A level named to an account: a rise goes from F into transit, a fall from G into transit. -/
def ColRec.aim (x : ColRec) (target : Nat) : ColRec :=
  if x.level ≤ target then { x with raise := max x.raise (target - x.level) }
  else { x with level := target, lower := x.lower + (x.level - target) }

/-- What of a lowering had not been delivered is delivered now: it waits for t_RD (Table 13-2). -/
def ColRec.delivered (x : ColRec) : ColRec :=
  let n := x.lower - sumBy id x.done
  if n = 0 then x else { x with done := x.done ++ [n] }

/-- Tokens in transit down as `n`: with none left no recall is outstanding. -/
def ColRec.lowerTo (x : ColRec) (n : Nat) : ColRec := { x with lower := n, recalled := x.recalled && n != 0 }

/-- A lowering whose t_RD has passed returns its tokens, the oldest first; at an Isolated port, 2 ms after its
SHED line is asserted, all of them (Table 13-2). -/
def ColRec.lowerEnd (x : ColRec) (isolated : Bool) : ColRec :=
  match x.done with
  | n :: r => { x.lowerTo (x.lower - n) with done := r }
  | [] => if isolated then x.lowerTo 0 else x

/-- A GRANT queued that sets an account's level in a column (R346). -/
def grantLevel (c : Core) (a : Nat) (k : Column) (target : Nat) (seq : Byte) : Core :=
  let c := book (withdrawGrant c a k) a k fun x => x.aim target
  queueMsg c (acctPort a) (grantMsg a k target c.maq.valt.lease 0 seq false)

/-- Sequence of the last request of a column, as a lowering names it. -/
def AcctRec.seqOf (r : AcctRec) (k : Column) : Byte :=
  match k with
  | .supply => r.supSeq.getD 0 | .ret => r.retSeq.getD 0

/-- The export of an internal account ended under R156, or a backed one that still waits given up (R162). -/
def exportStop (c : Core) (a : Nat) (hr : Bool) : Core :=
  match c.path.export_, c.path.exportWait with
  | some e, _ => if e.port.acct = a then exportEnd c hr else c
  | none, some e =>
    if e.port.acct = a then
      let c := book { c with path := { c.path with exportWait := none } } a .supply fun x => { x with level := 0 }
      match e.port.pd with
      | some p => if hr then pdExportEnd c p else c
      | none => c
    else c
  | none, none => c

/-- Tokens an internal account's export needs: its power as it stands, and that of a contract that stands or is to come
(R366, R402). -/
def exportNeed (c : Core) (a : Nat) : Nat :=
  let of := fun (k : Option PdContract) => match k with | some k => tokensFor (k.v50 * 50) (k.i10 * 10) | none => 0
  let now := match c.path.export_, c.path.exportWait with
    | some e, _ | none, some e => if e.port.acct = a then tokensFor e.volt e.limit else 0
    | none, none => 0
  let g := c.port (if a = 4064 then .a else .b)
  if a = 4066 then now else Nat.max now (Nat.max (of g.contract) (of g.trans))

/-- A level lowered by recall (R354): RECALL for supply, a lowering GRANT for return; an internal
account below its export power ends the export, and at or above it the contract stands (R366, R402). -/
def recallTo (c : Core) (a : Nat) (k : Column) (target : Nat) : Core :=
  if 4064 ≤ a then
    if exportNeed c a ≤ target then book c a .supply fun x => { x with level := Nat.min x.level target }
    else exportStop c a true
  else
    match k with
    | .supply =>
      let c := book (withdrawGrant c a .supply) a .supply fun x =>
        { x.aim (min x.level target) with recalled := x.recalled || decide (target < x.level) }
      queueMsg c (acctPort a) (recallMsg a target)
    | .ret =>
      let down := decide (target < (c.vlt.acct a).ret.level)
      book (grantLevel c a .ret target ((c.vlt.acct a).seqOf .ret)) a .ret fun x =>
        { x with recalled := x.recalled || down }

/-- The accounts of a Plinth port that the vault records. -/
def portAccts (c : Core) (p : Nat) : List Nat :=
  acctsOf c fun a => decide (a < 4064) && acctPort a == p

/-- Every supply and return level of a list of accounts taken to 0, in transit (R354). -/
def lowerAll (c : Core) (as : List Nat) : Core :=
  as.foldl (fun c a =>
    let c := book (withdrawGrant c a .supply) a .supply ColRec.release
    book (withdrawGrant c a .ret) a .ret ColRec.release) c

/-- A broadcast RECALL with tokens kept 0xFFFF on a port (R354): every account to its floor. -/
def recallPort (c : Core) (p : Nat) : Core :=
  let mark := fun (x : ColRec) => { x with recalled := decide (0 < x.lower) }
  let c := lowerAll c (portAccts c p)
  queueMsg (bookAll (bookAll c (portAccts c p) .supply mark) (portAccts c p) .ret mark) p
    { dest := 0xFF, type := 0x09, payload := toLe 2 0xFFFF ++ toLe 2 Config.tRd, col := some .supply }

/-- The accounts of one partner. -/
def partnerAccts (p addr : Nat) : List Nat := (List.range 4).map (acctNo p addr)

/-- A partner Absent or barred: its levels go into transit until its leases end (Table 13-2). -/
def dropPartner (c : Core) (p addr : Nat) : Core :=
  let c := lowerAll c ((partnerAccts p addr).filter fun a => c.vlt.recs.any fun r => r.1 == a)
  updPlb c p fun g => { g with queue := g.queue.filter fun m => m.dest != BitVec.ofNat 8 addr }

/-- A recall is outstanding on a port: its tokens are still in transit (R355). -/
def recallOutstanding (c : Core) (p : Nat) : Bool :=
  let out := fun (x : ColRec) => x.recalled && decide (0 < x.lower)
  c.vlt.recs.any fun r => decide (r.1 < 4064) && acctPort r.1 == p && (out r.2.sup || out r.2.ret)

/-! ### Throttled levels (R362) -/

/-- Throttled level of an account at the BEACON level q. -/
def throttledAt (c : Core) (a q : Nat) : Nat :=
  if 4064 ≤ a then q * internalCeil c a / 100
  else q * (c.acctCfg a).ceil / 100 - (c.acctCfg a).floor

/-- Throttled level of an account now. -/
def throttled (c : Core) (a : Nat) : Nat := throttledAt c a c.vlt.q

/-- The vault keeps its accounts here: a Lead, not an attached Follow, and not a role without a vault
(Table 17-2). -/
def keepsVault (c : Core) : Bool := c.twn.role == .lead

end Sys2Proof.Machine
end

