-- ==== Sys2Proof/Machine/Pd.lean ====
section
/-! DEFINITION. The USB-C ports (chapter 14): terminations and attach, sink contracts, the source in
Return with its backing, VCONN and the cable, the vendor alternate mode, moisture, and the port faults. -/

namespace Sys2Proof.Machine

/-! ### Port kind, readiness and termination (R374, R375, R383) -/

/-- Maquette block of a port. -/
def pdCfg (c : Core) (p : PdId) : MqPd := vget c.maq.pd (pdIx p) {}

/-- The other port. -/
def otherPd : PdId → PdId
  | .a => .b | .b => .a

/-- Export port of a Type-C port. -/
def exPort : PdId → ExPort
  | .a => .pda | .b => .pdb

/-- An export stands or is being started on another port of the controller (R383, R401). -/
def exportElsewhere (c : Core) (p : PdId) : Bool :=
  (match c.path.export_ with | some e => e.port != exPort p | none => false)
    || (match c.path.exportWait with | some e => e.port != exPort p | none => false)
    || (c.vlt.askBack.any fun x => x.1 != pdAcct p)

/-- Source ready (R383), and no earlier than t_SR after a Hard Reset (R388). -/
def sourceReady (c : Core) (p : PdId) : Bool :=
  let g := c.port p
  (pdCfg c p).present && (pdCfg c p).source && inRun c && merged c (14 + pdIx p) == 1 && !exportElsewhere c p
    && c.path.active != some (pdInp p) && !g.damp && !g.iso && !g.hold && !g.srWait
    && decide (15 ≤ c.vlt.bMax)

/-- Rp level of R384. -/
def rpLevel (c : Core) : CcTerm := if 30 ≤ c.vlt.bMax then .rp30 else .rp15

/-- Current of an Rp level, mA. -/
def CcTerm.ma : CcTerm → Nat
  | .rp30 => 3000 | .rp15 => 1500 | _ => 0

/-- Termination of a port (Table 14-3, R390): of an unattached port by kind and readiness, in Dormant by kind alone (R376), of a source
under contract SinkTxOK, or SinkTxNG while a sequence waits. -/
def pdTerm (c : Core) (p : PdId) : Core :=
  let k := pdCfg c p
  let rdy := sourceReady c p
  let lvl := rpLevel c
  updPd c p fun g =>
    let g := { g with ready := rdy }
    match g.att with
    | .unattached =>
      if c.life.st == .dormant then { g with cc := if k.present && k.sink then .rd else .open_, toggling := false }
      else if !k.present || !inRun c then { g with cc := .open_, toggling := false }
      else if k.sink && k.source && rdy then
        { g with toggling := true, cc := if g.toggling && g.cc != .rd then lvl else .rd }
      else if k.sink then { g with cc := .rd, toggling := false }
      else { g with cc := if rdy then lvl else .open_, toggling := false }
    | .sink => { g with cc := .rd, toggling := false }
    | .source =>
      { g with toggling := false, cc := if g.contract.isNone then g.cc else if g.txWait then .rp15 else .rp30 }
    | _ => { g with cc := .open_, toggling := false }

/-- The contract of a sink port is gone: its input is disqualified at once (R136, R380, R381). -/
def sinkLost (c : Core) (p : PdId) : Core :=
  if (c.port p).att == .sink then inputLost c (pdInp p) else c

/-- A port leaves its partner for an attach state without one: export, contract, VCONN and mode end, CC
stands open (R377, R388, R397, R53). -/
def pdLeave (c : Core) (p : PdId) (att : Attach) : Core :=
  let c := sinkLost (exportStop c (pdAcct p) false) p
  let c := altExit c p
  updPd (dropAsk c p) p fun g => { g.clear with
    att := att, cc := .open_, toggling := false, ready := false, vconn := false, cable5 := false }

/-- ErrorRecovery with CC open for t_ER (R384, R388). -/
def errorRecovery (c : Core) (p : PdId) : Core := pdLeave c p .errorRecovery

/-- A received message is counted. -/
def pdCount (c : Core) (p : PdId) : Core := updPd c p fun g => { g with nRecv := g.nRecv + 1 }

/-- A message received by an attached port in Run. -/
def onPd (s : State) (p : PdId) (f : Core → Core) : Res :=
  onCoreIf s (fun c => inRun c && ((c.port p).att == .sink || (c.port p).att == .source)) fun c => f (pdCount c p)

/-! ### Attach and detach (R375–R377, R384) -/

/-- Fault code of a row of Table 14-5 on a port (R286). -/
def pdFaultCode (p : PdId) (row : Nat) : BitVec 16 := BitVec.ofNat 16 ((0x10 + pdIx p) * 256 + row)

/-- A port may source VCONN (R391). -/
def mayVconn (c : Core) (p : PdId) (vconnin : Bool) : Bool := (pdCfg c p).vconn && vconnin && !faultActive c (pdFaultCode p 3) 0

/-- CC_ATTACH (R375, R384, R392): a sink attaches as sink; a source asks for its backing at the next
merge tick and, where it may, turns VCONN on and asks the cable. -/
def execCcAttach (port : PdId) (asSource cc2 vconnin : Bool) (s : State) : Res :=
  onCoreIf s (fun c => inRun c && (c.port port).att == .unattached && (c.port port).cc != .open_
      && (if asSource then (c.port port).ready else (pdCfg c port).sink)) fun c =>
    if asSource then
      let lvl := if (c.port port).cc == .rd then rpLevel c else (c.port port).cc
      let v := mayVconn c port vconnin
      let c := updPd c port fun g => { g with
        att := .source, cc := lvl, cc2 := cc2, toggling := false, waitBack := true
        asked := tokensFor 5000 lvl.ma, vconn := v, cable5 := false, cableWait := v }
      if v then pdSend c port .discoverIdentitySop1 else c
    else updPd c port fun g => { g with att := .sink, cc := .rd, cc2 := cc2, toggling := false }

/-- CC_DETACH (R377). -/
def execCcDetach (port : PdId) (s : State) : Res :=
  onCoreIf s (fun c => inRun c && ((c.port port).att == .sink || (c.port port).att == .source)) fun c =>
    pdTerm (pdLeave c port .unattached) port

/-- DRP_TOGGLE (Table 14-3). -/
def execDrpToggle (port : PdId) (s : State) : Res :=
  onCoreIf s (fun c => inRun c && (c.port port).toggling) fun c =>
    updPd c port fun g => { g with cc := if g.cc == .rd then rpLevel c else .rd }

/-! ### Sink policy (R378–R381) -/

/-- Place of the first fixed source object of a voltage. -/
def matchPdo (pdos : List PdoIn) (v : Nat) : Option (Nat × PdoIn) :=
  match pdos.findIdx? fun q => q.fixed && q.v50 == v with
  | some i => (pdos[i]?).map fun q => (i, q)
  | none => none

/-- The choice of R378 among the sink objects, in their listed order. -/
def chooseSink : List MqPdo → List PdoIn → Bool → Option PdContract
  | [], _, _ => none
  | w :: ws, pdos, epr =>
    match matchPdo pdos w.v with
    | some (i, q) => some { v50 := w.v, i10 := Nat.min w.i q.i10, pos := i + 1, epr := epr }
    | none => chooseSink ws pdos epr

/-- The request of R378: the choice, or object 1 at 100 mA with Capability Mismatch. -/
def sinkRequest (k : MqPd) (pdos : List PdoIn) (epr : Bool) : PdContract :=
  match chooseSink (if epr then k.eprPdo ++ k.spr else k.spr) pdos epr with
  | some r => r
  | none => { v50 := (pdos.headD { fixed := true, v50 := 100, i10 := 0 }).v50, i10 := 10, pos := 1
              epr := epr, mismatch := true }

/-- SOURCE_CAPABILITIES (R378, R379): the EPR list arrives in EPR mode only. -/
def execSourceCapabilities (port : PdId) (pdos : List PdoIn) (eprCapable eprList rev2 : Bool) (s : State) : Res :=
  onPd s port fun c =>
    if (c.port port).att != .sink then c
    else
      let epr := eprList && (pdCfg c port).epr && !rev2
      let r := sinkRequest (pdCfg c port) pdos epr
      let c := updPd c port fun g => { g with
        caps := pdos, capsEpr := eprCapable && !rev2, rev2 := rev2, epr := epr, want := some r }
      pdSend c port (.request r.pos r.i10 r.mismatch)

/-- EPR_KEEPALIVE (R379): sent every 375 ms; unanswered, the port returns to the SPR choice. -/
def execEprKeepalive (port : PdId) (answered : Bool) (s : State) : Res :=
  onCoreIf s (fun c => inRun c && (c.port port).att == .sink && (c.port port).epr) fun c =>
    let c := pdSend c port .eprKeepAlive
    if answered then pdCount c port else updPd c port fun g => { g with epr := false }

/-- PD_ACCEPT (R380): a contract of another voltage ends here. -/
def execPdAccept (port : PdId) (s : State) : Res :=
  onPd s port fun c =>
    match (c.port port).att, (c.port port).want with
    | .sink, some r =>
      let other := match (c.port port).contract with | some k => k.v50 != r.v50 | none => false
      let c := if other then sinkLost (updPd c port fun g => { g with contract := none, eff := none }) port else c
      updPd c port fun g => { g with want := none, trans := some r }
    | _, _ => c

/-- PS_RDY (R380, R379): the new contract, which CORE and its limit take over at the next merge tick (R34); an SPR contract with an EPR
capable source is followed by EPR_Mode (Enter). -/
def execPsRdy (port : PdId) (s : State) : Res :=
  onPd s port fun c =>
    match (c.port port).att, (c.port port).trans with
    | .sink, some r =>
      let c := updPd c port fun g => { g with contract := some r, trans := none }
      let g := c.port port
      if (pdCfg c port).epr && g.capsEpr && !r.epr && !g.epr then pdSend c port .eprEnter else c
    | _, _ => c

/-! ### Source in Return (R384–R389) -/

/-- Cable limit, 10 mA (R385). -/
def cableLimit (g : PdG) : Nat := if g.cable5 then 500 else 300

/-- The offer of R385: (50 mV, 10 mA) of each source object, 0 current = left out. -/
def offerOf (c : Core) (p : PdId) : List (Nat × Nat) :=
  let g := c.port p
  let uw := (c.vlt.bMax + g.backing) * 500000
  mapFrom (fun k (d : MqPdo) =>
    let i := Nat.min d.i (Nat.min (cableLimit g) (uw / Nat.max 1 (d.v * 50) / 10))
    if k = 0 then (d.v, Nat.max i (g.cc.ma / 10)) else if i < 50 then (d.v, 0) else (d.v, i)) 0 (pdCfg c p).src

/-- The objects of an offer that are sent, in order; their places are the object positions. -/
def offerSent (o : List (Nat × Nat)) : List (Nat × Nat) := o.filter fun x => x.2 != 0

/-- This port exports, its pair confirmed on. -/
def pdExporting (c : Core) (p : PdId) : Bool :=
  match c.path.export_ with | some e => e.port == exPort p && e.step == .active | none => false

/-- Source_Capabilities leave once VBUS stands at 5 V and the cable has been asked (R385, R392). -/
def sendOffer (c : Core) (p : PdId) : Core :=
  let g := c.port p
  if pdExporting c p && !g.cableWait && !g.capsSent then
    let o := offerOf c p
    pdSend (updPd c p fun g => { g with offer := o, capsSent := true }) p (.sourceCaps (offerSent o))
  else c

/-- EXPORT_PAIR_CONFIRMED_ON (Table 05-4 step 5): the limit is in force, and a PD port sends its offer. -/
def execExportPairConfirmedOn (s : State) : Res :=
  onRun s fun c =>
    match c.path.export_ with
    | some e =>
      if e.step = .pairOn then
        let c := { c with
          path := { c.path with export_ := some { e with step := .active } }
          life := { c.life with pathDriven := true } }
        match e.port.pd with | some p => sendOffer c p | none => c
      else c
    | none => c

/-- EXPORT_PAIR_NOT_CONFIRMED_ON (Table 14-5 row 5): the export is abandoned. -/
def execExportPairNotConfirmedOn (s : State) : Res :=
  onRun s fun c =>
    match c.path.export_ with
    | some e =>
      if e.step = .pairOn then
        match e.port.pd with
        | some p => fault (errorRecovery c p) (pdFaultCode p 5) 0
        | none => exportEnd c false
      else c
    | none => c

/-- The answer of the audit to a port's asked backing (R384, R386): an attach starts its export or goes
to ErrorRecovery; a Request is accepted or rejected. -/
def pdBacked (c : Core) (p : PdId) (ok : Bool) : Core :=
  let g := c.port p
  if g.waitBack then
    let c := updPd c p fun g => { g with waitBack := false }
    if ok then
      exportBegin (updPd c p fun g => { g with backing := g.asked })
        { port := exPort p, step := .outOff, volt := 5000, limit := g.cc.ma }
    else errorRecovery c p
  else
    match g.reqWait with
    | some r =>
      let c := updPd c p fun g => { g with reqWait := none }
      if ok then
        let c := pdSend c p .accept
        let c := updPd c p fun g => { g with trans := some r, stWait := true, backing := Nat.max g.backing g.asked }
        { c with path := { c.path with export_ := c.path.export_.map fun e =>
            { e with limit := Nat.min e.limit (r.i10 * 10) } } }
      else pdSend c p .reject
    | none => c

/-- PD_REQUEST (R386): an offered object within its current asks for its backing; else Reject. -/
def execPdRequest (port : PdId) (pos maxI10 : Nat) (s : State) : Res :=
  onPd s port fun c =>
    let g := c.port port
    if g.att != .source || !pdExporting c port then c
    else
      match (offerSent g.offer)[pos - 1]? with
      | some (v, i) =>
        if decide (1 ≤ pos) && decide (maxI10 ≤ i) && g.trans.isNone then
          let n := tokensFor (v * 50) (maxI10 * 10)
          let c := updPd c port fun g => { g with
            reqWait := some { v50 := v, i10 := maxI10, pos := pos }, asked := n }
          { c with vlt := { c.vlt with
              askBack := (c.vlt.askBack.filter fun x => x.1 != pdAcct port) ++ [(pdAcct port, n)] } }
        else pdSend c port .reject
      | none => pdSend c port .reject

/-- SOURCE_TRANSITION_DELAY_END (R387): VBUS moves toward the new voltage. -/
def execSourceTransitionDelayEnd (port : PdId) (s : State) : Res :=
  onCoreIf s (fun c => inRun c && pdExporting c port && (c.port port).stWait) fun c =>
    let v := match (c.port port).trans with | some r => r.v50 * 50 | none => 5000
    let c := updPd c port fun g => { g with stWait := false }
    { c with path := { c.path with export_ := c.path.export_.map fun e => { e with volt := v } } }

/-- The mode is offered on a port (R393). -/
def offersMode (c : Core) (p : PdId) : Bool :=
  let g := c.port p
  (pdCfg c p).altMode && (vget c.maq.plbs.ports 3 {}).present && c.maq.plbs.route && g.contract.isSome
    && !g.damp && !(c.port (otherPd p)).alt

/-- A message sequence of the source begins: SinkTxNG, and t_TX runs (R390). -/
def beginSequence (c : Core) (p : PdId) (m : PdMsg) : Core :=
  updPd c p fun g => { g with txWait := true, txQueue := g.txQueue ++ [m], cc := .rp15 }

/-- VBUS_TRANSITION_COMPLETE (R387, R394): PS_RDY, the new contract and its limit; as DFP the port then
looks for the vendor mode. -/
def execVbusTransitionComplete (port : PdId) (s : State) : Res :=
  onCoreIf s (fun c => inRun c && pdExporting c port && !(c.port port).stWait) fun c =>
    match (c.port port).trans with
    | some r =>
      let first := (c.port port).contract.isNone
      let c := pdSend c port .psRdy
      let c := updPd c port fun g => { g with contract := some r, trans := none, cc := if g.txWait then .rp15 else .rp30 }
      let c := { c with path := { c.path with export_ := c.path.export_.map fun e =>
          { e with limit := r.i10 * 10 } } }
      if first && offersMode c port then beginSequence c port .discoverIdentity else c
    | none => c

/-- HARD_RESET received (R381, R388). -/
def execHardReset (port : PdId) (s : State) : Res :=
  onCoreIf s (fun c => inRun c && ((c.port port).att == .sink || (c.port port).att == .source)) fun c =>
    let c := updPd c port fun g => { g with hrRecv := satNat 8 (g.hrRecv + 1), nRecv := g.nRecv + 1 }
    let c := altExit c port
    if (c.port port).att == .sink then updPd (sinkLost c port) port PdG.clear
    else
      let c := dropAsk (exportStop c (pdAcct port) false) port
      updPd c port fun g => { g.clear with discharge := true, srWait := true, vconn := false }

/-- VBUS_DISCHARGE_COMPLETE (R388): a port that sourced enters ErrorRecovery. -/
def execVbusDischargeComplete (port : PdId) (s : State) : Res :=
  onCoreIf s (fun c => (c.port port).discharge) fun c =>
    let c := updPd c port fun g => { g with discharge := false }
    if (c.port port).att == .source then errorRecovery c port else c

/-- ERROR_RECOVERY_END (R388): the port is judged afresh. -/
def execErrorRecoveryEnd (port : PdId) (s : State) : Res :=
  onCoreIf s (fun c => inRun c && (c.port port).att == .errorRecovery) fun c =>
    pdTerm (updPd c port fun g => { g with att := .unattached }) port

/-- SOURCE_RECOVERY_END (R388). -/
def execSourceRecoveryEnd (port : PdId) (s : State) : Res :=
  onRun s fun c => pdTerm (updPd c port fun g => { g with srWait := false }) port

/-- SINKTXNG_WAIT_END (R390): the waiting sequence goes out. -/
def execSinktxngWaitEnd (port : PdId) (s : State) : Res :=
  onCoreIf s (fun c => inRun c && (c.port port).txWait) fun c =>
    let c := (c.port port).txQueue.foldl (fun c m => pdSend c port m) c
    updPd c port fun g => { g with txWait := false, txQueue := [], cc := .rp30 }

/-! ### Swaps, capabilities, VDMs, BIST (Table 14-2) -/

/-- VCONN_SWAP (R391). -/
def execVconnSwap (port : PdId) (vconnin : Bool) (s : State) : Res :=
  onPd s port fun c =>
    if (c.port port).vconn then
      updPd (pdSend c port .accept) port fun g => { g with vconn := false, cable5 := false }
    else if mayVconn c port vconnin then updPd (pdSend c port .accept) port fun g => { g with vconn := true }
    else updPd (pdSend c port .reject) port fun g => { g with swapsRef := satNat 8 (g.swapsRef + 1) }

/-- A swap that is not supported (Table 14-2). -/
def refuseSwap (c : Core) (port : PdId) : Core :=
  updPd (pdSend c port .notSupported) port fun g => { g with swapsRef := satNat 8 (g.swapsRef + 1) }

/-- PR_SWAP (R373). -/
def execPrSwap (port : PdId) (s : State) : Res := onPd s port fun c => refuseSwap c port

/-- DR_SWAP (R373). -/
def execDrSwap (port : PdId) (s : State) : Res := onPd s port fun c => refuseSwap c port

/-- FR_SWAP (R373). -/
def execFrSwap (port : PdId) (s : State) : Res := onPd s port fun c => refuseSwap c port

/-- GET_SINK_CAP (R373). -/
def execGetSinkCap (port : PdId) (s : State) : Res :=
  onPd s port fun c =>
    if (pdCfg c port).sink then
      pdSend c port (.sinkCaps ((pdCfg c port).spr.map fun d => (d.v, d.i)))
    else pdSend c port .notSupported

/-- GET_SOURCE_CAP (R373). -/
def execGetSourceCap (port : PdId) (s : State) : Res :=
  onPd s port fun c =>
    if pdExporting c port then pdSend c port (.sourceCaps (offerSent (c.port port).offer))
    else pdSend c port .notSupported

/-- DISCOVER_IDENTITY (R394): as UFP answered; as DFP the partner's answer to the port's own. -/
def execDiscoverIdentity (port : PdId) (s : State) : Res :=
  onPd s port fun c =>
    if (c.port port).att == .sink then pdSend c port .ackIdentity
    else if offersMode c port then beginSequence c port .discoverSvids else c

/-- DISCOVER_SVIDS (R393, R394): as UFP the vendor SVID is listed where the mode is offered; as DFP the
partner's answer, `listed` telling whether it names the vendor SVID. -/
def execDiscoverSvids (port : PdId) (listed : Bool) (s : State) : Res :=
  onPd s port fun c =>
    if (c.port port).att == .sink then
      pdSend c port (.ackSvids (if offersMode c port then [Config.svid] else []))
    else if listed && offersMode c port then
      beginSequence (updPd c port fun g => { g with altListed := true }) port .discoverModes
    else c

/-- Mode VDO of Table 14-4. -/
def modeVdo (c : Core) : BitVec 32 :=
  BitVec.ofNat 32 (1 + 256 * b2n (vget c.maq.plbs.ports 3 {}).term)

/-- DISCOVER_MODES (R394). -/
def execDiscoverModes (port : PdId) (svid : BitVec 16) (s : State) : Res :=
  onPd s port fun c =>
    if (c.port port).att == .sink then
      pdSend c port (if svid == Config.svid && offersMode c port then .ackModes (modeVdo c) else .nak)
    else if svid == Config.svid && (c.port port).altListed && offersMode c port then
      beginSequence c port .enterMode
    else c

/-- The mode entered on a port: port 4 starts Active with TEC 0 (R338, R394). -/
def enterAlt (c : Core) (p : PdId) : Core :=
  let c := updPd c p fun g => { g with alt := true }
  updPlb c 3 fun g => { g with medium := true, st := .active, tec := 0 }

/-- ENTER_MODE (R393, R394). -/
def execEnterMode (port : PdId) (svid : BitVec 16) (s : State) : Res :=
  onPd s port fun c =>
    let ok := svid == Config.svid && offersMode c port
    if (c.port port).att == .sink then
      if ok then enterAlt (pdSend c port .ackEnter) port else pdSend c port .nak
    else if ok && (c.port port).altListed then enterAlt c port else c

/-- EXIT_MODE (R395). -/
def execExitMode (port : PdId) (svid : BitVec 16) (s : State) : Res :=
  onPd s port fun c =>
    if svid == Config.svid && (c.port port).alt then altExit (pdSend c port .ackExit) port
    else pdSend c port .nak

/-- UNSTRUCTURED_VDM (R373). -/
def execUnstructuredVdm (port : PdId) (s : State) : Res := onPd s port fun c => pdSend c port .notSupported

/-- BIST (Table 14-2): Carrier Mode is sent; Test Data is only received. -/
def execBist (port : PdId) (carrier : Bool) (s : State) : Res :=
  onPd s port fun c => if carrier then pdSend c port .bistCarrier else c

/-! ### Cable (R392) -/

/-- CABLE_IDENTITY_REPLY (R392). -/
def execCableIdentityReply (port : PdId) (fiveAmp : Bool) (s : State) : Res :=
  onCoreIf s (fun c => inRun c && (c.port port).cableWait) fun c =>
    sendOffer (updPd c port fun g => { g with
      cableWait := false, cable5 := fiveAmp && g.vconn, nRecv := g.nRecv + 1 }) port

/-- CABLE_DISCOVERY_TIMEOUT (R392). -/
def execCableDiscoveryTimeout (port : PdId) (s : State) : Res :=
  onCoreIf s (fun c => inRun c && (c.port port).cableWait) fun c =>
    sendOffer (updPd c port fun g => { g with cableWait := false, cable5 := false }) port

/-! ### Moisture and corrosion (R396–R399) -/

/-- Pin `k` (CC1, CC2, SBU1, SBU2) is measured (R396, R397). -/
def pinMeasured (g : PdG) (k : Nat) : Bool :=
  if !(g.att == .sink || g.att == .source) then true
  else if 2 ≤ k then !g.alt
  else !g.vconn && (if g.cc2 then k == 0 else k == 1)

/-- Entry to Damp (R397): the export ends without Hard Reset, CC opens, VBUS is discharged. A port out of
service stays so (Table 14-5 row 2). -/
def dampEntry (c : Core) (p : PdId) : Core :=
  let was := (c.port p).att == .source
  let c := recordCondition (pdLeave c p (if (c.port p).att == .outOfService then .outOfService else .damp))
  updPd c p fun g => { g with damp := true, dry := 0, dampSec := 0, discharge := was }

/-- MOISTURE_MEASUREMENT (R396, R397), in Run where PDPO flag [5] is set. -/
def execMoistureMeasurement (port : PdId) (kohm : Vector Nat 4) (s : State) : Res :=
  onCoreIf s (fun c => inRun c && (pdCfg c port).moisture && !(c.port port).iso) fun c =>
    let w := (pdCfg c port).wet
    let g := c.port port
    let rd := vmap (fun k r => if pinMeasured g k then satNat 16 r else vget g.kohm k 0) kohm
    let wet := vmap (fun k n => if pinMeasured g k && decide (vget kohm k 0 < w) then n + 1 else 0) g.wet
    let c := updPd c port fun g => { g with kohm := rd, wet := wet }
    if g.damp then
      let dry := if kohm.toList.all fun r => decide (2 * w < r) then g.dry + 1 else 0
      let c := updPd c port fun g => { g with dry := dry, dampSec := g.dampSec + 1 }
      if 10 ≤ dry then
        pdTerm (updPd c port fun g => { g with
          damp := false, corroded := false
          att := if g.att == .outOfService then .outOfService else .unattached }) port
      else c
    else if wet.toList.any fun n => decide (3 ≤ n) then dampEntry c port
    else c

/-- CORROSION_TIME (R397). -/
def execCorrosionTime (port : PdId) (s : State) : Res :=
  onCoreIf s (fun c => inRun c && (c.port port).damp && !(c.port port).corroded) fun c =>
    recordCondition (updPd c port fun g => { g with corroded := true })

/-! ### Faults (Table 14-5) -/

/-- VBUS_OVERVOLTAGE (row 1). -/
def execVbusOvervoltage (port : PdId) (s : State) : Res :=
  onCoreIf s (fun c => inRun c && pdExporting c port) fun c =>
    fault (updPd (exportEnd c true) port fun g => { g with hold := true }) (pdFaultCode port 1) 0

/-- The port's pins are watched in Run and in Dormant (R53, R114). -/
def pdWatched (c : Core) : Bool := inRun c || c.life.st == .dormant

/-- CC_SBU_OVERVOLTAGE (row 2, R53). -/
def execCcSbuOvervoltage (port : PdId) (s : State) : Res :=
  onCoreIf s (fun c => pdWatched c && (pdCfg c port).present && !(c.port port).iso) fun c =>
    fault (updPd (pdLeave c port .outOfService) port fun g => { g with ovClear := false })
      (pdFaultCode port 2) 0

/-- A port out of service returns once its pins are clear and its Probe has passed (row 2). -/
def pdReturn (c : Core) (p : PdId) : Core :=
  if (c.port p).att == .outOfService && (c.port p).ovClear && !faultActive c (pdFaultCode p 2) 0 then
    pdTerm (updPd c p fun g => { g with att := if g.damp then .damp else .unattached, ovClear := false }) p
  else c

/-- CC_SBU_OVERVOLTAGE_RECOVERY (row 2, R53). -/
def execCcSbuOvervoltageRecovery (port : PdId) (s : State) : Res :=
  onCoreIf s (fun c => pdWatched c && (c.port port).att == .outOfService) fun c =>
    pdReturn (updPd c port fun g => { g with ovClear := true }) port

/-- VCONN_TRIP (row 3). -/
def execVconnTrip (port : PdId) (s : State) : Res :=
  onCoreIf s (fun c => inRun c && (c.port port).vconn) fun c =>
    let c := sendOffer (updPd c port fun g => { g with vconn := false, cable5 := false, cableWait := false }) port
    fault c (pdFaultCode port 3) 0

/-- BMC_READBACK_MISMATCH (row 4, R405). -/
def execBmcReadbackMismatch (port : PdId) (s : State) : Res :=
  onCoreIf s (fun c => inRun c && ((c.port port).att == .sink || (c.port port).att == .source)) fun c =>
    fault (errorRecovery c port) (pdFaultCode port 4) 0

/-! ### What a merge tick does on the ports (R383, R389, R401) -/

/-- Attaches that wait for backing ask the vault, PDA first where both fall in one tick (R401). -/
def pdAsk (c : Core) (p : PdId) : Core :=
  let g := c.port p
  if g.waitBack && !(c.vlt.askBack.any fun x => x.1 == pdAcct p) then
    if exportElsewhere c p then pdTerm (pdLeave c p .unattached) p
    else { c with vlt := { c.vlt with askBack := c.vlt.askBack ++ [(pdAcct p, g.asked)] } }
  else c

/-- A merged source enable off ends the port's export (R389), or the attach that waits for its backing, whose
CC then stands open (Table 14-3); a waiting Request is rejected (R404). -/
def pdEnableOff (c : Core) (p : PdId) : Core :=
  if merged c (14 + pdIx p) == 1 then c
  else if (c.port p).waitBack then pdLeave c p .unattached
  else
    let c := if (c.port p).reqWait.isSome then pdSend c p .reject else c
    exportStop c (pdAcct p) true

/-- The ports at a merge tick: what the mailbox carries takes effect (R34), and a detach acted before it (R404). -/
def pdTick (c : Core) : Core :=
  let c := { c with pd := vmap (fun _ g => { g with eff := g.contract }) c.pd }
  let c := pdEnableOff (pdEnableOff c .a) .b
  let c := pdAsk (pdAsk c .a) .b
  pdTerm (pdTerm c .a) .b

end Sys2Proof.Machine
end

