-- ==== Sys2Proof/Machine/Vault.lean ====
section
/-! DEFINITION. The vault (chapter 13): the pools, the audit with its checks, recall, the service of
requests, bursts, throttling, export backing, and the vault's timed events. -/

namespace Sys2Proof.Machine

/-- The turn of a grid event (R41, R43): the oldest event that an earlier tick left unfinished, or the next of the present
tick; the lists without it, and whether it is one of the present tick. -/
def takeTurn (l : LifeG) (e : GridEvent) : Option (LifeG × Bool) :=
  if l.late.head? = some e then some ({ l with late := l.late.tail }, false)
  else if l.due.head? = some e then some ({ l with due := l.due.tail }, true)
  else none

/-- A grid event performed in its turn (R41); one whose turn it is not does not happen (log entry 4).  With the last event
of the present tick its image is complete and is published (R499, R544). -/
def onGrid (s : State) (e : GridEvent) (f : Core → Core) : Res :=
  if inRun s.core then
    match takeTurn s.core.life e with
    | some (l, now) =>
      let c := afterReset s.core (f { s.core with life := l })
      .next (if inRun c && now && c.life.due.isEmpty then publish { s with core := c } else { s with core := c })
    | none => .next s
  else .next s

/-! ### The pools (R342–R345) -/

/-- P_IN before its cap, µW: the active input's voltage times its limit setpoint at 95 %; during a transfer
the outgoing input's value stands (R342). -/
def pInRaw (c : Core) : Nat :=
  let held := match c.path.xfer with | some x => x.out.isSome | none => false
  if held then c.vlt.pIn
  else match c.path.active with
    | some i => 95 * (inpVolt c.meas i * c.path.iLim) / 100
    | none => 0

/-- P_IN, µW: capped at the stage cap, at 75 % of it in S3 (R342, Table 13-1). -/
def pInCapped (c : Core) : Nat :=
  Nat.min (pInRaw c) (stageCap c * 1000 * (if c.thm.stageApp = 3 then 75 else 100) / 100)

/-- A latched fault holds a positive sustain allowance at 0 (R343, Tables 05-5, 07-5 and 10-5). -/
def sustainHeld (c : Core) : Bool := c.vlt.noSustain || c.path.dropFault || twoUnknown c

/-- Sustain allowance S, tokens (R343, R372). -/
def sustain (c : Core) : Int :=
  let v := c.maq.valt
  let x : Int := max (-(10 * v.taper : Int)) (min (100 * v.taper : Int) ((c.cel.soc : Int) - 100 * v.reserve))
  let raw := Int.tdiv (v.sFull * x) (max 1 (100 * v.taper : Nat))
  if 0 < raw then
    if c.path.batfet != .full || c.thm.aboveP5 || !socUsable c || sustainHeld c then 0
    else
      let lim := dischargeCeil c * c.meas.vpack / 500000
      min raw ((if c.attached then lim / 2 else lim : Nat) : Int)
  else if c.path.active.isSome then raw else 0

/-- Own contribution K, tokens (R342). -/
def ownK (c : Core) : Nat := Nat.min (merged c 16) (((pInCapped c / 500000 : Nat) : Int) + sustain c).toNat

/-- Own share of L_LOC, tokens (R344). -/
def ownLoc (c : Core) : Nat := ceilDiv c.ldg.locAvg 500000

/-- A Plinth port is present (R308). -/
def portPresent (c : Core) (p : Nat) : Bool := (vget c.maq.plbs.ports p {}).present

/-- Sum of the floors of the active accounts of enrolled and Absent partners (R344). -/
def sumFloors (c : Core) : Nat :=
  sumBy (fun x => if (acctPartner c x.1).enrolled || (acctPartner c x.1).absent then x.2.floor else 0)
    c.maq.valt.accts

/-- Enrolled partners of a port that are not Absent. -/
def enrolledCount (c : Core) (p : Nat) : Nat :=
  ((c.plbPort p).partners.filter fun x => x.2.enrolled && !x.2.absent).length

/-- U (R344): expected partners that are not enrolled, over the present ports. -/
def unenrolled (c : Core) : Nat :=
  sumBy (fun p => if portPresent c p then (vget c.maq.plbs.ports p {}).expected - enrolledCount c p else 0)
    (List.range 4)

/-- P_FWD, µW (R345). -/
def pFwd (c : Core) : Nat := c.ldg.fwdAvg.toNat

/-- P_CH, µW (R345, R361). -/
def pCh (c : Core) : Nat :=
  if c.path.batfet == .full && !c.chg.askRefuse && !c.chg.refuseReturn then
    (((packShare c : Int) - c.meas.isp) * c.meas.vpack).toNat
  else 0

/-- P_EX, µW (R345). -/
def pEx (c : Core) : Nat :=
  match c.life.mode, c.path.export_ with
  | .return_, some e =>
    e.limit * e.volt - (inpCur c.meas e.port.inp).natAbs * inpVolt c.meas e.port.inp
  | _, _ => 0

/-- The pool of a column replaced; the change goes into F (R340). -/
def setPool (v : VltG) (k : Column) (pool : Nat) : VltG :=
  let t := v.tot k
  v.setTot k { t with pool := pool, f := t.f + ((pool : Int) - t.pool) }

/-- Step 1 of the audit (R341): contributions, margin and the two pools. -/
def recompute (c : Core) : Core :=
  let k := ownK c
  let loc := ownLoc c
  let kt := if c.attached then c.vlt.kTwin else 0
  let lt := if c.attached then c.vlt.lLocTwin else 0
  let rt := if c.attached then c.vlt.pRetTwin else 0
  let fl := sumFloors c
  let u := unenrolled c
  let m : Int := (k : Int) + kt - loc - lt - fl - 2 * u
  let ret := 9 * (pFwd c + pCh c + pEx c + rt * 1000) / 5000000
  let v := { c.vlt with
    k := k, lLoc := loc, floors := fl, u := u, margin := m, s := sustain c, pIn := pInRaw c }
  let v := setPool (setPool v .supply (if v.dead then 0 else m.toNat)) .ret (if v.dead then 0 else ret)
  { c with vlt := v }

/-! ### The checks (R341, Table 13-3) -/

/-- Sum of the delivered levels of a column. -/
def sumLevels (v : VltG) (k : Column) : Nat := sumBy (fun r => (r.2.col k).level) v.recs

/-- Sum of the tokens of a column in transit. -/
def sumTransit (v : VltG) (k : Column) : Nat := sumBy (fun r => (r.2.col k).transit) v.recs

/-- The sums and the invariant of one column hold (R339). -/
def columnOk (v : VltG) (k : Column) : Bool :=
  let t := v.tot k
  decide (t.g = (sumLevels v k : Int)) && decide (t.t = (sumTransit v k : Int))
    && decide (t.f + t.g + t.t = (t.pool : Int))

/-- First check of R341 that fails, 0 = none. -/
def auditFails (c : Core) (bad : List Nat) : Nat :=
  if !bad.isEmpty then 2
  else if !(columnOk c.vlt .supply && columnOk c.vlt .ret
      && c.vlt.recs.all fun r => decide (r.2.sup.level ≤ acctHead c r.1)) then 3
  else if c.vlt.eCommit != committedAt c.vlt c.vlt.commitAt then 4
  else 0

/-- Totals of a column rebuilt from the records (Table 13-3). -/
def rebuild (v : VltG) (k : Column) : VltG :=
  let t := v.tot k
  let g : Int := sumLevels v k
  let x : Int := sumTransit v k
  v.setTot k { t with g := g, t := x, f := (t.pool : Int) - g - x }

/-- Steps 2 to 4 of the audit: corruption is latched, nothing rises for 10 audits, the totals are rebuilt and
an account whose copies disagree goes to its floor; the twin's mirror masks it while attached (R460). -/
def auditChecks (c : Core) (bad : List Nat) : Core :=
  let n := auditFails c bad
  let c := { c with vlt := { c.vlt with
    pass := n == 0, failed := n, noRaise := if n = 0 then c.vlt.noRaise - 1 else 10 } }
  if n = 0 then c
  else
    let v := rebuild (rebuild c.vlt .supply) .ret
    let c := { c with vlt := { v with eCommit := committedAt v v.commitAt } }
    let c := if c.attached then c
      else bad.foldl (fun c a => recallTo (recallTo c a .supply 0) a .ret 0) c
    faultWith c 0x1301 0 .b .pending true 3 0

/-! ### Throttling (R362–R364) -/

/-- The throttle's pool level, %, or none (R362, R372). -/
def throttleLevel (c : Core) : Option Nat := minLevel (boardLevel c (boardVault c)) c.thm.lvlApp

/-- Sum of the levels as the BEACON level q would throttle them (R362). -/
def throttledSum (c : Core) (q : Nat) : Nat :=
  sumBy (fun r => Nat.min r.2.sup.level (throttledAt c r.1 q)) c.vlt.recs

/-- The largest whole percentage whose throttled levels fit P_T (R362). -/
def beaconLevel (c : Core) (pT : Nat) : Nat :=
  (List.range 101).foldl (fun best q => if throttledSum c q ≤ pT then q else best) 0

/-- Throttle of an audit (R362, R363, R365): entry or a fall of q sends THROTTLE and starts the grace. -/
def throttleStep (c : Core) : Core :=
  match throttleLevel c with
  | none => { c with vlt := { c.vlt with throt := false, grace := false, graceEnd := none, q := 0, pT := 0 } }
  | some l =>
    let pT := l * c.vlt.sup.pool / 100
    let q := beaconLevel c pT
    let enters := !c.vlt.throt || decide (q < c.vlt.q)
    let c := { c with vlt := { c.vlt with
      throt := true, q := q, pT := pT, grace := c.vlt.grace || enters
      graceEnd := if enters then none else c.vlt.graceEnd } }
    if enters then
      (acctsOf c fun a => decide (a < 4064)).foldl (fun c a =>
        if throttled c a < (c.vlt.acct a).sup.level then sendThrottle c a (throttled c a) else c) c
    else c

/-- Enforcement target I_T, mA (R364). -/
def enforceTarget (c : Core) : Nat :=
  let rate := sumBy (fun r => match r.2.burst with
    | some b => b.e * 1000000000 / Nat.max 1 b.d | none => 0) c.vlt.recs
  ((c.vlt.floors + 2 * c.vlt.u + c.vlt.pT) * 500000 + rate) / Nat.max 1 c.meas.vsys
    + sumBy (fun x => x.i) c.lsw.ch.toList / 10

/-! ### Recall (R353, R354) -/

/-- Largest w in [0, 2^n) above `acc` for which `ok` holds, bit by bit; `ok` holds at 0 and, once it fails,
fails above. -/
def searchUp (ok : Nat → Bool) : Nat → Nat → Nat
  | 0, acc => acc
  | n + 1, acc => searchUp ok n (if ok (acc + 2 ^ n) then acc + 2 ^ n else acc)

/-- floor(w × λ) for λ in Q16.16. -/
def scaled (w lam : Nat) : Nat := w * lam / 65536

/-- Deficit of a column that no lowering already covers (R353, log entry 14). -/
def deficit (v : VltG) (k : Column) : Nat :=
  (-(v.tot k).f).toNat - sumBy (fun r => (r.2.col k).lower) v.recs

/-- One tier lowered (R354): levels to min(G, floor(w × μ)) with the largest μ that clears `need`, to 0 where
none does. Answers the deficit left. -/
def recallTier (c : Core) (k : Column) (tier need : Nat) : Core × Nat :=
  let as := acctsOf c fun a => acctTier c a == tier && decide (0 < ((c.vlt.acct a).col k).level)
  let lvl := fun a => ((c.vlt.acct a).col k).level
  let cut := fun mu => sumBy (fun a => lvl a - scaled (acctWeight c a) mu) as
  let total := sumBy lvl as
  if need = 0 then (c, 0)
  else
    let mu := if total ≤ need then 0 else searchUp (fun m => decide (need ≤ cut m)) 32 0
    let c' := as.foldl (fun c a =>
      let n := scaled (acctWeight c a) mu
      if n < lvl a then recallTo c a k n else c) c
    (c', need - (if total ≤ need then total else cut mu))

/-- The tiers in order (R354). -/
def recallTiers (c : Core) (k : Column) : List Nat → Nat → Core
  | [], _ => c
  | t :: ts, need => let r := recallTier c k t need; recallTiers r.1 k ts r.2

/-- The deficit of a column carried or recalled (R353). -/
def recallStep (c : Core) (k : Column) : Core :=
  let t := c.vlt.tot k
  let d := deficit c.vlt k
  let set := fun (c : Core) (f : ColTot → ColTot) => { c with vlt := c.vlt.setTot k (f (c.vlt.tot k)) }
  if d = 0 then set c fun t => { t with carryOut := false, carrySince := none, recallNow := false }
  else if decide (d ≤ Nat.max 4 (t.pool * 2 / 100)) && !t.carryOut && !t.recallNow then
    set c fun t => { t with carrySince := some (t.carrySince.getD c.vlt.auditNo.toNat) }
  else
    recallTiers (set c fun t => { t with carryOut := false, carrySince := none, recallNow := false }) k
      [0, 1, 2, 3] d

/-- A margin that turns negative sends a broadcast RECALL on every present port (R356). -/
def marginStep (c : Core) (before : Int) : Core :=
  if decide (c.vlt.margin < 0) && decide (0 ≤ before) then
    ((List.range 4).filter (portPresent c)).foldl recallPort c
  else c

/-! ### Allocation (R350, R351) -/

/-- Demand of an account (R350). -/
def demand (x : ColRec) : Nat :=
  match x.req with | some r => Nat.max x.granted r.tokens | none => x.granted

/-- Accounts that hold a level or have a pending request. -/
def claimants (c : Core) (k : Column) : List Nat :=
  acctsOf c fun a => let x := (c.vlt.acct a).col k; decide (0 < x.granted) || x.req.isSome

/-- An entry put into a list that rises by a key. -/
def insertBy (key : Nat → Nat) (a : Nat) : List Nat → List Nat
  | [] => [a]
  | b :: r => if key b ≤ key a then b :: insertBy key a r else a :: b :: r

/-- Pending requests of a column, oldest first (R351). -/
def pendingReqs (c : Core) (k : Column) : List Nat :=
  let as := acctsOf c fun a => ((c.vlt.acct a).col k).req.isSome
  let no := fun (a : Nat) => match ((c.vlt.acct a).col k).req with | some r => r.no | none => 0
  as.foldl (fun l a => insertBy no a l) []

/-- The largest λ whose fair levels fit the pool (R350). -/
def fairLambda (c : Core) (k : Column) (pool : Nat) : Nat :=
  let as := claimants c k
  searchUp (fun l => decide (sumBy (fun a =>
    Nat.min (demand ((c.vlt.acct a).col k)) (scaled (acctWeight c a) l)) as ≤ pool)) 32 0

/-- One token more to each account below its demand, in order, while any is left (R350). -/
def handOut (dem : Nat → Nat) : Nat → List Nat → List (Nat × Nat) → List (Nat × Nat)
  | _, [], f => f
  | 0, _, f => f
  | n + 1, a :: as, f =>
    if kget 0 a f < dem a then handOut dem n as (kupd 0 a (· + 1) f) else handOut dem (n + 1) as f

/-- Fair levels of a column by account (R350), with its λ. -/
def fairLevels (c : Core) (k : Column) : Nat × List (Nat × Nat) :=
  let pool := if k == .supply && c.vlt.throt then c.vlt.pT else (c.vlt.tot k).pool
  let as := claimants c k
  let lam := fairLambda c k pool
  let dem := fun a => demand ((c.vlt.acct a).col k)
  let f := as.map fun a => (a, Nat.min (dem a) (scaled (acctWeight c a) lam))
  let first := pendingReqs c k
  let left := pool - sumBy Prod.snd f
  (lam, handOut dem left (first ++ as.filter fun a => !first.contains a) f)

/-- Raising grants to an account in a column are refused now (R337, R356, R361, Tables 12-7 and 13-3). -/
def raiseRefused (c : Core) (a : Nat) (k : Column) : Bool :=
  decide (0 < c.vlt.noRaise) || c.vlt.dead || (acctPartner c a).barred || (acctPartner c a).absent
    || (c.plbPort (acctPort a)).uncommanded || (c.plbPort (acctPort a)).st == .isolated
    || (match k with | .supply => decide (c.vlt.margin < 0) | .ret => c.chg.refuseReturn || twinCharger c 1)

/-- One pending request served (R351): `capped` where an increase has waited more than 100 ms. -/
def serve (c : Core) (k : Column) (fair : List (Nat × Nat)) (capped : Bool) (a : Nat) : Core :=
  let x := (c.vlt.acct a).col k
  match x.req with
  | none => c
  | some r =>
    let g := x.granted
    if r.tokens ≤ g then
      book (grantLevel c a k r.tokens r.seq) a k fun x => { x with req := none }
    else
      let f := kget 0 a fair
      let top := if k == .supply && c.vlt.throt then Nat.min r.tokens (Nat.min f (throttled c a))
        else Nat.min r.tokens f
      let base := if capped then Nat.min g f else g
      let free := (c.vlt.tot k).f.toNat
      let add := if raiseRefused c a k then 0 else Nat.min (top - base) free
      let n := base + add
      let c := if n != g || !r.answered then grantLevel c a k n r.seq else c
      book c a k fun x => { x with
        req := if n = r.tokens then none else x.req.map fun r => { r with answered := true } }

/-- The pending requests of a column served, and one audit more on those that still wait (R351, R352). -/
def serveColumn (c : Core) (k : Column) : Core :=
  let fl := fairLevels c k
  let c := { c with vlt := c.vlt.setTot k { c.vlt.tot k with lam := fl.1 } }
  let ps := pendingReqs c k
  let capped := ps.any fun a =>
    let x := (c.vlt.acct a).col k
    match x.req with | some r => decide (x.granted < r.tokens) && decide (100 < r.age) | none => false
  let c := ps.foldl (fun c a => serve c k fl.2 capped a) c
  bookAll c (pendingReqs c k) k fun x => { x with req := x.req.map fun r => { r with age := r.age + 1 } }

/-! ### Bursts (R357–R360) -/

/-- E_full, J: 0.1 Ah × cells × V_NOM (R358). -/
def eFull (c : Core) : Nat :=
  c.maq.pack.cap * 360 * c.maq.pack.n * (if c.maq.pack.chem = 1 then 3600 else 3200) / 1000

/-- E_avail, J (R358). -/
def eAvailNow (c : Core) : Nat :=
  eFull c * (c.cel.soc - 100 * c.maq.valt.reserve) * (packEntry c).derate / 1000000

/-- H, µW (R358). -/
def burstHead (c : Core) : Nat :=
  let i := c.meas.isp + (if c.attached then c.twn.isp else 0)
  let rate := sumBy (fun r => match r.2.burst with
    | some b => b.e * 1000000000 / Nat.max 1 b.d | none => 0) c.vlt.recs
  dischargeCeil c * c.meas.vpack - (-i).toNat * c.meas.vpack - rate

/-- Condition 1 of R358: no burst may be admitted where it fails. -/
def burstAllowed (c : Core) : Bool :=
  socUsable c && decide (0 ≤ c.vlt.margin) && !c.vlt.noBurst && !c.vlt.dead && c.vlt.noRaise == 0

/-- The largest burst an account may ask for, J (R358). -/
def burstCeil (c : Core) (a : Nat) : Nat := Nat.min (c.acctCfg a).burst c.maq.valt.burstMax

/-- E_max for a duration (R358). -/
def eMax (c : Core) (a d : Nat) : Nat :=
  if !burstAllowed c || (acctPartner c a).barred then 0
  else
    Nat.min (burstCeil c a)
      (Nat.min ((c.vlt.eAvail - c.vlt.eCommit) * 4 / 5) (burstHead c * d / 1000000000))

/-- A burst is admissible (R358). -/
def burstFits (c : Core) (a e d : Nat) : Bool :=
  burstAllowed c && !(acctPartner c a).barred && decide (e ≤ burstCeil c a)
    && decide (5 * e ≤ 4 * (c.vlt.eAvail - c.vlt.eCommit)) && decide (e * 1000000000 ≤ burstHead c * d)

/-- One burst request judged (R357, R359): held during a running burst or its pause, deferred where it is
older than 2 s, admitted with a burst GRANT or denied. -/
def judgeBurst (c : Core) (a : Nat) : Core :=
  let r := c.vlt.acct a
  match r.burstReq with
  | none => c
  | some q =>
    if r.burst.isSome || r.pause then
      updAcct c a fun r => { r with burstReq := some { q with age := q.age + 1 } }
    else
      let c := updAcct c a fun r => { r with burstReq := none }
      let d := Nat.max 10 q.d
      if 2000 < q.age then sendDefer c a q.seq 1
      else if burstFits c a q.e d then
        let c := setBurst c a (some { e := q.e, d := d })
        queueMsg c (acctPort a) (grantMsg a .supply r.sup.level d q.e q.seq true)
      else sendDenied c a q.seq (eMax c a d)

/-- The burst judgement of an audit (R357, R370). -/
def burstStep (c : Core) : Core :=
  let now := c.life.tick.toNat
  let c := { c with vlt := { c.vlt with eAvail := eAvailNow c, eCommit := committedAt c.vlt now, commitAt := now } }
  (acctsOf c fun a => (c.vlt.acct a).burstReq.isSome).foldl judgeBurst c

/-! ### Export backing (R366) -/

/-- Tokens a port's contract needs, where no change of it is in progress (R386). -/
def contractNeed (g : PdG) : Option Nat :=
  if g.trans.isSome || g.reqWait.isSome || g.waitBack then none
  else g.eff.map fun k => tokensFor (k.v50 * 50) (k.i10 * 10)

/-- The surplus of a lowered contract released (R386). -/
def releaseSurplus (c : Core) (p : PdId) : Core :=
  match contractNeed (c.port p) with
  | some n =>
    if (c.port p).att == .source && decide (n < (c.vlt.acct (pdAcct p)).sup.level) then
      updPd (book c (pdAcct p) .supply fun x => { x with level := n }) p fun g => { g with backing := n, asked := n }
    else c
  | none => c

/-- One asked backing answered (R366): its power moves from F to G where F covers it. -/
def backOne (c : Core) (a n : Nat) : Core :=
  let l := (c.vlt.acct a).sup.level
  let ok := c.vlt.noRaise == 0 && !c.vlt.dead && decide (((n - l : Nat) : Int) ≤ max 0 c.vlt.sup.f)
  let c := if ok then book c a .supply fun x => { x with level := Nat.max x.level n } else c
  if a = 4064 then pdBacked c .a ok
  else if a = 4065 then pdBacked c .b ok
  else if ok then
    exportBegin c { port := .main, step := .outOff, volt := merged c 22, limit := c.maq.path.iExp * 10 }
  else c

/-- Every asked backing answered, and B_max published (R366). -/
def backStep (c : Core) : Core :=
  let asks := c.vlt.askBack
  let c := { c with vlt := { c.vlt with askBack := [] } }
  let c := releaseSurplus (releaseSurplus c .a) .b
  let c := asks.foldl (fun c x => backOne c x.1 x.2) c
  { c with vlt := { c.vlt with bMax := c.vlt.sup.f.toNat } }

/-! ### Mirror and digest (Tables 17-4 and 17-5) -/

/-- A mirror record (Table 17-5). -/
def mirrorOf (c : Core) (a : Nat) : List Byte :=
  let r := c.vlt.acct a
  let p := acctPartner c a
  let now32 := fun (x : Option Nat) => toLe 4 (x.getD 0)
  let tok := fun (q : Option Req) => toLe 2 (match q with | some q => q.tokens | none => 0xFFFF)
  let age := fun (q : Option Req) => toLe 2 (match q with | some q => q.age | none => 0)
  toLe 2 r.sup.level ++ toLe 2 r.ret.level ++ tok r.sup.req ++ tok r.ret.req
    ++ now32 r.sup.leaseEnd ++ now32 r.ret.leaseEnd
    ++ toLe 4 (match r.burst with | some b => b.e | none => 0)
    ++ now32 (r.burst.bind fun b => b.windowEnd)
    ++ [r.supSeq.getD 0, r.retSeq.getD 0,
        BitVec.ofNat 8 (b2n p.enrolled + 2 * b2n p.absent + 4 * b2n p.barred + 8 * b2n r.burst.isSome
          + 16 * b2n (match r.burst with | some b => b.windowEnd.isSome | none => false)), 0]
    ++ age r.sup.req ++ age r.ret.req

/-- A signed number in four bytes. -/
def s32le (v : Int) : List Byte := toLe 4 (BitVec.ofInt 32 v).toNat

/-- The vault digest (Table 17-5): the records in account order, F, G and T of both columns, E_committed. -/
def vaultDigest (c : Core) : BitVec 32 :=
  crc32 ((List.range 4064).flatMap (mirrorOf c)
    ++ [c.vlt.sup, c.vlt.ret].flatMap (fun t => s32le t.f ++ s32le t.g ++ s32le t.t)
    ++ toLe 4 c.vlt.eCommit)

/-- The mirror of the recorded accounts sent to the Follow after an audit (R460, Table 17-4). -/
def sendMirror (c : Core) : Core :=
  (acctsOf c fun a => decide (a < 4064)).foldl (fun c a =>
    twSend c 6 ([Int.ofNat a, 1] ++ (mirrorOf c a).map fun b => Int.ofNat b.toNat)) c

/-! ### The audit (R341, R367, R370) -/

/-- Return levels taken to 0 with their ports shed at an overvoltage that ends return grants, of either controller (R185,
R361). -/
def endReturns (c : Core) : Core :=
  if !(c.chg.refuseReturn || twinCharger c 1) then c
  else
    let as := acctsOf c fun a => decide (0 < (c.vlt.acct a).ret.granted)
    let c := as.foldl (fun c a => updPlb c (acctPort a) fun g => { g with byVault := true }) c
    as.foldl (fun c a => recallTo c a .ret 0) c

/-- The Follow's share of an audit (R367, R460): its figures go to the Lead, and its mirror is checked. -/
def followAudit (c : Core) (bad : List Nat) : Core :=
  let k := ownK c
  let n := auditFails c bad
  let c := { c with vlt := { c.vlt with
    k := k, lLoc := ownLoc c, s := sustain c, pIn := pInRaw c, bMax := 0, pass := n == 0, failed := n } }
  twSend c 5 [(k : Int), ownLoc c, pFwd c / 1000, pCh c / 1000, pEx c / 1000, c.vlt.auditNo.toNat]

/-- A Follow mirrors this controller: from step 4 of the attach on (Table 17-6). -/
def paired (c : Core) : Bool := c.twn.mirrorWait || c.twn.ramp || c.attached

/-- The audit of the controller that keeps the vault, in the order of R370.  A shed the vault decided stands until a merge
tick has taken it and no recall is outstanding (R323, R355). -/
def leadAudit (c : Core) (bad : List Nat) : Core :=
  let before := c.vlt.margin
  let c := { c with plb := { c.plb with p := vmap (fun p g =>
    if recallOutstanding c p || (portPresent c p && !g.shed) then g else { g with byVault := false }) c.plb.p } }
  let c := if c.chg.askRefuse || twinCharger c 2 then
      { c with vlt := { c.vlt with ret := { c.vlt.ret with recallNow := true } } } else c
  let c := auditChecks (recompute c) bad
  let c := throttleStep c
  let c := endReturns (marginStep (recallStep (recallStep c .supply) .ret) before)
  let c := serveColumn (serveColumn c .supply) .ret
  let c := backStep (burstStep c)
  if paired c then
    sendMirror { c with vlt := { c.vlt with digest := vaultDigest c } }
  else c

/-- VAULT_AUDIT (R341): `badCopies` are the accounts whose record copies disagree; `copyLost`: one copy of a record
has an uncorrectable error, and the other serves (Table 13-3 row 2). -/
def execVaultAudit (badCopies : List Nat) (copyLost : Bool) (s : State) : Res :=
  onGrid s .audit fun c =>
    let c := { c with vlt := { c.vlt with auditNo := c.vlt.auditNo + 1 } }
    let c := if copyLost then fault c 0x1302 0 else c
    if keepsVault c then leadAudit c badCopies
    else if c.attached && c.twn.role == .follow then followAudit c badCopies
    else c

/-! ### Timed events (Table 13-2, R352–R364) -/

/-- LEASE_END (R340): the level returns to F, and tokens in transit of an undelivered lowering or of a lost
holder with it. -/
def execLeaseEnd (acct : Nat) (col : Column) (s : State) : Res :=
  onRun s fun c => book c acct col fun x => { x.lowerTo (min x.lower (sumBy id x.done)) with
    level := 0, leaseEnd := none, ended := some (x.level, c.life.tick.toNat) }

/-- LOWERING_TIMEOUT (R340): the tokens of the oldest delivered lowering return to F, at an Isolated port all. -/
def execLoweringTimeout (acct : Nat) (col : Column) (s : State) : Res :=
  onRun s fun c => book c acct col fun x => x.lowerEnd ((c.plbPort (acctPort acct)).st == .isolated)

/-- Tokens of a raising GRANT that still waits on its port. -/
def raiseWaiting (c : Core) (a : Nat) (k : Column) : Bool :=
  let g := c.plbPort (acctPort a)
  (g.queue.any (isGrantOf a k)) || (match g.await with | some m => isGrantOf a k m | none => false)

/-- GRANT_UNDELIVERED_TIMEOUT (R340). -/
def execGrantUndeliveredTimeout (acct : Nat) (col : Column) (s : State) : Res :=
  onRun s fun c =>
    if raiseWaiting c acct col then c else book c acct col fun x => { x with raise := 0 }

/-- REQUEST_WAIT_LIMIT (R352): DEFER with reason 1. -/
def execRequestWaitLimit (acct : Nat) (col : Column) (s : State) : Res :=
  onRun s fun c =>
    match ((c.vlt.acct acct).col col).req with
    | some r => sendDefer (book c acct col fun x => { x with req := none }) acct r.seq 1
    | none => c

/-- DEFICIT_CARRY_EXPIRY (R353): the next audit recalls. -/
def execDeficitCarryExpiry (col : Column) (s : State) : Res :=
  onRun s fun c =>
    let t := c.vlt.tot col
    if t.carrySince.isSome then { c with vlt := c.vlt.setTot col { t with carryOut := true } } else c

/-- DISCHARGE_OVERRUN (R355): ports that hold an outstanding recall are shed. -/
def execDischargeOverrun (s : State) : Res :=
  onRun s fun c =>
    { c with plb := { c.plb with p := vmap (fun p g =>
        if recallOutstanding c p then { g with byVault := true } else g) c.plb.p } }

/-- BURST_WINDOW_END (R360): the burst ends and its pause begins. -/
def execBurstWindowEnd (acct : Nat) (s : State) : Res :=
  onRun s fun c => endBursts c fun a => a == acct

/-- BURST_PAUSE_END (R359). -/
def execBurstPauseEnd (acct : Nat) (s : State) : Res :=
  onRun s fun c => updAcct c acct fun r => { r with pause := false }

/-- THROTTLE_GRACE_END (R363): RECALL to every account still above its throttled level. -/
def execThrottleGraceEnd (s : State) : Res :=
  onCoreIf s (fun c => inRun c && c.vlt.throt) fun c =>
    let c := { c with vlt := { c.vlt with grace := false, graceEnd := some c.life.tick.toNat } }
    (acctsOf c fun a => decide (throttled c a < (c.vlt.acct a).sup.level)).foldl
      (fun c a => recallTo c a .supply (throttled c a)) c

/-- A port where a partner's last STATUS draws more than its accounts' floors and throttled levels (R364). -/
def overdrawing (c : Core) (p : Nat) : Bool :=
  (c.plbPort p).partners.any fun x =>
    match x.2.draw with
    | some d => decide (sumBy (fun a => (c.acctCfg a).floor + throttled c a) (partnerAccts p x.1) < d.1)
    | none => false

/-- Enforcement runs: t_RD has passed since the recalls at the end of the grace (R364). -/
def enforces (c : Core) : Bool :=
  c.vlt.throt && (match c.vlt.graceEnd with | some t => decide (t + 100 * Config.tRd ≤ c.life.tick.toNat) | none => false)

/-- ENFORCEMENT_OVERDRAW (R364): while the pair's ISS exceeds I_T by more than 5 %. -/
def execEnforcementOverdraw (issPair : Int) (s : State) : Res :=
  onCoreIf s (fun c => inRun c && enforces c && decide ((105 * enforceTarget c : Nat) < 100 * issPair)) fun c =>
    let named := (List.range 4).any (overdrawing c)
    { c with
      vlt := { c.vlt with enforce := true }
      plb := { c.plb with p := vmap (fun p g =>
        if (if named then overdrawing c p else portPresent c p) then { g with byThrot := true } else g) c.plb.p } }

/-- ENFORCEMENT_RELEASE (R364). -/
def execEnforcementRelease (s : State) : Res :=
  onRun s fun c =>
    { c with
      vlt := { c.vlt with enforce := false }
      plb := { c.plb with p := vmap (fun _ g => { g with byThrot := false }) c.plb.p } }

end Sys2Proof.Machine
end

