-- ==== Sys2Proof/Machine/Plinth.lean ====
section
/-! DEFINITION. The Plinth Bus (chapter 12): the cycle and its slots, delivery, the partners' messages,
enrolment and absence, confinement, and the SHED lines. -/

namespace Sys2Proof.Machine

/-! ### Confinement (R327–R329, Table 12-6) -/

/-- A port Isolated (R329): line asserted, accounts released, fault latched and Probed. -/
def isolatePort (c : Core) (p : Nat) : Core :=
  let c := lowerAll c (portAccts c p)
  let c := updPlb c p fun g => { g with st := .isolated, byConf := true, queue := [], await := none }
  fault c 0x1201 (BitVec.ofNat 8 (p + 1))

/-- One transition of Table 12-6 that the TEC asks for. -/
def confineOnce (c : Core) (p : Nat) : Core :=
  let g := c.plbPort p
  match g.st with
  | .active =>
    if 96 ≤ g.tec then
      recordCondition (updPlb c p fun g => { g with st := .warned, nWarned := satNat 16 (g.nWarned + 1) })
    else c
  | .warned =>
    if 128 ≤ g.tec then
      recallPort (updPlb c p fun g => { g with
        st := .restricted, byConf := true, nRestr := satNat 16 (g.nRestr + 1) }) p
    else if g.tec ≤ 79 then updPlb c p fun g => { g with st := .active }
    else c
  | .restricted =>
    if g.tec = 255 then isolatePort c p
    else if g.tec ≤ 111 then
      recordCondition (updPlb c p fun g => { g with
        st := .warned, byConf := false, nWarned := satNat 16 (g.nWarned + 1) })
    else c
  | .isolated => c

/-- The TEC of a port moved within 0 to 255, and its state with it (R327). -/
def tecStep (c : Core) (p : Nat) (d : Int) : Core :=
  let c := updPlb c p fun g => { g with tec := (max 0 (min 255 ((g.tec : Int) + d))).toNat }
  confineOnce (confineOnce (confineOnce c p) p) p

/-! ### The cycle (R315, R316) -/

/-- The data pairs of the present ports are driven here (R331, Table 17-2). -/
def drivesPlinth (c : Core) : Bool := c.twn.role == .lead

/-- A port has a medium (R308, R338). -/
def hasMedium (c : Core) (p : Nat) : Bool :=
  portPresent c p && (!(p == 3 && c.maq.plbs.route) || (c.plbPort 3).medium)

/-- PLINTH_CYCLE_START (R315): the cycle number follows the grid, and every port starts its slots anew. -/
def execPlinthCycleStart (s : State) : Res :=
  onGrid s .plinth fun c =>
    { c with plb := { c.plb with
        cycle := BitVec.ofNat 32 (c.life.tick.toNat / 100)
        master := c.plb.master || drivesPlinth c
        p := vmap (fun _ g => { g with slotMap := g.slotNow, slotNow := 0, used := 0, morePolls := 0 }) c.plb.p } }

/-- Priority of a master message (Table 12-4). -/
def msgPriority (type : Byte) : Nat :=
  if type = 0x0B then 1 else if type = 0x09 then 2 else if type = 0x0A then 3
  else if type = 0x04 || type = 0x05 then 5 else 4

/-- The best of a list of messages by priority, oldest first within one. -/
def bestOf : List PlbMsg → Option PlbMsg
  | [] => none
  | m :: ms =>
    match bestOf ms with
    | none => some m
    | some x => if msgPriority m.type ≤ msgPriority x.type then some m else some x

/-- A list without the first message equal to one. -/
def dropOne (m : PlbMsg) (l : List PlbMsg) : List PlbMsg := l.erase m

/-- Step 1 of R316: a broadcast SHED, then a broadcast RECALL. -/
def nextBroadcast (g : PlbPort) : Option PlbMsg :=
  match g.queue.find? fun m => m.dest == 0xFF && m.type == 0x0B with
  | some m => some m
  | none => g.queue.find? fun m => m.dest == 0xFF

/-- Step 2 of R316. -/
def nextUnicast (g : PlbPort) : Option PlbMsg := bestOf (g.queue.filter fun m => m.dest != 0xFF)

/-- A partner that is polled (R316, R321, R336). -/
def Partner.polled (x : Partner) : Bool := x.enrolled && !x.absent && !x.collision

/-- The next of a rising list of addresses after `at`, with wrap-around. -/
def nextAfter (at_ : Nat) (l : List Nat) : Option Nat :=
  match l.find? fun a => decide (at_ < a) with
  | some a => some a
  | none => l.head?

/-- Step 3 of R316: a polled partner whose last response had the more bit set. -/
def nextMore (g : PlbPort) : Option Nat :=
  nextAfter g.moreAt ((g.partners.filter fun x => x.2.polled && x.2.more).map Prod.fst)

/-- Step 4 of R316. -/
def nextPoll (g : PlbPort) : Option Nat := nextAfter g.pollAt ((g.partners.filter fun x => x.2.polled).map Prod.fst)

/-- Addresses of a port with an active account, rising. -/
def activeAddrs (c : Core) (p : Nat) : List Nat :=
  ((c.maq.valt.accts.filter fun x => acctPort x.1 == p).map fun x => acctAddr x.1).dedup

/-- The address the next INVITE names (R316). -/
def nextInvite (c : Core) (p : Nat) : Option Nat :=
  let g := c.plbPort p
  nextAfter g.inviteAt ((activeAddrs c p).filter fun a =>
    let x := kget {} a g.partners
    !x.enrolled && !x.collision)

/-- The control byte (Table 12-2). -/
def ctlByte (idx : Nat) (repeat_ : Bool) (seq : BitVec 4) : Byte :=
  BitVec.ofNat 8 (64 * idx + 32 * b2n repeat_ + seq.toNat)

/-- A frame driven in the present slot (Table 12-2). -/
def drive (c : Core) (p slot : Nat) (f : Frame) : Core :=
  updPlb c p fun g => { g with sent := g.sent ++ [f], slotNow := putBit g.slotNow slot true }

/-- The TEC effect of a frame that draws no response: clean or found wrong at its read-back (R327). -/
def broadcastTec (c : Core) (p : Nat) (bad : Bool) : Core := tecStep c p (if bad then 8 else -1)

/-- A frame that draws no response, with its sequence; its lowerings count as delivered (log entry 15). -/
def sendBroadcast (c : Core) (p slot : Nat) (m : PlbMsg) (q : BitVec 4) (rep bad : Bool) : Core :=
  let c := drive c p slot { dest := m.dest, src := 0, type := m.type, ctl := ctlByte m.idx rep q, payload := m.payload }
  let c := updPlb c p fun g => { g with queue := dropOne m g.queue }
  let c := if m.type == 0x09 && !bad then
      let as := (portAccts c p).filter fun a => m.dest == 0xFF || a == acctNo p m.dest.toNat m.idx
      bookAll (bookAll c as .supply ColRec.delivered) as .ret ColRec.delivered
    else c
  broadcastTec c p bad

/-- A unicast frame: its response is awaited (R318). -/
def sendUnicast (c : Core) (p slot : Nat) (m : PlbMsg) (bad : Bool) : Core :=
  let a := m.dest.toNat
  let q := m.seq.getD (partnerOf c p a).seq
  let c := if m.seq.isNone then updPartner c p a fun x => { x with seq := x.seq + 1 } else c
  let c := drive c p slot { dest := m.dest, src := 0, type := m.type, ctl := ctlByte m.idx false q, payload := m.payload }
  let c := updPlb c p fun g => { g with
    queue := dropOne m g.queue, await := some { m with seq := some q, tries := m.tries + 1 }, awaitBad := bad
    slotAddr := some m.dest }
  if bad then tecStep c p 8 else c

/-- POLL and INVITE frames. -/
def pollMsg (type : Byte) (a : Nat) : PlbMsg := { dest := BitVec.ofNat 8 a, type := type, tries := 2 }

/-- BEACON (Table 12-5). -/
def beacon (c : Core) (p : Nat) : Frame :=
  let g := c.plbPort p
  let st := match g.st with | .active => 0 | .warned => 1 | .restricted => 2 | .isolated => 2
  { dest := 0xFF, src := 0, type := 0x01, ctl := ctlByte 0 false (Config.beaconSeq c.plb.cycle)
    payload := toLe 4 c.plb.cycle.toNat
      ++ [BitVec.ofNat 8 st, BitVec.ofNat 8 (b2n g.shed + 2 * b2n c.plb.dormNotice + 4 * b2n c.vlt.throt),
          BitVec.ofNat 8 c.vlt.q, 0] }

/-- A frame of step 1 sent, and the broadcast sequence moved on (R314). -/
def sendAll (c : Core) (p slot : Nat) (m : PlbMsg) (bad : Bool) : Core :=
  updPlb (sendBroadcast c p slot m (c.plbPort p).bcSeq false bad) p fun g => { g with bcSeq := g.bcSeq + 1 }

/-- A pair of copies in Restricted (R328), both with the sequence of a broadcast or of the partner's next unicast
message (R314); a port that becomes Isolated sends no second (R333). -/
def sendPair (c : Core) (p slot : Nat) (m : PlbMsg) (bad1 bad2 : Bool) : Core :=
  let a := m.dest.toNat
  let all := m.dest == 0xFF
  let q := if all then (c.plbPort p).bcSeq else m.seq.getD (partnerOf c p a).seq
  let c := if all then updPlb c p fun g => { g with bcSeq := g.bcSeq + 1 }
    else if m.seq.isNone then updPartner c p a fun x => { x with seq := x.seq + 1 } else c
  let c := sendBroadcast c p slot m q false bad1
  if (c.plbPort p).st == .isolated then c else sendBroadcast c p slot m q true bad2

/-- Steps 1 to 4 of R316 in one slot. -/
def pickSlot (c : Core) (p slot : Nat) (bad : Bool) : Core :=
  let g := c.plbPort p
  let use := fun (c : Core) => updPlb c p fun g => { g with used := g.used + 1 }
  let poll := fun (c : Core) (a : Nat) => sendUnicast c p slot (pollMsg 0x02 a) bad
  let rest := fun (_ : Unit) => match nextPoll g with
    | some a => poll (updPlb c p fun g => { g with pollAt := a }) a
    | none => c
  if 4 ≤ g.used then rest ()
  else
    match nextBroadcast g, nextUnicast g with
    | some m, _ => sendAll (use c) p slot m bad
    | none, some m => sendUnicast (use c) p slot m bad
    | none, none =>
      match nextMore g with
      | some a =>
        if g.morePolls < 4 then
          poll (use (updPlb c p fun g => { g with moreAt := a, morePolls := g.morePolls + 1 })) a
        else rest ()
      | none => rest ()

/-- The slot of a port by its state (R316, R328, R338); `bad` and `repBad`: the read-back of its frame, or in Restricted of
its first and its second copy, differed. -/
def slotStart (c : Core) (p slot : Nat) (bad repBad : Bool) : Core :=
  let c := updPlb c p fun g => { g with sent := [], await := none, slotAddr := none }
  if !drivesPlinth c || !hasMedium c p then c
  else
    match (c.plbPort p).st with
    | .isolated => c
    | .restricted =>
      let g := c.plbPort p
      let urgent := { g with queue := g.queue.filter fun m => m.type == 0x0B || m.type == 0x09 }
      if slot = 0 then c
      else
        match nextBroadcast urgent, nextUnicast urgent with
        | some m, _ | none, some m => sendPair c p slot m bad repBad
        | none, none => c
    | _ =>
      if slot = 0 then
        broadcastTec (drive c p slot (beacon c p)) p bad
      else if slot = 15 then
        match nextInvite c p with
        | some a => sendUnicast (updPlb c p fun g => { g with inviteAt := a }) p slot (pollMsg 0x03 a) bad
        | none => pickSlot c p slot bad
      else pickSlot c p slot bad

/-- The BEACON with the Dormant notice is still to go out: Dormant entry is not complete (R113, R332). -/
def noticeDue (c : Core) : Bool := c.life.st == .dormant && c.life.entering

/-- POLL_SLOT_START (R316, R327): in Run, and slot 0 for the Dormant notice. -/
def execPollSlotStart (p : Fin 4) (slot : Fin 16) (bad repBad : Bool) (s : State) : Res :=
  onCoreIf s (fun c => inRun c || (noticeDue c && slot == 0)) fun c => slotStart c p.val slot.val bad repBad

/-! ### Delivery and misses (R318, R321, R336) -/

/-- A delivered message takes its effect (Table 13-2, R320, R346, R357). -/
def deliver (c : Core) (p : Nat) (m : PlbMsg) : Core :=
  let a := acctNo p m.dest.toNat m.idx
  let now := c.life.tick.toNat
  if m.type == 0x06 then
    let tokens := fieldAt m.payload 0 2
    let lease := fieldAt m.payload 2 2
    match m.col with
    | some k => book c a k fun x =>
        let n := Nat.min x.raise (tokens - x.level)
        { x.delivered with level := x.level + n, raise := x.raise - n, leaseEnd := some (now + 100 * lease) }
    | none => updAcct c a fun r => { r with burst := r.burst.map fun b =>
        { b with windowEnd := b.windowEnd.or (some (now + 100 * b.d)) } }
  else if m.type == 0x09 then
    book c a .supply ColRec.delivered
  else if m.type == 0x04 then
    updPartner c p m.dest.toNat fun x => { x with enrolled := true, absent := false, misses := 0 }
  else c

/-- A message not delivered (R318): it waits again with its age, or after three attempts it is gone; a burst
GRANT that is gone takes its burst with it. -/
def undelivered (c : Core) (p : Nat) (m : PlbMsg) : Core :=
  if m.tries < 3 then updPlb c p fun g => { g with queue := m :: g.queue }
  else if m.type == 0x06 && m.col.isNone then
    setBurst c (acctNo p m.dest.toNat m.idx) none
  else c

/-- A partner becomes Absent (R321). -/
def makeAbsent (c : Core) (p a : Nat) : Core :=
  dropPartner (updPartner c p a fun x => { x with absent := true, enrolled := false }) p a

/-- A miss of the partner a slot belongs to (R321, R327, R336). -/
def missed (c : Core) (p a : Nat) (corrupted : Bool) : Core :=
  let m := (c.plbPort p).await
  let c := updPlb c p fun g => { g with await := none, misses := g.misses + 1 }
  let c := match m with | some m => undelivered c p m | none => c
  let c := updPartner c p a fun x => { x with
    misses := satNat 8 (x.misses + 1), corrupt := if corrupted then satNat 8 (x.corrupt + 1) else x.corrupt }
  let x := partnerOf c p a
  let c := if x.enrolled && decide (8 ≤ x.misses) then makeAbsent c p a else c
  let c := if decide (8 ≤ x.corrupt) && !x.collision then
      recordCondition (updPartner c p a fun x => { x with collision := true }) else c
  if corrupted then tecStep c p 1 else c

/-- RESPONSE_MISS (R321, R336). -/
def execResponseMiss (p : Fin 4) (addr : Byte) (corrupted : Bool) (s : State) : Res :=
  onCoreIf s (fun c => inRun c && (c.plbPort p.val).slotAddr == some addr && (c.plbPort p.val).await.isSome)
    fun c => missed c p.val addr.toNat corrupted

/-- COLLISION_REINVITE (R336). -/
def execCollisionReinvite (p : Fin 4) (addr : Byte) (s : State) : Res :=
  onRun s fun c => updPartner c p.val addr.toNat fun x => { x with collision := false, corrupt := 0 }

/-- A response (R317, R318): from the addressed partner, of the command's type (Table 12-4) and with that type's payload
length, its good CRC lowers
the TEC and clears the misses, an echoed sequence delivers the message, and the partner's own message is
acted on while it is enrolled (R320).  Another response is a miss (R313, R317). -/
def onResponse (s : State) (p : Fin 4) (f : Frame) (type : Byte) (len : Nat) (anyPartner : Bool)
    (act : Core → Nat → Core) : Res :=
  onRun s fun c =>
    match (c.plbPort p.val).await with
    | none => c
    | some m =>
      let a := m.dest.toNat
      if f.src != m.dest || f.dest != 0 || f.type != type || f.payload.length != len then missed c p.val a false
      else
        let was := (partnerOf c p.val a).enrolled
        let bad := (c.plbPort p.val).awaitBad
        let c := updPlb c p.val fun g => { g with await := none }
        let c := updPartner c p.val a fun x => { x with
          misses := 0, corrupt := 0, more := f.ctl.getLsbD 4 }
        let c := if bad then c else tecStep c p.val (-1)
        let c := if some (f.ctl.truncate 4) == m.seq then deliver c p.val m else undelivered c p.val m
        if was || anyPartner then act c a else c

/-- The account a response names. -/
def respAcct (p : Fin 4) (a : Nat) (f : Frame) : Nat := acctNo p.val a (f.ctl.toNat / 64)

/-- The account is active (R320). -/
def acctActive (c : Core) (a : Nat) : Bool := (c.acctCfg a).active

/-! ### Partners' messages (R347, R352, R357, R359) -/

/-- What a new supply request or burst request replaces in the account's supply entry (R352, R359). -/
def replaceSupply (c : Core) (a : Nat) : Core :=
  let r := c.vlt.acct a
  let c := match r.sup.req with
    | some q => sendDefer (book c a .supply fun x => { x with req := none }) a q.seq 2
    | none => c
  match r.burstReq with
  | some q => sendDefer (updAcct c a fun r => { r with burstReq := none }) a q.seq 2
  | none => c

/-- A new request in a column (R347, R351, R352): one at most waits, trimmed to ceiling − floor. -/
def putRequest (c : Core) (a : Nat) (k : Column) (tokens : Nat) (seq : Byte) : Core :=
  let c := match k with
    | .supply => replaceSupply c a
    | .ret => match (c.vlt.acct a).ret.req with
      | some q => sendDefer c a q.seq 2
      | none => c
  let q : Req := { tokens := Nat.min tokens (acctHead c a), seq := seq, no := c.vlt.nextNo }
  let c := book c a k fun x => { x with req := some q }
  let c := updAcct c a fun r => match k with
    | .supply => { r with supSeq := some seq } | .ret => { r with retSeq := some seq }
  { c with vlt := { c.vlt with nextNo := c.vlt.nextNo + 1 } }

/-- REQUEST and RETURN_REQ: a repeated sequence is answered once (R319), an inactive account deferred (R320). -/
def takeRequest (c : Core) (a : Nat) (k : Column) (f : Frame) : Core :=
  let seq := f.payload.getD 2 0
  let last := match k with | .supply => (c.vlt.acct a).supSeq | .ret => (c.vlt.acct a).retSeq
  if !acctActive c a then sendDefer c a seq 2
  else if last == some seq then c
  else putRequest c a k (fieldAt f.payload 0 2) seq

/-- REQUEST (R347, R351). -/
def execRequest (p : Fin 4) (f : Frame) (s : State) : Res :=
  onResponse s p f 0x23 4 false fun c a => takeRequest c (respAcct p a f) .supply f

/-- RETURN_REQ (R361). -/
def execReturnReq (p : Fin 4) (f : Frame) (s : State) : Res :=
  onResponse s p f 0x25 4 false fun c a => takeRequest c (respAcct p a f) .ret f

/-- BURST_REQ (R357, R359): judged at the next audit. -/
def execBurstReq (p : Fin 4) (f : Frame) (s : State) : Res :=
  onResponse s p f 0x24 8 false fun c a =>
    let n := respAcct p a f
    let seq := f.payload.getD 6 0
    if !acctActive c n then sendDefer c n seq 2
    else if (c.vlt.acct n).supSeq == some seq then c
    else updAcct (replaceSupply c n) n fun r => { r with
      supSeq := some seq, burstReq := some { e := fieldAt f.payload 0 4, d := fieldAt f.payload 4 2, seq := seq } }

/-- RELEASE (R347): G → F by the decrease. -/
def execRelease (p : Fin 4) (f : Frame) (s : State) : Res :=
  onResponse s p f 0x26 4 false fun c a =>
    if acctActive c (respAcct p a f) then
      book c (respAcct p a f) .supply fun x => { x with level := Nat.min x.level (fieldAt f.payload 0 2) }
    else c

/-- ORDER_ACK (R330). -/
def sendOrderAck (c : Core) (p a idx slot result : Nat) (seq : Byte) : Core :=
  queueMsg c p { dest := BitVec.ofNat 8 a, type := 0x0C, idx := idx,
                 payload := toLe 2 slot ++ [BitVec.ofNat 8 result, seq] }

/-- Codes of the order slots, in the order of Table 18-2. -/
def slotCodes : List Nat :=
  [0x0001, 0x0002, 0x0003, 0x0004, 0x0005, 0x0006, 0x0010, 0x0011, 0x0012, 0x0013, 0x0014, 0x0015, 0x0016,
   0x0017, 0x0020, 0x0021, 0x0030, 0x0031, 0x0032, 0x0033, 0x0034, 0x0040, 0x0050, 0x0080, 0x0081, 0x0082,
   0x0083, 0x0084, 0x0085, 0x0086, 0x0087]

/-- Place of an order slot by its code; none where no slot has it. -/
def slotIx (code : Nat) : Option Nat :=
  let i := slotCodes.findIdx (· == code)
  if i < slotCodes.length then some i else none

/-- ORDER (R330): taken into the next merge from the supervisor account, else answered with result 5; a slot
that does not exist is answered with result 4. -/
def execOrder (p : Fin 4) (f : Frame) (s : State) : Res :=
  onResponse s p f 0x27 8 false fun c a =>
    let idx := f.ctl.toNat / 64
    let code := fieldAt f.payload 0 2
    let seq := f.payload.getD 2 0
    if c.maq.plbs.superv != some (respAcct p a f) then sendOrderAck c p.val a idx code 5 seq
    else
      match slotIx code with
      | none => sendOrderAck c p.val a idx code 4 seq
      | some k =>
        { c with ord := { c.ord with arrived := c.ord.arrived ++
            [{ m := .supervisor, slot := k, v := BitVec.ofNat 32 (fieldAt f.payload 4 4)
               src := some (p.val, BitVec.ofNat 8 a, idx, seq) }] } }

/-- WELCOME: floors and ceilings of the partner's active accounts (Table 12-5). -/
def welcome (c : Core) (p a : Nat) : PlbMsg :=
  { dest := BitVec.ofNat 8 a, type := 0x04
    payload := (partnerAccts p a).flatMap fun n =>
      if acctActive c n then toLe 2 (c.acctCfg n).floor ++ toLe 2 (c.acctCfg n).ceil else toLe 4 0 }

/-- Reason of a refused enrolment, 0 = none (R320, Table 12-5). -/
def refuseReason (c : Core) (p a : Nat) (f : Frame) : Nat :=
  let n := f.payload.getD 1 0
  if !(partnerAccts p a).any (acctActive c) then 1
  else if n.toNat = 0 || decide (4 < n.toNat) then 2
  else if f.payload.getD 0 0 != 1 then 3
  else if (partnerOf c p a).barred then 4
  else 0

/-- ENROL (R320): an answer to INVITE; WELCOME or REFUSE is queued. -/
def execEnrol (p : Fin 4) (f : Frame) (s : State) : Res :=
  let invited := match (s.core.plbPort p.val).await with | some m => m.type == 0x03 | none => false
  onResponse s p f 0x22 12 true fun c a =>
    if !invited then c
    else
      let r := refuseReason c p.val a f
      let c := updPlb c p.val fun g => { g with
        queue := g.queue.filter fun m => !(m.dest == BitVec.ofNat 8 a && (m.type == 0x04 || m.type == 0x05)) }
      let c := updPartner c p.val a fun x => { x with
        kind := (f.payload.getD 2 0).toNat, serial := (f.payload.drop 4).take 8 }
      queueMsg c p.val (if r = 0 then welcome c p.val a
        else { dest := BitVec.ofNat 8 a, type := 0x05, payload := [BitVec.ofNat 8 r, 0] })

/-- Burst allowance of an account in tokens, rounded up, while its window runs (R347, R371). -/
def burstTokens (r : AcctRec) : Nat :=
  match r.burst with
  | some b => if b.windowEnd.isSome then ceilDiv (b.e * 2000) (Nat.max 1 b.d) else 0
  | none => 0

/-- Level that may still be drawn: delivered and on its way, lowerings within t_RD, and a lease that ended
within t_RD (R371). -/
def allowedLevel (now : Nat) (x : ColRec) : Nat :=
  x.level + x.raise + x.lower
    + (match x.ended with | some (l, t) => if now ≤ t + 100 * Config.tRd then l else 0 | none => 0)

/-- What a partner may draw and return by its floors, levels and bursts (R371). -/
def allowedDraw (c : Core) (p a : Nat) : Nat × Nat :=
  let now := c.life.tick.toNat
  (sumBy (fun n => (c.acctCfg n).floor + allowedLevel now (c.vlt.acct n).sup + burstTokens (c.vlt.acct n))
      (partnerAccts p a),
   sumBy (fun n => allowedLevel now (c.vlt.acct n).ret) (partnerAccts p a))

/-- A STATUS shows more than its partner may take (R337, R371). -/
def disobeys (c : Core) (p a draw ret : Nat) : Bool :=
  let g := c.plbPort p
  let al := allowedDraw c p a
  let shed := g.shed && decide (200 < (c.life.tick - g.shedAt).toNat)
  decide (al.1 < draw) || decide (al.2 < ret)
    || (shed && (decide (sumBy (fun n => (c.acctCfg n).floor) (partnerAccts p a) < draw) || decide (0 < ret)))

/-- STATUS (R317, R337, R371). -/
def execStatus (p : Fin 4) (f : Frame) (s : State) : Res :=
  onResponse s p f 0x21 8 false fun c a =>
    let draw := fieldAt f.payload 0 2
    let ret := fieldAt f.payload 2 2
    let c := updPartner c p.val a fun x => { x with draw := some (draw, ret) }
    if disobeys c p.val a draw ret && !(partnerOf c p.val a).barred then
      recordCondition (dropPartner (updPartner c p.val a fun x => { x with barred := true }) p.val a)
    else c

/-- RESTRICTED_RECALL_REPEAT (R328). -/
def execRestrictedRecallRepeat (p : Fin 4) (s : State) : Res :=
  onCoreIf s (fun c => inRun c && (c.plbPort p.val).st == .restricted) fun c => recallPort c p.val

/-! ### SHED lines (R323, R324, R334, Table 12-7) -/

/-- A cause to shed a port stands (R323). -/
def PlbPort.shedCause (g : PlbPort) : Bool := g.byVault || g.byThrot || g.byOrder || g.byConf || g.bySafe

/-- Cause code of a SHED frame (Table 12-5). -/
def PlbPort.shedCode (g : PlbPort) : Nat :=
  if g.byVault then 1 else if g.byThrot then 2 else if g.byOrder then 3 else if g.byConf then 4 else 5

/-- The shed decisions of a merge tick (R323, R324): a new cause asserts the line, ends the port's bursts
(R360) and sends one broadcast SHED where confinement is not the only cause; the line goes once no cause
stands, none stood before this tick, and its minimum has run.  A cause in the tick of the release holds the line for
another minimum (R334). -/
def shedPort (before : Core) (c : Core) (p : Nat) : Core :=
  let g := c.plbPort p
  if !portPresent c p then c
  else if g.shedCause then
    if g.shed then
      if g.shedMin || (before.plbPort p).shedCause then c else updPlb c p fun g => { g with shedMin := true }
    else
      let c := updPlb c p fun g => { g with shed := true, shedMin := true, shedAt := c.life.tick }
      let c := endBursts c fun a => decide (a < 4064) && acctPort a == p
      if g.byVault || g.byThrot || g.byOrder then sendShedFrame c p g.shedCode else c
  else if g.shed && !g.shedMin && !(before.plbPort p).shedCause then
    updPlb c p fun g => { g with shed := false }
  else c

/-- The ports of a merge tick, their order causes from the merged slots (R323). -/
def shedTick (before c : Core) : Core :=
  let c := { c with plb := { c.plb with p := vmap (fun p g => { g with byOrder := merged c (17 + p) == 1 }) c.plb.p } }
  (List.range 4).foldl (shedPort before) c

/-- SHED_MINIMUM_EXPIRY (R324). -/
def execShedMinimumExpiry (p : Fin 4) (s : State) : Res :=
  onRun s fun c => updPlb c p.val fun g => { g with shedMin := false, shed := g.shed && g.shedCause }

/-- SHED_LINE_READBACK_MISMATCH (Table 12-7 row 2). -/
def execShedLineReadbackMismatch (p : Fin 4) (s : State) : Res :=
  onCoreIf s (fun c => inRun c && (c.plbPort p.val).shed) fun c =>
    let c := updPlb c p.val fun g => { g with lineFault := true }
    recallPort (fault c 0x1202 (BitVec.ofNat 8 (p.val + 1))) p.val

/-- SHED_LINE_UNCOMMANDED (Table 12-7 row 3): the port's accounts are booked at their floors. -/
def execShedLineUncommanded (p : Fin 4) (s : State) : Res :=
  onCoreIf s (fun c => inRun c && !(c.plbPort p.val).shed && !c.pins.twShed.getLsbD p.val) fun c =>
    let c := updPlb c p.val fun g => { g with uncommanded := true }
    recallPort (fault c 0x1203 (BitVec.ofNat 8 (p.val + 1))) p.val

/-- SHED_LINE_UNCOMMANDED_CLEARED (Table 12-7 row 3). -/
def execShedLineUncommandedCleared (p : Fin 4) (s : State) : Res :=
  onCoreIf s (fun c => inRun c && (c.plbPort p.val).uncommanded) fun c =>
    clearActive (updPlb c p.val fun g => { g with uncommanded := false }) 0x1203 (BitVec.ofNat 8 (p.val + 1))

end Sys2Proof.Machine
end

