-- ==== Sys2Proof/Machine/Twin.lean ====
section
/-! DEFINITION. Twin pairing (chapter 17): the link and its frames, attach, current sharing, the cross-checks,
heartbeat loss with fencing and promotion, planned detach and role handover, and the twin pins. -/

namespace Sys2Proof.Machine

/-- TWIN flag [0]: a twin is expected (R448). -/
def twinExpected (c : Core) : Bool := c.maq.twin.expected

/-- A twin command: it has its effect in Run with a twin expected (R447, R448). -/
def onTwin (s : State) (f : Core → Core) : Res := onCoreIf s (fun c => inRun c && twinExpected c) f

/-- Code of a role (Table 17-4). -/
def Role.code : Role → Nat
  | .none => 0 | .lead => 1 | .follow => 2 | .pending => 3 | .fenced => 4 | .detached => 5

/-- Code of a charge phase (Tables 17-4 and 21-4). -/
def phaseOfCode : Nat → ChgPhase
  | 1 => .cond | 2 => .pre | 3 => .bulk | 4 => .cv | 5 => .balTop | 6 => .term | _ => .none

/-! ### Frames sent -/

/-- IDENT (Table 17-4). -/
def sendIdent (c : Core) : Core :=
  twSend c 2 [1, b2n c.plb.master, c.otp.serial.toNat, c.maq.head.groupId.toNat, c.mqs.digest.toNat]

/-- CONTROL (Table 17-4). -/
def sendControl (c : Core) (command tick : Nat) : Core := twSend c 9 [command, (tick % 4294967296 : Nat)]

/-- Codes of the merged slots, which ORDERS carries. -/
def mergedCodes : List Nat := slotCodes.take 23

/-- ORDERS with every merged value (Table 17-4). -/
def sendOrders (c : Core) : Core :=
  let es := (List.range 23).flatMap fun k => [((slotCodes.getD k 0 : Nat) : Int), (merged c k : Int)]
  twSend c 8 ((c.ord.gen.toNat : Int) :: 23 :: es)

/-- POLICY (Table 17-4). -/
def sendPolicy (c : Core) : Core :=
  twSend c 7 [c.chg.phase.rank, b2n c.chg.heater + 2 * b2n (suspended c) + 4 * b2n c.chg.restOff,
    (if c.thm.pack = 7 then 255 else c.thm.pack : Nat), c.ord.gen.toNat, c.chg.tPre, c.chg.tBulk, c.cel.soc,
    b2n c.cel.coarse]

/-- Codes of HEARTBEAT byte 5: lifecycle state and mode. -/
def lifeCode : Life → Nat
  | .off => 0 | .boot => 1 | .safeHold => 2 | .run => 3 | .dormant => 4 | .reset => 5

/-- Code of a mode. -/
def modeCode : Mode → Nat
  | .none => 0 | .charge => 1 | .reservoir => 2 | .return_ => 3

/-- Code of an active input. -/
def inpCode : Option Inp → Nat
  | none => 0 | some .main => 1 | some .pda => 2 | some .pdb => 3

/-- Code of the BATFET state. -/
def batCode : Batfet → Nat
  | .off => 0 | .linear => 1 | .full => 2

/-- Code of the path byte of HEARTBEAT. -/
def pathByte (c : Core) : Nat :=
  b2n (c.path.inp .main).qual + 2 * b2n c.path.xfer.isSome + 4 * b2n c.path.export_.isSome
    + 8 * batCode c.path.batfet

/-- HEARTBEAT (Table 17-4): it goes first and carries the tick count in place of a sequence. -/
def sendHeartbeat (c : Core) : Core :=
  if !c.twn.trained then c
  else
    let f : TwFrame := { type := 1, seq := BitVec.ofNat 8 c.life.tick.toNat
                         data := [(c.life.tick.toNat % 4294967296 : Nat), c.twn.role.code,
                           (lifeCode c.life.st + 8 * modeCode c.life.mode : Nat),
                           (b2n c.twn.drive + 2 * b2n (c.twn.ctl.any fun x => x.1 == 1)
                             + 4 * b2n (c.twn.leaving == some true) + 8 * b2n (c.gdr.st == .stopped) : Nat),
                           (inpCode c.path.active : Nat), (pathByte c : Nat), (c.ord.gen.toNat : Nat),
                           c.meas.isc / 10, (c.vlt.digest.toNat : Nat)] }
    { c with twn := { c.twn with sent := c.twn.sent ++ [f] } }

/-! ### Reception (R453) -/

/-- A frame of types 2–9: a bad CRC is counted and discarded, a sequence gap is answered with NAK and
discarded, for it comes again; else the frame acts. -/
def receive (c : Core) (h : LinkHdr) (type : Nat) (act : Core → Core) : Core :=
  if !h.crcOk then { c with twn := { c.twn with hbErr := satNat 16 (c.twn.hbErr + 1) } }
  else
    let seen := c.twn.rxSeq.any fun x => x.1 == type
    let last := kget 0 type c.twn.rxSeq
    if seen && h.seq != last + 1 then
      let c := { c with twn := { c.twn with naks := satNat 16 (c.twn.naks + 1) } }
      twSend c 10 [(type : Int), last.toNat]
    else act { c with twn := { c.twn with rxSeq := kset type h.seq c.twn.rxSeq } }

/-- LINK_TRAINED (R452): sequences start anew, IDENT goes out, and a refused attach may be tried again (R454). -/
def execLinkTrained (s : State) : Res :=
  onTwin s fun c =>
    sendIdent { c with twn := { c.twn with
      trained := true, rxSeq := [], txSeq := [], log := [], refused := false, refDigest := none, lossNow := false } }

/-- IDENT_REPEAT (R452). -/
def execIdentRepeat (s : State) : Res := onTwin s sendIdent

/-- NAK (R453): frames after the last good one go out again; where they are no longer held, a full resync of
their kind starts. -/
def execNak (hdr : LinkHdr) (type seq : BitVec 8) (s : State) : Res :=
  onTwin s fun c => receive c hdr 10 fun c =>
    let t := type.toNat
    let n := (kget 0 t c.twn.txSeq - seq - 1).toNat
    let held := (c.twn.log.filter fun f => f.type == t).take n
    if held.length = n then { c with twn := { c.twn with sent := c.twn.sent ++ held.reverse } }
    else
      let c := { c with twn := { c.twn with resyncs := satNat 16 (c.twn.resyncs + 1) } }
      if t = 6 then sendMirror c else if t = 8 then sendOrders c else if t = 7 then sendPolicy c
      else if t = 2 then sendIdent c else c

/-! ### Attach (R451, R454, Table 17-6) -/

/-- Why an IDENT refuses the attach: 0 group, 1 digest, 2 version, 3 both Plinth master (R454, Table 22-5). -/
def refuseCause (c : Core) (m : IdentMsg) : Option Nat :=
  if m.group != c.maq.head.groupId || m.group == 0 then some 0
  else if m.digest != c.mqs.digest then some 1
  else if m.version != 1 then some 2
  else if m.plinthMaster && c.plb.master then some 3
  else none

/-- This controller becomes Lead of the pair (R451). -/
def leadsPair (c : Core) (m : IdentMsg) : Bool :=
  if c.plb.master != m.plinthMaster then c.plb.master else decide (c.otp.serial.toNat < m.serial.toNat)

/-- Steps 2 and 3 of Table 17-6: roles, a held TW_TRIP_N released, TW_REFCLK taken or driven; the mirror of
step 4 is awaited. -/
def attachRoles (c : Core) (m : IdentMsg) : Core :=
  let lead := leadsPair c m
  { c with
    twn := { c.twn with
      role := if lead then .lead else .follow
      refused := false, mirrorWait := true, drive := false, rxBlock := false, fence := .none, lost := false
      onRef := !lead && c.maq.twin.refclk, drvRef := lead && c.maq.twin.refclk
      twSumReset := true }
    vlt := if lead then c.vlt else { c.vlt with bMax := 0 }
    thm := { c.thm with twPack := [], twBoard := none }
    path := if c.twn.role == .detached then { c.path with held := false } else c.path }

/-- Step 2 of Table 17-6: the checks of R454, a refusal latched, or the roles. -/
def attachStep (c : Core) (m : IdentMsg) : Core :=
  match refuseCause c m with
  | some k =>
    fault { c with twn := { c.twn with refused := true, refCause := k, refDigest := some m.digest } } 0x1402 0
  | none => attachRoles c m

/-- An attach is tried with an IDENT (R454): not while attached, not by a Fenced controller for good or a
Detached one, and after a refusal only with a new digest. -/
def attachTry (c : Core) (m : IdentMsg) : Core :=
  if paired c || c.twn.locked || c.twn.role == .detached
      || (c.twn.refused && c.twn.refDigest == some m.digest) then c
  else attachStep c m

/-- IDENT (R454). -/
def execIdent (hdr : LinkHdr) (m : IdentMsg) (s : State) : Res :=
  onTwin s fun c => receive c hdr 2 fun c => attachTry { c with twn := { c.twn with ident := some m } } m

/-- Steps 5 and 6: a Stopped stage starts, and the share ramp begins. -/
def rampBegin (c : Core) : Core :=
  let c := { c with twn := { c.twn with
    mirrorWait := false, ramp := true, rampDown := false, rampAt := c.life.tick, weight := 0 } }
  if c.twn.role == .follow && c.gdr.st == .stopped then stageStart c true else c

/-! ### Promotion and the survivor (R163, R465, R466, R487) -/

/-- The last merged values become standing orders of the host (R487). -/
def adoptMerged (c : Core) : Core :=
  { c with ord := { c.ord with s := vmap (fun k x =>
      if k < 23 then { x with host := some x.merged } else x) c.ord.s } }

/-- The vault taken over from the mirror: totals from its records, to be recomputed at the next audit (R465).  A Follow does not
promote on a mirror whose digest differs: its levels return (Table 01-7, log entry 132). -/
def takeVault (c : Core) : Core :=
  let c := if c.twn.xMirOk then c
    else lowerAll c (acctsOf c fun a => decide (0 < (c.vlt.acct a).sup.level) || decide (0 < (c.vlt.acct a).ret.level))
  { c with vlt := rebuild (rebuild c.vlt .supply) .ret }

/-- A Follow becomes Lead (R465, R468, R487): vault, orders, and TW_REFCLK where the pair uses it. -/
def promote (c : Core) : Core :=
  let c := adoptMerged (takeVault c)
  { c with
    cel := { c.cel with socValid := c.cel.socValid && c.twn.xLdgOk }
    twn := { c.twn with role := .lead, onRef := c.twn.attached && c.maq.twin.refclk, drvRef := c.maq.twin.refclk } }

/-- The survivor of a fence (R463 step 4, R464): it drives the line on and runs alone; a deficit is recalled at
once (R353), the whole MAIN limit ramps in over 1 ms (R163).  A Follow promotes with PROMOTION_COMPLETE. -/
def survive (c : Core) : Core :=
  let c := { c with
    twn := { c.twn with
      fence := .won, drive := true, attached := false, ramp := false, mirrorWait := false, weight := 0
      ctl := none, leaving := none, share := 0, onRef := c.twn.onRef && c.twn.role == .follow
      role := if c.twn.role == .follow then .follow else .lead }
    vlt := { c.vlt with
      sup := { c.vlt.sup with recallNow := true }, ret := { c.vlt.ret with recallNow := true } }
    path := { c.path with limRamp := some (c.path.iLim, 0) } }
  c

/-- PROMOTION_COMPLETE (R465). -/
def execPromotionComplete (s : State) : Res :=
  onCoreIf s (fun c => inRun c && c.twn.fence == .won && c.twn.role == .follow) promote

/-! ### Heartbeats (R453, R455, R456, R460–R462) -/

/-- Follow: the Lead's tick count taken at step 3 of Table 17-6 restarts the residual windows (R455). -/
def alignTick (c : Core) (h : HeartbeatMsg) : Core :=
  let t := h.tickHi ++ h.tick
  if c.twn.role == .follow && c.twn.mirrorWait && t != c.life.tick then
    { c with life := { c.life with tick := t }, ldg := { c.ldg with restart := true, wins := [] } }
  else c

/-- One step of the share integrator, µA (R456): the mean less the own current, by a gain that the spec does not
state (log entry 55), clamped. -/
def shareStep (c : Core) (h : HeartbeatMsg) : Core :=
  if c.twn.role != .follow || !c.attached || c.twn.shareFroz then c
  else
    let err : Int := (h.isc * 10 - c.meas.isc) / 2
    let lim : Int := 10000 * nPresent c * c.maq.stag.iOc
    { c with twn := { c.twn with share := max (-lim) (min lim (c.twn.share + err * Config.shareGain / 1000)) } }

/-- Path cross-check of a tick (R461): qualification states and the sum of the ISM currents. -/
def pathCheck (c : Core) (h : HeartbeatMsg) : Core :=
  let q := if h.path.getLsbD 0 != (c.path.inp .main).qual then c.twn.qDiff + 1 else 0
  let lim := merged c 2 * 10
  let o := if decide ((lim * 105 / 100 + 400 : Nat) < c.meas.ism + c.twn.ism) then c.twn.ismOver + 1 else 0
  let bound := c.maq.path.tQual * 100 + 1000
  let breach := decide (bound < q) || decide (1000 < o)
  let new_ := breach && c.twn.xPathOk
  let c := { c with twn := { c.twn with qDiff := q, ismOver := o, xPathOk := !breach } }
  if new_ then fault c 0x1405 0 else c

/-- Lead: the Follow's echo of the order generation (R458). -/
def echoCheck (c : Core) (h : HeartbeatMsg) : Core :=
  if c.twn.role != .lead then c
  else
    let n := if h.ordGen == c.ord.gen then 0 else c.twn.genLag + 1
    let c := { c with twn := { c.twn with genLag := n, xPolOk := decide (n ≤ 2) } }
    if n = 3 then fault c 0x1406 0 else c

/-- The digests of a pair compared (R460): where the Lead's audit failed and the Follow's passed, the Follow sends its whole
mirror; another difference is a fault of the mirror. -/
def mirrorCheck (c : Core) (agree leadFailed : Bool) : Core :=
  let was := c.twn.xMirOk
  let c := { c with twn := { c.twn with xMirOk := agree } }
  if c.twn.role == .follow && was && !agree then
    if leadFailed && c.vlt.pass then sendMirror c else fault c 0x1404 0
  else c

/-- HEARTBEAT (R453): `agree` tells whether the digest it carries equals the own one (log entry 16). -/
def execHeartbeat (crcOk agree : Bool) (h : HeartbeatMsg) (s : State) : Res :=
  onTwin s fun c =>
    if !crcOk then { c with twn := { c.twn with hbErr := satNat 16 (c.twn.hbErr + 1) } }
    else
      let c := { c with twn := { c.twn with hb := c.twn.hb + 1, last := some h, lossNow := false } }
      let c := alignTick c h
      let c := if c.twn.mirrorWait && agree then rampBegin { c with twn := { c.twn with xMirOk := true } } else c
      if c.attached then shareStep (echoCheck (pathCheck (mirrorCheck c agree h.auditFailed) h) h) h else c

/-- Fencing begins, unless it runs or the role does not fence (R462, R463). -/
def fenceBegin (c : Core) : Core :=
  if c.twn.fence != .none || c.twn.role == .fenced || c.twn.role == .detached then c
  else { c with twn := { c.twn with fence := .delay, slot := 0, lost := false } }

/-- HEARTBEAT_LOSS (R462, R475): a fault unless a planned detach made it none (R469); an attach in progress is
abandoned and the twin is fenced. -/
def execHeartbeatLoss (s : State) : Res :=
  onTwin s fun c =>
    if !c.twn.trained || c.twn.lossNow then c
    else
      let c := { c with twn := { c.twn with
        trained := false, lossNow := true, hbLoss := satNat 16 (c.twn.hbLoss + 1), mirrorWait := false } }
      let gone := match c.twn.last with | some h => h.role == 5 | none => false
      if gone || c.twn.role == .detached then c
      else fenceBegin (fault c 0x1401 0)

/-! ### Fencing (R463, R464, R467) -/

/-- The controller becomes Fenced (R58, Table 17-2): every gate and path gate low. -/
def becomeFenced (c : Core) : Core :=
  let c := chiselAll (exportEnd c true) 8 0
  let c := pathGatesOff c .off
  { c with twn := { c.twn with
      role := .fenced, fence := .none, drive := false, rxBlock := false, attached := false, ramp := false
      mirrorWait := false, weight := 0, ctl := none, leaving := none, onRef := false, drvRef := false } }

/-- FENCING_DELAY_END (R463 step 2). -/
def execFencingDelayEnd (s : State) : Res :=
  onCoreIf s (fun c => inRun c && c.twn.fence == .delay) fun c =>
    { c with twn := { c.twn with fence := .gap, rxBlock := true, drive := true } }

/-- FENCING_GAP_SAMPLE (R463 steps 3 to 5). -/
def execFencingGapSample (lineAsserted : Bool) (s : State) : Res :=
  onCoreIf s (fun c => inRun c && c.twn.fence == .gap) fun c =>
    if lineAsserted then { c with twn := { c.twn with fence := .contest, slot := 0, drive := false } }
    else survive c

/-- CONTEST_SLOT (R464): a 1 that samples the line low has lost; 64 slots win. -/
def execContestSlot (lineLow : Bool) (s : State) : Res :=
  onCoreIf s (fun c => inRun c && c.twn.fence == .contest) fun c =>
    if c.otp.serial.getLsbD (63 - c.twn.slot) && lineLow then
      { c with twn := { c.twn with fence := .none, lost := true, rxBlock := false, drive := false } }
    else
      let c := { c with twn := { c.twn with slot := c.twn.slot + 1 } }
      if c.twn.slot = 64 then survive c else c

/-- TW_TRIP_N_ASSERTED (R35, R58, R448): gates and path gates low, and Fenced in Run. -/
def execTwTripNAsserted (s : State) : Res :=
  onCore s fun c =>
    let c := { c with pins := { c.pins with twTrip := true } }
    if c.twn.rxBlock then c
    else if inRun c || c.life.st == .dormant then
      if twinExpected c then becomeFenced c else c
    else if inSafeHold c then
      let c := pathGatesOff (chiselAll c 8 0) .off
      { c with path := { c.path with gbtWait := false, shGpmWait := false } }
    else c

/-- TW_TRIP_N_RELEASED (R467, R58): the gates of a controller that attach step 3 has made Follow are released;
in Safe Hold the held gates are free again. -/
def execTwTripNReleased (s : State) : Res :=
  onCore s fun c =>
    let c := { c with pins := { c.pins with twTrip := false } }
    if inRun c && c.twn.role == .follow then { c with path := { c.path with held := c.thm.tripped } }
    else if inSafeHold c && c.path.held && !c.thm.tripped then safeHoldResume c
    else c

/-- TRIP_READBACK_MISMATCH (Table 17-7 row 7): class A, and Fenced until the next start. -/
def execTripReadbackMismatch (s : State) : Res :=
  onTwin s fun c =>
    let c := becomeFenced (fault c 0x1407 0)
    { c with twn := { c.twn with locked := true } }

/-- ATTACH_TIMEOUT (R449). -/
def execAttachTimeout (s : State) : Res :=
  onCoreIf s (fun c => inRun c && c.twn.role == .pending) fenceBegin

/-! ### Pair data (R192, R367, R458–R460) -/

/-- CELLS (R192, R210). -/
def execCells (hdr : LinkHdr) (m : CellsMsg) (s : State) : Res :=
  onTwin s fun c => receive c hdr 3 fun c => if c.attached then twinCells c m.cells else c

/-- The residual a LEDGER frame should report, µC (R263, R459). -/
def twinResidual (c : Core) (v0 : Nat) (m : LedgerMsg) : Int :=
  let q := fun k => vget m.net k 0
  q 3 - q 5 - q 4 - q 6 - ((m.vsys : Int) - v0) * c.maq.path.cSys / 1000

/-- The closes of a start at the last of which, at the latest, the base is added: the log scan ends within 45 ms of Run entry
(R103, R274). -/
def baseCloses : Nat := 5

/-- The twin's accumulators in the pair's sum (R201), once they hold their base; a Q_REF set from the curve before any figure
of them counts from the first one (log entry 129). -/
def twinNet (c : Core) (m : LedgerMsg) : Core :=
  if m.closeNo ≤ baseCloses then c
  else { c with
    ldg := { c.ldg with twIsp := some m.ispNet }
    cel := { c.cel with qRef := if c.cel.refAlone then c.cel.qRef - m.ispNet else c.cel.qRef, refAlone := false } }

/-- LEDGER (R459): the residual recomputed, and the ISP sum held against the reported net. -/
def execLedger (hdr : LinkHdr) (m : LedgerMsg) (s : State) : Res :=
  onTwin s fun c => receive c hdr 4 fun c =>
    let bad := match c.ldg.twV with
      | some v0 => decide (1 < (twinResidual c v0 m - m.resid).natAbs)
      | none => false
    let fresh := c.twn.twSumReset || c.ldg.twBase.isNone || decide (m.closeNo ≤ baseCloses)
    let sum := if fresh then 0 else c.ldg.twSum + vget m.net 4 0
    let base := if fresh then m.ispNet else c.ldg.twBase.getD m.ispNet
    let diff := sum / 1000 - (m.ispNet - base)
    let ok := decide (diff.natAbs ≤ c.maq.twin.dqx)
    let was := c.twn.xLdgOk
    let c := { c with
      ldg := { c.ldg with twV := some m.vsys, twSum := sum, twBase := some base }
      twn := { c.twn with
        twSumReset := false, xLdg := diff, xLdgOk := ok, isp := vget m.net 4 0 / 10, ism := vget m.net 0 0 / 10 } }
    let c := twinNet c m
    let c := if bad then fault c 0x1805 0 else c
    if !ok && was then fault c 0x1403 0 else c

/-- POOLDATA (R367). -/
def execPooldata (hdr : LinkHdr) (m : PoolMsg) (s : State) : Res :=
  onTwin s fun c => receive c hdr 5 fun c =>
    if c.twn.role == .lead then
      { c with vlt := { c.vlt with kTwin := m.k, lLocTwin := m.lloc, pRetTwin := m.pfwd + m.pch + m.pex } }
    else c

/-- A mirrored request. -/
def mirrorReq (tokens age : Nat) (seq : Byte) : Option Req :=
  if tokens = 0xFFFF then none
  else some { tokens := tokens, seq := seq, age := age, no := 65535 - age, answered := true }

/-- The tick count of which a mirror record names the low half: the nearest to the present (Table 17-5). -/
def fullTick (now : BitVec 64) (t : Nat) : Nat :=
  ((now.toNat : Int) + (BitVec.ofNat 32 t - now.truncate 32).toInt).toNat

/-- One mirror record applied to an account (Table 17-5). -/
def applyMirror (c : Core) (a : Nat) (r : MirrorRec) : Core :=
  let end_ := fun (t : Nat) => if t = 0 then none else some (fullTick c.life.tick t)
  let sq := BitVec.ofNat 8 r.supSeq
  let rq := BitVec.ofNat 8 r.retSeq
  let c := book c a .supply fun _ =>
    { level := r.supLevel, leaseEnd := end_ r.supEnd, req := mirrorReq r.supReq r.supAge sq }
  let c := book c a .ret fun _ =>
    { level := r.retLevel, leaseEnd := end_ r.retEnd, req := mirrorReq r.retReq r.retAge rq }
  let burst : Option Burst := if r.flags.getLsbD 3 then
      some { e := r.burstE, d := (fullTick c.life.tick r.burstEnd - c.life.tick.toNat) / 100
             windowEnd := if r.flags.getLsbD 4 then some (fullTick c.life.tick r.burstEnd) else none }
    else none
  let c := updAcct (setBurst c a burst) a fun x => { x with supSeq := some sq, retSeq := some rq }
  updPartner c (acctPort a) (acctAddr a) fun x => { x with
    enrolled := r.flags.getLsbD 0, absent := r.flags.getLsbD 1, barred := r.flags.getLsbD 2 }

/-- MIRROR records from an account on. -/
def applyMirrors : Core → Nat → List MirrorRec → Core
  | c, _, [] => c
  | c, a, r :: rs => applyMirrors (if a < 4064 then applyMirror c a r else c) (a + 1) rs

/-- MIRROR (R460): a Follow takes the records; a Lead whose audit failed rebuilds from its Follow's. -/
def execMirror (hdr : LinkHdr) (m : MirrorMsg) (s : State) : Res :=
  onTwin s fun c => receive c hdr 6 fun c =>
    if c.twn.role == .follow || (c.twn.role == .lead && decide (0 < c.vlt.noRaise)) then
      applyMirrors c m.first m.recs
    else c

/-- POLICY (R458): applied at the next tick. -/
def execPolicy (hdr : LinkHdr) (m : PolicyMsg) (s : State) : Res :=
  onTwin s fun c => receive c hdr 7 fun c =>
    if c.twn.role == .follow then { c with twn := { c.twn with polPend := some m } } else c

/-- ORDERS (R458, R478): applied at the next tick. -/
def execOrders (hdr : LinkHdr) (m : OrdersMsg) (s : State) : Res :=
  onTwin s fun c => receive c hdr 8 fun c =>
    if c.twn.role == .follow then { c with twn := { c.twn with ordPend := some m } } else c

/-- A POLICY that shows a charge cycle begun by the Lead (R168, R172): its timers are clear again, or a phase follows none
or Termination (DEDUCED, log entry 126). -/
def newCycleSeen (c : Core) (m : PolicyMsg) : Bool :=
  let idle := c.chg.phase == .none || c.chg.phase == .term
  let p := phaseOfCode m.phase
  m.tPre == 0 && m.tBulk == 0
    && (c.chg.tPre != 0 || c.chg.tBulk != 0 || (idle && p != .none && p != .term))

/-- What a received POLICY and ORDERS change at the tick that follows (R187, R458, R478). -/
def twinApply (c : Core) : Core :=
  let c := match c.twn.polPend with
    | some m =>
      let new := newCycleSeen c m
      { c with
        chg := { c.chg with
          corr := if new then 0 else c.chg.corr, imbalanced := c.chg.imbalanced && !new
          phase := phaseOfCode m.phase, heater := m.heater, leadSusp := m.suspended, restOff := m.restOff
          tPre := m.tPre, tBulk := m.tBulk }
        thm := { c.thm with packLead := some (if m.band = 255 then 7 else m.band) }
        cel := { c.cel with soc := m.soc, coarse := m.coarse }
        twn := { c.twn with polPend := none, xPolOk := true } }
    | none => c
  match c.twn.ordPend with
  | some m =>
    let f := fun (k : Nat) (x : SlotG) =>
      match m.entries.find? fun e => slotIx e.1 == some k with
      | some e => { x with merged := e.2 }
      | none => x
    { c with
      ord := { c.ord with s := vmap f c.ord.s, gen := m.gen }
      twn := { c.twn with ordPend := none } }
  | none => c

/-! ### Role handover, planned detach, reattach (R468, R469, R472) -/

/-- Grid tick of the next Plinth cycle start (R468). -/
def nextCycle (c : Core) : Nat := (c.life.tick.toNat / 100 + 1) * 100

/-- A role handover begins at the Lead (R468). -/
def handoverBegin (c : Core) : Core :=
  if c.twn.role == .lead && c.attached then
    sendControl { c with twn := { c.twn with ctl := some (1, nextCycle c) } } 1 (nextCycle c)
  else c

/-- Command 2 sent: the share ramp to the detach starts at the next cycle (R469). -/
def detachSend (c : Core) (own : Bool) : Core :=
  sendControl { c with twn := { c.twn with leaving := some own, ctl := some (2, nextCycle c) } } 2 (nextCycle c)

/-- A planned detach order at the Lead (R469, R550): value 1, it leaves itself, after a role handover; 2, its
twin leaves, which the Lead's command 2 tells it (log entry 17). -/
def detachBegin (c : Core) (own : Bool) : Core :=
  if !c.attached then c
  else if own then handoverBegin { c with twn := { c.twn with leaving := some true } }
  else detachSend c false

/-- A reattach order (R469): command 5 to the Detached twin. -/
def reattachBegin (c : Core) : Core := sendControl c 5 c.life.tick.toNat

/-- CONTROL (R468, R469, R474): a Follow that receives command 2 leaves and sends its own; the Lead that
receives it prepares its twin's leaving. -/
def execControl (hdr : LinkHdr) (m : ControlMsg) (s : State) : Res :=
  onTwin s fun c => receive c hdr 9 fun c =>
    match m.command with
    | 1 => { c with twn := { c.twn with ctl := some (1, m.tick) } }
    | 2 =>
      if c.twn.role == .follow then detachSend c true
      else { c with twn := { c.twn with leaving := some false, ctl := some (2, m.tick) } }
    | 3 =>
      { c with
        twn := { c.twn with attached := false, ramp := false, leaving := none, weight := 0, ctl := none, onRef := false }
        vlt := { c.vlt with
          sup := { c.vlt.sup with recallNow := true }, ret := { c.vlt.ret with recallNow := true } } }
    | 4 => { c with own := { c.own with step := 1, closes := 0, closeTick := some m.tick } }
    | 5 =>
      if c.twn.role == .detached then
        let c := sendIdent c
        match c.twn.ident with
        | some i => attachStep c i
        | none => c
      else c
    | _ => c

/-- The ramp of a planned detach begins (R469). -/
def detachRamp (c : Core) : Core :=
  { c with twn := { c.twn with ramp := true, rampDown := true, rampAt := c.life.tick } }

/-- CONTROL_EFFECTIVE (R468, R469): the roles swap, or the ramp of the detach begins. -/
def execControlEffective (s : State) : Res :=
  onTwin s fun c =>
    match c.twn.ctl with
    | none => c
    | some (cmd, _) =>
      let c := { c with twn := { c.twn with ctl := none } }
      match cmd with
      | 1 =>
        if c.twn.role == .follow then promote c
        else if c.twn.role == .lead then
          let c := { c with
            twn := { c.twn with role := .follow, onRef := c.maq.twin.refclk, drvRef := false }
            vlt := { c.vlt with bMax := 0 } }
          if c.twn.leaving == some true then detachSend c true else c
        else c
      | 2 => detachRamp c
      | _ => c

/-- A leaving controller at the end of its ramp (R469): stage Stopped, path gates and BATFET off, command 3. -/
def detachDone (c : Core) : Core :=
  let c := chiselAll (stagePark (exportEnd c true)) 0 0
  let c := sendControl (pathGatesOff c .off) 3 c.life.tick.toNat
  { c with twn := { c.twn with
      role := .detached, attached := false, ramp := false, rampDown := false, leaving := none, weight := 0
      onRef := false, drvRef := false } }

/-- SHARE_RAMP_END (R457, R469): attached, with both PWM PLLs on TW_REFCLK where the Maquette says so (R223), or the detach is
done. -/
def execShareRampEnd (s : State) : Res :=
  onCoreIf s (fun c => inRun c && c.twn.ramp) fun c =>
    if c.twn.rampDown then
      if c.twn.leaving == some true then detachDone c
      else { c with twn := { c.twn with ramp := false, weight := 0 } }
    else { c with twn := { c.twn with
        ramp := false, attached := true, weight := 1000, share := 0, shareFroz := false, xPathOk := true
        xPolOk := true, xLdgOk := true, qDiff := 0, ismOver := 0, genLag := 0
        onRef := c.twn.onRef || (c.twn.role == .lead && c.maq.twin.refclk) } }

/-- Weight of the correction along a ramp, per mille (R457). -/
def rampWeight (c : Core) : Core :=
  if !c.twn.ramp then c
  else
    let t := (c.life.tick - c.twn.rampAt).toNat
    let w := Nat.min 1000 (t * 10 / Nat.max 1 c.maq.twin.ramp)
    { c with twn := { c.twn with weight := if c.twn.rampDown then 1000 - w else w } }

/-- SHARE_ERROR (Table 17-7 row 8). -/
def execShareError (s : State) : Res :=
  onCoreIf s (fun c => inRun c && c.attached) fun c =>
    fault { c with twn := { c.twn with shareFroz := true } } 0x1408 0

/-- TW_REFCLK_LOSS (R466): holdover, then MOSC; no loss of lock. -/
def execTwRefclkLoss (s : State) : Res :=
  onTwin s fun c => { c with twn := { c.twn with onRef := false } }

/-- TW_PRES_N_CHANGE (Table 02-3, R59): in Safe Hold its first deassertion asserts every SHED line; the edge to asserted wakes
Dormant (Table 04-5). -/
def execTwPresNChange (asserted : Bool) (s : State) : Res :=
  onCore s fun c =>
    let edge := asserted && !c.pins.twPres
    let c := { c with pins := { c.pins with twPres := asserted } }
    if edge then wakeBegin c false
    else if inSafeHold c && !asserted then
      { c with plb := { c.plb with p := vmap (fun _ g => { g with bySafe := true, shed := true }) c.plb.p } }
    else c

end Sys2Proof.Machine
end

