-- ==== Sys2Proof/Machine/Orders.lean ====
section
/-! DEFINITION. Orders and authority (chapter 18): the slots of Table 18-2, the judgement of an order, the
merge of every merge tick, and what the command slots and the merged values set off. Slots are named by
their place in Table 18-2: 0–22 merged, 23–30 commands. -/

namespace Sys2Proof.Machine

/-! ### Slots (Table 18-2) -/

/-- Merge kinds of Table 18-2. -/
inductive MergeKind where
  | ranked | ceiling | inhibit | onOff | export_ | command
  deriving DecidableEq, Repr

/-- Merge kind of a slot. -/
def slotKind (k : Nat) : MergeKind :=
  if k ≤ 1 then .ranked
  else if k ≤ 4 || k == 16 then .ceiling
  else if k == 5 || (decide (17 ≤ k) && decide (k ≤ 21)) then .inhibit
  else if k ≤ 15 then .onOff
  else if k == 22 then .export_
  else .command

/-- HEAD lock bit of a slot (Tables 03-5 and 18-2). -/
def slotLock (k : Nat) : Option Nat :=
  if k ≤ 2 then some k
  else if k ≤ 4 then some 3
  else if k == 5 then none
  else if k ≤ 13 then some 4
  else if k ≤ 15 then some 5
  else if k == 16 then some 6
  else if k == 21 || k == 25 then some 7
  else none

/-- A slot is locked by HEAD (R73, R477). -/
def slotLocked (c : Core) (k : Nat) : Bool :=
  match slotLock k with
  | some b => c.maq.head.lockMask.getLsbD b
  | none => false

/-- The value that withdraws a standing order (R479). -/
def withdrawValue : BitVec 32 := 0xFFFFFFFF

/-- Maquette value of a merged slot (R480); an on/off or inhibit slot has none. -/
def slotMaquette (c : Core) (k : Nat) : Nat :=
  match k with
  | 0 => c.maq.path.prio.toNat
  | 1 => c.maq.path.floor
  | 2 => c.maq.path.iLim
  | 3 => c.maq.pack.iCeil
  | 4 => c.maq.pack.vFloat
  | 16 => c.maq.valt.nCap
  | _ => 0

/-- An internal on request of an on/off slot (R407, R383). -/
def slotInternal (c : Core) (k : Nat) : Bool :=
  if k ≤ 13 then lswInternal c (k - 6)
  else if k == 14 then (pdCfg c .a).source
  else (pdCfg c .b).source

/-! ### Judgement of one order (R479) -/

/-- The master may order the slot (Table 18-2). -/
def mayOrder (m : Master) (k : Nat) : Bool :=
  match m with
  | .host => true
  | .supervisor => decide (k ≤ 21) || k == 24

/-- A slot that only a Lead, or a controller that runs alone, carries out (Table 18-2). -/
def leadOnly (k : Nat) : Bool := decide (26 ≤ k) && decide (k ≤ 29)

/-- The owner handover may be accepted (R525). -/
def handoverOk (c : Core) : Bool :=
  inRun c && c.twn.role == .lead && c.own.step == 0 && ownerEnabled c && !c.own.scan

/-- The value is one the slot takes (Table 18-2, R140, R154, R406, R479, R550). -/
def valueOk (c : Core) (k : Nat) (v : BitVec 32) : Bool :=
  let n := v.toNat
  match slotKind k with
  | .ceiling => true
  | .ranked =>
    v == withdrawValue
      || (if k == 0 then decide (n < 64) && c.maq.path.prioOk (v.truncate 8) else within 24000 n 56000)
  | .inhibit => decide (n ≤ 1)
  | .onOff => decide (n ≤ 1) && (decide (14 ≤ k) || (lswCfg c (k - 6)).present)
  | .export_ => c.maq.path.mainBidir && (n == 0 || within c.maq.path.vQL n c.maq.path.vQH)
  | .command =>
    if k == 23 then v == 0xA5A5
    else if k == 27 then n == 1 || n == 2
    else if k == 29 then n == 1 && handoverOk c
    else n == 1

/-- The result of an order that cannot stand; none where it goes on to the merge (R478, R479). -/
def screen (c : Core) (m : Master) (k : Nat) (v : BitVec 32) : Option OrdRes :=
  if c.twn.role == .follow && decide (k < 23) then some .outranked
  else if !mayOrder m k || (leadOnly k && c.twn.role != .lead) || !valueOk c k v then some .invalid
  else if slotLocked c k then some .locked
  else none

/-- Result code of ORDER_ACK and OSTAT (Table 12-5). -/
def OrdRes.code : OrdRes → Nat
  | .accepted => 0 | .locked => 1 | .outranked => 2 | .conflict => 3 | .invalid => 4 | .notSup => 5

/-! ### Standing orders (R483, R485, R489) -/

/-- Standing order of a master. -/
def SlotG.of (x : SlotG) : Master → Option (BitVec 32)
  | .host => x.host | .supervisor => x.sup

/-- Standing order of a master set or removed. -/
def SlotG.put (x : SlotG) (m : Master) (v : Option (BitVec 32)) : SlotG :=
  match m with
  | .host => { x with host := v } | .supervisor => { x with sup := v }

/-- One slot of the order store. -/
def slotOf (c : Core) (k : Nat) : SlotG := vget c.ord.s k {}

/-- One slot of the order store changed. -/
def updSlot (c : Core) (k : Nat) (f : SlotG → SlotG) : Core :=
  { c with ord := { c.ord with s := vupd c.ord.s k f } }

/-- Smallest value of a list of words. -/
def minWord : List (BitVec 32) → BitVec 32
  | [] => withdrawValue
  | v :: vs => if v.toNat ≤ (minWord vs).toNat then v else minWord vs

/-- The one value that several orders of one master to one slot in one merge tick leave (R489); none where
they conflict. -/
def combine (kind : MergeKind) (vs : List (BitVec 32)) : Option (BitVec 32) :=
  match vs with
  | [v] => some v
  | vs =>
    match kind with
    | .ranked | .command => none
    | .ceiling => some (minWord vs)
    | .onOff => some (if vs.contains 0 then 0 else 1)
    | .inhibit => some (if vs.contains 1 then 1 else 0)
    | .export_ =>
      if vs.contains 0 then some 0
      else match vs.dedup with
        | [v] => some v
        | _ => none

/-- The orders of one master to one slot taken (R483, R489); two that conflict keep the standing one. -/
def takeOrders (x : SlotG) (k : Nat) (m : Master) (vs : List (BitVec 32)) : SlotG :=
  match vs, combine (slotKind k) vs with
  | [], _ => x
  | _, none => x
  | _, some v => x.put m (if v == withdrawValue then none else some v)

/-- Values that the valid orders of a master name for a slot in this tick. -/
def valuesFor (l : List Arrived) (m : Master) (k : Nat) : List (BitVec 32) :=
  (l.filter fun a => a.m == m && a.slot == k).map Arrived.v

/-- The orders of one slot taken, host first; they change nothing but standing orders. -/
def takeSlot (l : List Arrived) (k : Nat) (x : SlotG) : SlotG :=
  takeOrders (takeOrders x k .host (valuesFor l .host k)) k .supervisor (valuesFor l .supervisor k)

/-! ### Merged values (R480, R481) -/

/-- Standing orders of a slot, highest rank first. -/
def SlotG.standing (x : SlotG) : List (BitVec 32) := x.host.toList ++ x.sup.toList

/-- The merged value of a slot (R480): a locked slot takes its Maquette value and internal requests (R477). -/
def mergeValue (c : Core) (k : Nat) (x : SlotG) : BitVec 32 :=
  let st := if slotLocked c k then [] else x.standing
  let mq := slotMaquette c k
  match slotKind k with
  | .ceiling => BitVec.ofNat 32 (st.foldl (fun n v => Nat.min n v.toNat) mq)
  | .onOff => if st.contains 0 then 0 else if !st.isEmpty || slotInternal c k then 1 else 0
  | .inhibit => if st.contains 1 then 1 else 0
  | .ranked => st.headD (BitVec.ofNat 32 mq)
  | .export_ => if st.contains 0 then 0 else st.headD 0
  | .command => 0

/-- The result of a valid order of a merged slot after the merge (R484, R488, R489). -/
def mergedResult (c : Core) (l : List Arrived) (a : Arrived) : OrdRes :=
  if (combine (slotKind a.slot) (valuesFor l a.m a.slot)).isNone then .conflict
  else if slotKind a.slot == .ranked && a.m == .supervisor && a.v != withdrawValue
      && (slotOf c a.slot).host.isSome then .outranked
  else .accepted

/-- Every merged value formed (R480, R481); a Follow keeps those of its Lead (R478).  A change raises the
order generation. -/
def formMerged (c : Core) : Core :=
  if c.twn.role == .follow || inSafeHold c then c
  else
    let f := fun (k : Nat) (x : SlotG) =>
      if k < 23 then
        let v := mergeValue c k x
        let above := fun (o : BitVec 32) => decide (slotMaquette c k < o.toNat)
        { x with merged := v, clamped := slotKind k == .ceiling && x.host.toList.any above }
      else x
    let s := vmap f c.ord.s
    let same := decide (s.toList.map SlotG.merged = c.ord.s.toList.map SlotG.merged)
    { c with ord := { c.ord with s := s, gen := if same then c.ord.gen else c.ord.gen + 1 } }

/-! ### Lifetimes (R486) -/

/-- The supervisor account is active and its partner is enrolled, present and not barred (R486). -/
def supervisorStands (c : Core) : Bool :=
  match c.maq.plbs.superv with
  | some a =>
    let p := acctPartner c a
    acctActive c a && p.enrolled && !p.absent && !p.barred
  | none => false

/-- The supervisor's on orders and ranked orders withdrawn while it is gone (R486). -/
def supervisorGone (c : Core) : Core :=
  if supervisorStands c then c
  else
    let f := fun (k : Nat) (x : SlotG) =>
      if slotKind k == .ranked || (slotKind k == .onOff && x.sup != some 0) then { x with sup := none } else x
    { c with ord := { c.ord with s := vmap f c.ord.s } }

/-- Every standing order of the supervisor cleared (slot 0x0087, R486). -/
def clearSupervisor (c : Core) : Core :=
  { c with ord := { c.ord with s := vmap (fun _ (x : SlotG) => { x with sup := none }) c.ord.s } }

/-! ### Results (R484, R540) -/

/-- The result of one order returned to its master: OSTAT and attention cause [1] for the host, ORDER_ACK for
the supervisor; conflicts are counted, and the order record is queued (R484, R540, Tables 19-6 and 20-4). -/
def report (c : Core) (a : Arrived) (r : OrdRes) : Core :=
  let c := if r == .conflict then
      { c with ord := { c.ord with conflicts := satNat 16 (c.ord.conflicts + 1) } } else c
  let c := queueFree c .order (.order (a.m == .host) a.slot a.v r)
  match a.m with
  | .host =>
    let c := updSlot c a.slot fun x => { x with res := some r }
    if r == .accepted then c else attend c 1
  | .supervisor =>
    match a.src with
    | some (p, addr, idx, seq) => sendOrderAck c p addr.toNat idx (slotCodes.getD a.slot 0) r.code seq
    | none => c

/-! ### Commands (R482) -/

/-- An owner handover accepted (R525, R474): in a pair CONTROL command 4 names the closing close. -/
def ownerHandover (c : Core) : Core :=
  let t := ((c.life.tick.toNat + 999) / 1000 + 1) * 1000
  let c := { c with own := { c.own with step := 1, closes := 0, closeTick := none } }
  if c.attached then sendControl { c with own := { c.own with closeTick := some t } } 4 t else c

/-- A command slot carried out at the merge tick of its arrival (R482); slot 0x0087 went before the merge. -/
def command (c : Core) (k : Nat) (v : BitVec 32) : Core :=
  match k with
  | 23 =>
    let c := { c with life := { c.life with resetOrder := true } }
    if inSafeHold c || c.ldg.basePend then c else queueLastClose c
  | 24 => chargeRestart c
  | 25 => { c with life := { c.life with dormReq := true } }
  | 26 => handoverBegin c
  | 27 => detachBegin c (v == 1)
  | 28 => reattachBegin c
  | 29 => ownerHandover c
  | _ => c

/-- The valid commands of the tick carried out, oldest first. -/
def runCommands (c : Core) (l : List Arrived) : Core :=
  l.foldl (fun c a => if slotKind a.slot == .command then command c a.slot a.v else c) c

/-! ### What merged values set off -/

/-- The MAIN export order (R154, R156, R485): an order that ends, or is replaced by another voltage, ends the
export; a standing one asks the vault for its backing (R366). -/
def exportOrderStep (c : Core) : Core :=
  let v := merged c 22
  let live := (match c.path.export_ with | some e => e.port == .main && e.volt != v | none => false)
    || (match c.path.exportWait with | some e => e.port == .main && e.volt != v | none => false)
  let c := if live then exportStop c 4066 true else c
  let asked := c.vlt.askBack.any fun x => x.1 == 4066
  if v = 0 || !c.maq.path.mainBidir then
    { c with vlt := { c.vlt with askBack := c.vlt.askBack.filter fun x => x.1 != 4066 } }
  else if asked || !keepsVault c || c.path.export_.isSome || c.path.exportWait.isSome || c.path.exOff.isSome
      || !c.vlt.askBack.isEmpty then c
  else { c with vlt := { c.vlt with askBack := [(4066, tokensFor v (c.maq.path.iExp * 10))] } }

/-! ### The merge (R480) -/

/-- A supervisor order changed a merged value (Table 19-6 cause [4]). -/
def supervisorActed (before c : Core) (l : List Arrived) : Bool :=
  l.any fun a => a.m == .supervisor && decide (a.slot < 23) && merged before a.slot != merged c a.slot

/-- Step 1 of R41: absent supervisor, clear command, orders, merged values, commands, results. -/
def orderMerge (c : Core) : Core :=
  let l := c.ord.arrived
  let before := c
  let c := supervisorGone { c with ord := { c.ord with arrived := [] } }
  let judged := l.map fun a => (a, screen c a.m a.slot a.v)
  let ok := (judged.filter fun x => x.2.isNone).map Prod.fst
  let c := if ok.any fun a => a.slot == 30 then clearSupervisor c else c
  let c := { c with ord := { c.ord with s := vmap (fun k x => if k < 23 then takeSlot ok k x else x) c.ord.s } }
  let c := formMerged c
  let results := judged.map fun x => (x.1, match x.2 with
    | some r => r
    | none => if slotKind x.1.slot == .command then .accepted else mergedResult c ok x.1)
  let c := results.foldl (fun c x => report c x.1 x.2) c
  let c := if supervisorActed before c ok then attend c 4 else c
  runCommands c ok

/-! ### The order commands -/

/-- A lifecycle state in which the port or the bus takes orders (R490, R110). -/
def takesOrders (c : Core) (k : Nat) : Bool :=
  match c.life.st with
  | .run | .dormant => true
  | .safeHold => k == 23
  | _ => false

/-- An order arrives and waits for the next merge tick (R480, R490); one that Safe Hold refuses is reported as
REFUSED where it came through the port (R110, R498).  A host's write wakes Dormant (Table 04-5). -/
def arrive (m : Master) (k : Nat) (v : BitVec 32) (s : State) : Res :=
  if takesOrders s.core k then
    onCore s fun c =>
      let c := { c with ord := { c.ord with arrived := c.ord.arrived ++ [{ m := m, slot := k, v := v }] } }
      if m == .host then wakeBegin c false else c
  else if inSafeHold s.core && m == .host then
    .next (refusePort { s with win := { s.win with status := 0 } })
  else .next s

/-- INPUT_PRIORITY_ORDER (slot 0x0001). -/
def execInputPriorityOrder (m : Master) (v : BitVec 32) (s : State) : Res := arrive m 0 v s

/-- SYS_FLOOR_ORDER (slot 0x0002). -/
def execSysFloorOrder (m : Master) (v : BitVec 32) (s : State) : Res := arrive m 1 v s

/-- MAIN_INPUT_CURRENT_LIMIT_ORDER (slot 0x0003). -/
def execMainInputCurrentLimitOrder (m : Master) (v : BitVec 32) (s : State) : Res := arrive m 2 v s

/-- CHARGE_CURRENT_CEILING_ORDER (slot 0x0004). -/
def execChargeCurrentCeilingOrder (m : Master) (v : BitVec 32) (s : State) : Res := arrive m 3 v s

/-- CHARGE_VOLTAGE_CEILING_ORDER (slot 0x0005). -/
def execChargeVoltageCeilingOrder (m : Master) (v : BitVec 32) (s : State) : Res := arrive m 4 v s

/-- CHARGE_INHIBIT_ORDER (slot 0x0006). -/
def execChargeInhibitOrder (m : Master) (v : BitVec 32) (s : State) : Res := arrive m 5 v s

/-- LOAD_SWITCH_ORDER (slots 0x0010–0x0017). -/
def execLoadSwitchOrder (m : Master) (ch : Fin 8) (v : BitVec 32) (s : State) : Res := arrive m (6 + ch.val) v s

/-- PD_SOURCE_ENABLE_ORDER (slots 0x0020 and 0x0021). -/
def execPdSourceEnableOrder (m : Master) (port : PdId) (v : BitVec 32) (s : State) : Res :=
  arrive m (14 + pdIx port) v s

/-- TOKEN_POOL_CAP_ORDER (slot 0x0030). -/
def execTokenPoolCapOrder (m : Master) (v : BitVec 32) (s : State) : Res := arrive m 16 v s

/-- SHED_ORDER (slots 0x0031–0x0034). -/
def execShedOrder (m : Master) (p : Fin 4) (v : BitVec 32) (s : State) : Res := arrive m (17 + p.val) v s

/-- DORMANT_INHIBIT_ORDER (slot 0x0040). -/
def execDormantInhibitOrder (m : Master) (v : BitVec 32) (s : State) : Res := arrive m 21 v s

/-- MAIN_EXPORT_ORDER (slot 0x0050). -/
def execMainExportOrder (v : BitVec 32) (s : State) : Res := arrive .host 22 v s

/-- RESET_ORDER (slot 0x0080). -/
def execResetOrder (v : BitVec 32) (s : State) : Res := arrive .host 23 v s

/-- RESTART_ORDER (slot 0x0081). -/
def execRestartOrder (m : Master) (v : BitVec 32) (s : State) : Res := arrive m 24 v s

/-- DORMANT_REQUEST_ORDER (slot 0x0082). -/
def execDormantRequestOrder (v : BitVec 32) (s : State) : Res := arrive .host 25 v s

/-- ROLE_HANDOVER_ORDER (slot 0x0083). -/
def execRoleHandoverOrder (v : BitVec 32) (s : State) : Res := arrive .host 26 v s

/-- PLANNED_DETACH_ORDER (slot 0x0084). -/
def execPlannedDetachOrder (v : BitVec 32) (s : State) : Res := arrive .host 27 v s

/-- REATTACH_ORDER (slot 0x0085). -/
def execReattachOrder (v : BitVec 32) (s : State) : Res := arrive .host 28 v s

/-- OWNER_HANDOVER_ORDER (slot 0x0086). -/
def execOwnerHandoverOrder (v : BitVec 32) (s : State) : Res := arrive .host 29 v s

/-- CLEAR_SUPERVISOR_ORDERS (slot 0x0087). -/
def execClearSupervisorOrders (v : BitVec 32) (s : State) : Res := arrive .host 30 v s

/-- RESET_ORDER_EXECUTE (R271, Table 04-3): the accepted reset order takes effect. -/
def execResetOrderExecute (s : State) : Res :=
  onCoreIf s (fun c => c.life.resetOrder) fun c => resetEntry c .order 2 0

end Sys2Proof.Machine
end

