-- ==== Sys2Proof/Machine/Records.lean ====
section
/-! DEFINITION. The NVM at work and the owner records (chapters 03 and 20): the log ring and its scan, the
queue of NVM operations, decryption, the owner handover, staging of an image and provisioning. -/

namespace Sys2Proof.Machine

/-! ### The log ring (R516–R523) -/

/-- Sectors of the log region. -/
def logSectors (c : Core) : Nat := c.maq.ownr.logLen / 4096

/-- A sector of the ring; an unlisted one is erased. -/
def sectorOf (c : Core) (i : Nat) : LogSector := kget {} i c.nvm.sectors

/-- A sector of the ring changed. -/
def updSector (c : Core) (i : Nat) (f : LogSector → LogSector) : Core :=
  { c with nvm := { c.nvm with sectors := kupd {} i f c.nvm.sectors } }

/-- The last whole record of a type in a list. -/
def lastOf (t : RecType) (l : List LogRec) : Option LogRec := (l.filter fun r => r.type == t && !r.torn).getLast?

/-- Log-region offset of the newest record of a type: in the head sector, or where its header points (R522). -/
def newestOff (idx : Nat) (x : LogSector) (t : RecType) (ptr : Option Nat) : Option Nat :=
  match lastOf t x.recs with
  | some r => some (idx * 4096 + r.off)
  | none => ptr

/-- Offset of the newest checkpoint. -/
def newestCp (c : Core) (h : Nat) : Option Nat := newestOff h (sectorOf c h) .checkpoint (sectorOf c h).cpOff

/-- Offset of the newest Patina record. -/
def newestPat (c : Core) (h : Nat) : Option Nat := newestOff h (sectorOf c h) .patina (sectorOf c h).patOff

/-- The record at a log-region offset (R524). -/
def recordAt (c : Core) (off : Nat) : Option LogRec :=
  (sectorOf c (off / 4096)).recs.find? fun r => r.off == off % 4096

/-- The sector that follows in address order, past those skipped after a failed operation (R517, Table 20-7). -/
def nextSector (c : Core) (h : Nat) : Nat :=
  let n := max 1 (logSectors c)
  (((List.range n).map fun i => (h + 1 + i) % n).find? fun i => !(sectorOf c i).bad).getD ((h + 1) % n)

/-- A record may cause an erase (R521, R528). -/
def mayErase (c : Core) (r : QRec) : Bool :=
  if !r.type.mandatory then decide (1 ≤ c.own.credit)
  else if c.own.step == 3 then decide (-7 < c.own.credit)
  else decide (-4 < c.own.credit)

/-- What the log does next. -/
inductive LogStep where
  /-- nothing, or the oldest record waits -/
  | wait
  /-- the oldest record is dropped and counted -/
  | drop
  /-- a fresh record of the type goes ahead of the erase (R519) -/
  | fresh (t : RecType)
  /-- an NVM operation -/
  | op (o : NvmOp)
  deriving DecidableEq, Repr

/-- The oldest record can be sealed (R515, R526, Table 20-7). -/
def canSeal (c : Core) (t : RecType) : Bool :=
  t.key == 0 || (!c.own.keyFault && (t.key == 2 || ownerEnabled c))

/-- The oldest waiting record before the ring (R517–R523, R528). -/
def logStep (c : Core) : LogStep :=
  match c.own.q with
  | [] => .wait
  | r :: _ =>
    if c.own.scan || (r.nextEpoch && c.own.afterClosing) then .wait
    else if !canSeal c r.type then .drop
    else
      match c.own.head with
      | none => .op (.openSector 0)
      | some h =>
        let x := sectorOf c h
        let n := nextSector c h
        let there := fun (o : Option Nat) => match o with | some o => o / 4096 == n | none => false
        let cp := there (newestCp c h)
        let pat := there (newestPat c h)
        let room := 4096 - x.free
        let kept := if (cp || pat) && !r.fresh then 1136 else 0
        if !x.bad && decide (r.type.size ≤ room - kept) then .op .logRecord
        else if !mayErase c r then (if r.type.mandatory then .wait else .drop)
        else if cp && !x.bad && !r.fresh && canSeal c .checkpoint && decide (1040 ≤ room) then .fresh .checkpoint
        else if pat && !x.bad && !r.fresh && canSeal c .patina && decide (96 ≤ room) then .fresh .patina
        else .op (.openSector n)

/-- A fresh checkpoint of the last close, or Patina record, put ahead of the queue (R519, R270). -/
def freshRecord (c : Core) (t : RecType) : Core :=
  if t == .checkpoint then
    let k := { c.ldg.atClose with seq := c.ldg.cpNext }
    { c with
      ldg := { c.ldg with cpNext := c.ldg.cpNext + 1 }
      own := { c.own with q := { type := .checkpoint, body := checkpointBytes k, cp := some k, fresh := true } :: c.own.q } }
  else
    let p := patinaNow c
    { c with
      free := c.free + 1
      own := { c.own with q :=
        { type := .patina, body := (List.range 64).map (Config.recordByte c.free), fresh := true
          pat := some { p with ispIn := c.own.pat.ispIn, ispOut := c.own.pat.ispOut } } :: c.own.q } }

/-- The oldest record dropped and counted (R521). -/
def dropRecord (c : Core) : Core :=
  { c with own := { c.own with q := c.own.q.drop 1, dropped := satNat 16 (c.own.dropped + 1) } }

/-- The next log operation begun where one is due; `n` bounds the records dropped on the way. -/
def logBegin : Nat → Core → Core
  | 0, c => c
  | n + 1, c =>
    match logStep c with
    | .wait => c
    | .drop => logBegin n (dropRecord c)
    | .fresh t => { freshRecord c t with nvm := { c.nvm with op := some .logRecord } }
    | .op o => { c with nvm := { c.nvm with op := some o } }

/-- The NVM, when it is free, takes its next operation: a log write that is due goes ahead of staging (R94).
Without a running image there is no log (R111), and without its clock there is no NVM (R33). -/
def nvmKick (c : Core) : Core :=
  if c.nvm.op.isSome then c
  else
    let c := if inRun c then logBegin (c.own.q.length + 1) c else c
    if c.nvm.op.isSome || !(inRun c || inSafeHold c) then c
    else
      match c.nvm.queue with
      | [] => c
      | o :: os => { c with nvm := { c.nvm with op := some o, queue := os } }

/-- The MQS ready flag (R94). -/
def stagingReady (c : Core) : Bool := c.nvm.op.isNone && c.nvm.queue.isEmpty

/-- Patina counters of the last record and of this start together (R527). -/
def Patina.plus (p q : Patina) : Patina :=
  { runH := p.runH + q.runH, stageH := p.stageH + q.stageH, boots := p.boots + q.boots
    cycles := p.cycles + q.cycles, ispIn := p.ispIn + q.ispIn, ispOut := p.ispOut + q.ispOut
    handovers := p.handovers + q.handovers, erases := p.erases + q.erases
    ownIn := p.ownIn + q.ownIn, ownOut := p.ownOut + q.ownOut
    dropped := p.dropped + q.dropped, torn := p.torn + q.torn }

/-- The head sector: the good header with the highest sector sequence (R522). -/
def headOf (l : List (Nat × LogSector)) : Option Nat :=
  (l.foldl (fun (best : Option (Nat × Nat)) x =>
    if !x.2.good then best
    else match best with
      | some (_, q) => if q < x.2.seq then some (x.1, x.2.seq) else best
      | none => some (x.1, x.2.seq)) none).map Prod.fst

/-- The start marker put ahead of the queue (R518). -/
def markStart (c : Core) : Core :=
  { c with own := { c.own with scan := false, q := { type := .marker, body := [] } :: c.own.q } }

/-- The scan finds no good header: the region is fresh (R523). -/
def scanFresh (c : Core) : Core :=
  markStart { c with own := { c.own with
    head := none, start := 1, num := 0, base := none, fresh := false, pat := { c.own.pat with boots := 1 } } }

/-- The Patina counters of the newest record; what it holds of an owner whose handover has since ended is closed (R275,
R527). -/
def scanPatina (c : Core) (h : Nat) : Patina :=
  match (newestPat c h).bind (recordAt c) with
  | some r =>
    let p := r.pat.getD {}
    if r.epoch = c.otp.epoch then p else { p with ownIn := 0, ownOut := 0 }
  | none => {}

/-- Q_REF comes from the OCV curve at the next step-2 window where the scan found no checkpoint (R202). -/
def scanRef (c : Core) : Core := { c with cel := { c.cel with ocvWait := c.own.base.isNone } }

/-- The scan finds its head sector (R518, R522, R529). -/
def scanFound (c : Core) (h : Nat) : Core :=
  let x := sectorOf c h
  let cp := (newestCp c h).bind (recordAt c)
  let mine := match cp with | some r => r.epoch == c.otp.epoch | none => false
  let pat := scanPatina c h
  let torn := (x.recs.filter fun r => r.torn).length
  markStart { c with own := { c.own with
    head := some h
    start := max x.start (maxL (x.recs.map fun r => r.start)) + 1
    num := 0
    base := if mine && ownerEnabled c then cp.bind fun r => r.cp else none
    fresh := cp.isSome && !mine
    torn := satNat 16 torn
    pat := (pat.plus c.own.pat).plus { boots := 1 } } }

/-- LOG_SCAN_END (R522, R523). -/
def execLogScanEnd (s : State) : Res :=
  onCoreIf s (fun c => inRun c && c.own.scan) fun c =>
    let l := c.nvm.sectors.filter fun x => decide (x.1 < logSectors c)
    nvmKick (scanRef (match headOf l with
      | some h => scanFound c h
      | none => scanFresh c))

/-! ### NVM operations end (R94, R517–R523, Table 20-7) -/

/-- What a record programmed and read back sets off (R128, R271, Table 20-6 step 7). -/
def recordDone (c : Core) (r : QRec) : Core :=
  match r.type with
  | .checkpoint =>
    let seq := match r.cp with | some k => k.seq | none => c.ldg.cpSeq
    let c := { c with ldg := { c.ldg with cpSeq := seq, cpTick := c.life.tick } }
    if c.own.step == 7 && !r.periodic && !r.fresh then
      attend { c with own := { c.own with
        step := 0, pat := { c.own.pat with handovers := c.own.pat.handovers + 1 } } } 6
    else c
  | .postMortem =>
    { c with wdg := { c.wdg with cap := { c.wdg.cap with valid := false } } }
  | _ => c

/-- The oldest queued record programmed into the head sector and read back (R517). -/
def recordWritten (c : Core) : Core :=
  match c.own.head, c.own.q with
  | some h, r :: q =>
    let x := sectorOf c h
    let rec_ : LogRec :=
      { type := r.type, start := c.own.start, num := c.own.num, epoch := c.otp.epoch, key := r.type.key
        body := r.body, off := x.free, cp := r.cp, pat := r.pat, info := r.info }
    let c := updSector c h fun y => { y with recs := y.recs ++ [rec_], free := y.free + r.type.size }
    recordDone { c with own := { c.own with q := q, num := c.own.num + 1 } } r
  | _, _ => c

/-- Largest erase count of the good headers of the region (R523). -/
def maxErases (c : Core) : Nat :=
  maxL ((c.nvm.sectors.filter fun x => decide (x.1 < logSectors c) && x.2.good).map fun x => x.2.erases)

/-- One erase counted against the credit and in the Patina counters (R521, R527). -/
def countErase (c : Core) : Core :=
  { c with own := { c.own with
      credit := c.own.credit - 1, pat := { c.own.pat with erases := c.own.pat.erases + 1 } } }

/-- A sector opened: erased, with a new header (R517, R523, Table 20-2). -/
def sectorOpened (c : Core) (i : Nat) : Core :=
  let old := sectorOf c i
  let seq := match c.own.head with | some h => (sectorOf c h).seq + 1 | none => 1
  let cp := c.own.head.bind (newestCp c)
  let pat := c.own.head.bind (newestPat c)
  let n := if old.good then old.erases + 1 else maxErases c + 1
  let c := countErase c
  { updSector c i fun _ =>
      { good := true, seq := seq, erases := n, cpOff := cp, patOff := pat, start := c.own.start, free := 32 } with
    own := { c.own with head := some i } }

/-- An operation completed and verified. -/
def nvmDone (c : Core) (o : NvmOp) : Core :=
  match o with
  | .erase a => { c with nvm := { c.nvm with cells := nvmErase c.nvm.cells a } }
  | .program a d => { c with nvm := { c.nvm with cells := nvmProgram c.nvm.cells a d } }
  | .openSector i => sectorOpened c i
  | .logRecord => recordWritten c

/-- An operation that failed (Table 20-7 row 1): the log skips the sector and the record waits for the next
one; bytes of a failed staging operation are in no stated condition. -/
def nvmFailed (c : Core) (o : NvmOp) : Core :=
  let bytes := fun (a n : Nat) =>
    { c with
      free := c.free + 1
      nvm := { c.nvm with cells := nvmProgram c.nvm.cells a ((List.range n).map (Config.tornByte c.free)) } }
  let c := match o with
    | .erase a => bytes a 4096
    | .program a d => bytes a d.length
    | .openSector i => updSector (countErase c) i fun y => { y with bad := true, good := false }
    | .logRecord => match c.own.head with
      | some h => updSector c h fun y => { y with bad := true }
      | none => c
  fault c 0x1A01 0

/-- The records of the outgoing epoch are all programmed, and no other burn runs: the epoch fuse is next
(R85, R528, Table 20-6 step 4); optional records of that epoch still queued are dropped. -/
def handoverFuse (c : Core) : Core :=
  let writing := c.nvm.op == some .logRecord
  if c.own.step == 3 && !writing && !(c.own.q.any fun r => !r.nextEpoch && r.type.mandatory)
      && c.otp.burnRevoke == 0 && c.otp.burnTo.isNone then
    let gone := (c.own.q.filter fun r => !r.nextEpoch).length
    { c with own := { c.own with
        step := 4, q := c.own.q.filter fun r => r.nextEpoch, dropped := satNat 16 (c.own.dropped + gone) } }
  else c

/-- NVM_OPERATION_COMPLETE (R94, Table 19-6 cause [3]).  In Dormant the NVM has no clock once the PLLs have stopped (R33,
R113). -/
def execNvmOperationComplete (ok : Bool) (s : State) : Res :=
  onCoreIf s (fun c => c.life.st != .dormant || c.life.entering) fun c =>
    match c.nvm.op with
    | none => c
    | some o =>
      let c := { c with nvm := { c.nvm with op := none } }
      let c := handoverFuse (if ok then nvmDone c o else nvmFailed c o)
      let c := nvmKick c
      if stagingReady c then attend c 3 else c

/-! ### Owner handover (R525–R530, Table 20-6) -/

/-- EPOCH_FUSE_PROGRAMMED (Table 20-6 step 4, Table 20-7 row 3, R530): the epoch advances, or RETIRED is blown
at epoch 2047; a fuse that is not confirmed leaves the handover incomplete, but a Follow still closes with
its Lead. -/
def execEpochFuseProgrammed (readBackOk : Bool) (s : State) : Res :=
  onCoreIf s (fun c => c.own.step == 4) fun c =>
    if readBackOk then
      { c with
        otp := if c.otp.epoch = 2047 then { c.otp with retired := true } else { c.otp with epoch := c.otp.epoch + 1 }
        own := { c.own with step := 5 } }
    else
      let c := { c with own := { c.own with
        disabled := true, step := if c.twn.role == .follow then 6 else 0
        q := c.own.q.map fun r => { r with nextEpoch := false } } }
      fault c 0x1A03 0

/-- Step 5 of Table 20-6, at the merge tick after the fuse: the key follows the epoch and the decrypt window is
cleared. -/
def handoverKey (c : Core) : Core :=
  if c.own.step == 5 then
    { c with own := { c.own with
        step := 6, dWin := [], dStat := 0, q := c.own.q.map fun r => { r with nextEpoch := false } } }
  else c

/-- ERASE_CREDIT_ACCRUAL (R521). -/
def execEraseCreditAccrual (s : State) : Res :=
  onCoreIf s (fun c => inRun c || c.life.st == .dormant) fun c =>
    { c with own := { c.own with credit := min 24 (c.own.credit + 1) } }

/-- PATINA_RECORD_DUE (R527, Table 20-4): the hourly Patina and usage records. -/
def execPatinaRecordDue (s : State) : Res := onRun s fun c => queueFree (queuePatina c) .usage

/-! ### Decryption (R524, R531) -/

/-- A handover is between its steps 1 and 5 (R531). -/
def handingOver (c : Core) : Bool := decide (1 ≤ c.own.step) && decide (c.own.step ≤ 5)

/-- DECRYPT_COMMAND (R524): bits [27:0] the offset, [30:28] the part; refused outside Run and Dormant. -/
def execDecryptCommand (v : BitVec 32) (s : State) : Res :=
  if inSafeHold s.core then .next (refusePort s)
  else onCoreIf s (fun c => inRun c || c.life.st == .dormant) fun c =>
    let off := v.toNat % 268435456
    let o := { c.own with dOff := off, dPart := v.toNat / 268435456 % 8, dWin := [], dType := 0, dLen := 0 }
    wakeBegin { c with own := { o with dStat := if handingOver c || c.own.keyFault then 7 else 1 } } false

/-- The result of a decrypt command (R524): status, record type, length and window. -/
def decryptResult (c : Core) : Nat × Nat × Nat × List Byte :=
  match recordAt c c.own.dOff with
  | none => (3, 0, 0, [])
  | some r =>
    let t := r.type.code
    let n := r.type.len
    if r.key == 1 && !ownerEnabled c then (7, t, n, [])
    else if r.key == 1 && r.epoch != c.otp.epoch then (4, t, n, [])
    else if r.torn then (5, t, n, [])
    else if n ≤ 128 * c.own.dPart then (6, t, n, [])
    else (2, t, n, (r.body.drop (128 * c.own.dPart)).take 128)

/-- DECRYPT_COMPLETE (R524): no earlier than the end of the log scan. -/
def execDecryptComplete (s : State) : Res :=
  onCoreIf s (fun c => (inRun c || c.life.st == .dormant) && c.own.dStat == 1 && !c.own.scan) fun c =>
    if handingOver c then { c with own := { c.own with dStat := 7 } }
    else
      let r := decryptResult c
      { c with own := { c.own with dStat := r.1, dType := r.2.1, dLen := r.2.2.1, dWin := r.2.2.2 } }

/-! ### Staging (R91–R96, R554, R555) -/

/-- Staging is allowed (R91): in Run, and in Safe Hold once provisioned. -/
def mayStage (c : Core) : Bool := inRun c || (inSafeHold c && c.otp.provisioned)

/-- Target of the pass that BEGIN opens: first the copy not in use, A in Safe Hold, then the other (R92). -/
def stagingTarget (c : Core) (second : Bool) : Bool :=
  let first := if inSafeHold c then false else !c.mqs.fromB
  if second then !first else first

/-- STAGING_BEGIN (R92, R554): a session opens and the sectors that the length covers are erased; BEGIN after
a passed first pass opens the second. -/
def execStagingBegin (len : BitVec 32) (s : State) : Res :=
  let c := s.core
  if !mayStage c || c.mqs.open_ then .next (refusePort s)
  else
    let second := c.mqs.firstDigest.isSome
    let b := stagingTarget c second
    let n := len.toNat
    let ops := (List.range (ceilDiv (Nat.min n 262144) 4096)).map fun i => NvmOp.erase (copyBase b + 4096 * i)
    .next { s with core := nvmKick { c with
      nvm := { c.nvm with queue := c.nvm.queue ++ ops }
      mqs := { c.mqs with
        open_ := true, second := second, targetB := b, len := n, buf := []
        res1 := if second then c.mqs.res1 else 0, res2 := 0 } } }

/-- A chunk at the next offset: start address by R555, whole in its 2048-byte page, within the image and within the target
copy (R67), and the NVM ready (R94, R555). -/
def chunkOk (c : Core) (addr n : Nat) : Bool :=
  let o := c.mqs.buf.length
  c.mqs.open_ && stagingReady c && decide (addr = 0x3800 + o % 2048) && decide (o % 2048 + n ≤ 2048)
    && decide (o + n ≤ c.mqs.len) && decide (o + n ≤ 262144)

/-- STAGING_DATA (R93, R94, R555): programmed, or discarded and counted. -/
def execStagingData (addr : Nat) (data : List Byte) (s : State) : Res :=
  let c := s.core
  if !mayStage c then .next (refusePort s)
  else if chunkOk c addr data.length then
    .next { s with core := nvmKick { c with
      nvm := { c.nvm with
        queue := c.nvm.queue ++ [.program (copyBase c.mqs.targetB + c.mqs.buf.length) data] }
      mqs := { c.mqs with buf := c.mqs.buf ++ data } } }
  else .next { s with core := { c with mqs := { c.mqs with discarded := c.mqs.discarded + 1 } } }

/-- Result of a pass (R93, Table 22-9): the first failed check, 13 for a digest that differs, 15 passed. -/
def passResult (c : Core) : Nat :=
  let r := (imageChecks c.otp c.mqs.buf).1
  if r != 0 then r
  else if c.mqs.second && c.mqs.firstDigest != some (imageDigest c.mqs.buf) then 13
  else 15

/-- A pass ended with a result (R93, R96): attention cause [3] is set. -/
def endPass (c : Core) (r : Nat) (digest : Option (BitVec 256)) : Core :=
  attend { c with mqs := { c.mqs with
    open_ := false, second := false, buf := []
    res1 := if c.mqs.second then c.mqs.res1 else r
    res2 := if c.mqs.second then r else c.mqs.res2
    firstDigest := digest } } 3

/-- STAGING_END (R93). -/
def execStagingEnd (s : State) : Res :=
  let c := s.core
  if !mayStage c then .next (refusePort s)
  else onCoreIf s (fun c => c.mqs.open_) fun c =>
    let r := passResult c
    endPass c r (if r = 15 && !c.mqs.second then some (imageDigest c.mqs.buf) else none)

/-- STAGING_ABORT (R96): the session ends with result 14; what waits to be programmed is not. -/
def execStagingAbort (s : State) : Res :=
  let c := s.core
  if !mayStage c then .next (refusePort s)
  else onCoreIf s (fun c => c.mqs.open_) fun c =>
    endPass { c with nvm := { c.nvm with queue := [] } } 14 none

/-! ### Provisioning (R83, R556) -/

/-- PROVISIONING_ORDER (R83, R556): in Safe Hold with blank slots the burn of hashes and option fuses begins.  An order that
names no slot is not the order of R83, which programs one to four hashes, and is not carried out (log entry 112). -/
def execProvisioningOrder (cmd : BitVec 32) (hashes : Vector (BitVec 256) 4) (s : State) : Res :=
  onCore s fun c =>
    if c.life.st == .off || c.life.st == .boot || c.life.st == .reset then c
    else if cmd.toNat / 16777216 != 0xC5 || cmd.toNat % 16 == 0 then c
    else if !inSafeHold c then wakeBegin { c with mqs := { c.mqs with provRes := 2 } } false
    else if c.otp.provisioned || c.otp.burnProv.isSome || c.otp.slots.toList.any Option.isSome then
      { c with mqs := { c.mqs with provRes := 3 } }
    else
      let h := vmap (fun k (x : BitVec 256) => if cmd.getLsbD k then some x else none) hashes
      { c with otp := { c.otp with burnProv := some (h, cmd.getLsbD 4, cmd.getLsbD 5) } }

/-- The provisioning burn ends (R83, R556): the slots and fuses stand and PROVRES is posted; after a failed
read-back each stands or not, free (log entry 6). -/
def provisioned (c : Core) (ok : Bool) : Core :=
  match c.otp.burnProv with
  | none => c
  | some (h, w, t) =>
    let took := fun (k : Nat) => ok || Config.burnDone (c.free + k)
    let slots := vmap (fun k x => if took k then (vget h k none).or x else x) c.otp.slots
    { c with
      free := c.free + 6
      otp := { c.otp with
        slots := slots, wdtHw := c.otp.wdtHw || (w && took 4), testLock := c.otp.testLock || (t && took 5)
        provisioned := true, burnProv := none }
      mqs := { c.mqs with provRes := if ok then 1 else 4 } }

/-- OTP_BURN_COMPLETE (R83–R85): the burn in progress is done; one whose read-back fails stands somewhere
between its old and its new value (log entry 6). -/
def execOtpBurnComplete (readBackOk : Bool) (s : State) : Res :=
  onCore s fun c =>
    if c.otp.burnProv.isSome then provisioned c readBackOk
    else
      let o := if readBackOk then
          { c.otp with
            revoked := c.otp.revoked ||| c.otp.burnRevoke, rollback := c.otp.burnTo.getD c.otp.rollback
            burnRevoke := 0, burnTo := none }
        else
          let cut := otpCut c
          { cut with slotEcc := c.otp.slotEcc, idEcc := c.otp.idEcc }
      handoverFuse { c with free := c.free + 2, otp := o }

end Sys2Proof.Machine
end

