-- ==== Sys2Proof/Machine/Thermal.lean ====
section
/-! DEFINITION. Temperature sensing and thermal management (chapter 16): samples, bands, rate of rise,
and the Kiln Guard.  Temperatures are in 0.1 °C. -/

namespace Sys2Proof.Machine

/-- A sensor is present: mask bits for diodes and NTCs, the die sensors always (R427). -/
def sensorPresent (c : Core) (i : Nat) : Bool :=
  if i < 2 then c.maq.thrm.diodeMask.getLsbD i
  else if i < 8 then c.maq.thrm.ntcMask.getLsbD (i - 2) else true

/-- One sensor changed. -/
def updSensor (c : Core) (i : Nat) (f : SensorG → SensorG) : Core :=
  { c with thm := { c.thm with s := vupd c.thm.s i f } }

/-- Valid readings of a role (R432). -/
def roleReadings (c : Core) (r : Nat) : List Int :=
  (List.range 8).filterMap fun i =>
    let s := vget c.thm.s i {}
    if sensorPresent c i && sensorRole c i == r && !s.out then s.temp else none

/-- Largest of a list of readings. -/
def maxT : List Int → Option Int
  | [] => none
  | a :: as => match maxT as with | some b => some (max a b) | none => some a

/-- Smallest of a list of readings. -/
def minT : List Int → Option Int
  | [] => none
  | a :: as => match minT as with | some b => some (min a b) | none => some a

/-- Band of a reading without hysteresis: the count of upper bounds it has reached (R432). -/
def bandUp (bounds : List Int) (t : Int) : Nat := (bounds.filter fun b => decide (b ≤ t)).length

/-- Band with hysteresis (R432): up at the lower bound of the next band, down below it less h. -/
def bandNext (bounds : List Int) (h : Int) (old : Nat) (t : Int) : Nat :=
  if old ≤ bandUp bounds t then bandUp bounds t else min old (bandUp bounds (t + h))

/-- BAND hysteresis, 0.1 K. -/
def bandHyst (c : Core) : Int := (c.maq.band.hyst * 10 : Nat)

/-- Band after a sample: from its standing value, or afresh where it was invalid. -/
def bandStep (c : Core) (bounds : List Int) (old : Nat) (inv : Bool) (t : Option Int) : Nat × Bool :=
  match t with
  | some t => (if inv then bandUp bounds t else bandNext bounds (bandHyst c) old t, false)
  | none => (old, true)

/-- Upper bounds of P0–P4, the lower bounds of P1–P5 (Table 03-8). -/
def packBounds (c : Core) : List Int := (c.maq.band.pack.take 5).map MqBandEntry.upper

/-- Upper bound of P5. -/
def p5Upper (c : Core) : Int := (c.maq.band.pack.getD 5 {}).upper

/-- The pack band from B_hi and B_lo (R433). -/
def packOf (hi lo : Nat) : Nat := if 4 ≤ hi then (if lo ≤ 2 then 5 else hi) else lo

/-- Pack readings the band is formed from: an attached Lead's with its Follow's (R441). -/
def packReadings (c : Core) : List Int :=
  if c.attached && c.twn.role == .lead then roleReadings c 1 ++ c.thm.twPack else roleReadings c 1

/-- The pack band after a sample (R433, R434, R441). -/
def packBandStep (c : Core) : Core :=
  let ts := packReadings c
  let inv := c.thm.pack == 7
  let (hi, none_) := bandStep c (packBounds c) c.thm.bHi inv (maxT ts)
  let (lo, _) := bandStep c (packBounds c) c.thm.bLo inv (minT ts)
  if none_ then { c with thm := { c.thm with pack := 7 } }
  else
    let t := (maxT ts).getD 0
    let spread := decide (4 ≤ hi) && decide (lo ≤ 2)
    let above := decide (p5Upper c ≤ t) || (c.thm.aboveP5 && decide (p5Upper c - bandHyst c ≤ t))
    let c' := { c with thm := { c.thm with
      bHi := hi, bLo := lo, pack := packOf hi lo, aboveP5 := above, spread := spread } }
    if spread && !c.thm.spread then recordCondition c' else c'

/-- The band of a sensor's role is evaluated at each of its samples (R432). -/
def bandsAfter (c : Core) (role : Nat) : Core :=
  match role with
  | 1 => packBandStep c
  | 2 =>
    let (b, inv) := bandStep c c.maq.band.stage c.thm.stage c.thm.stageInv (maxT (roleReadings c 2))
    { c with thm := { c.thm with stage := b, stageInv := inv } }
  | 3 =>
    let (b, inv) := bandStep c c.maq.band.board c.thm.board c.thm.boardInv (maxT (roleReadings c 3))
    { c with thm := { c.thm with board := b, boardInv := inv } }
  | _ => c

/-! ### Sample period (R431) -/

/-- Limits of a sensor (R431). -/
def sensorLimits (c : Core) (i : Nat) : List Int :=
  if 8 ≤ i then [1400, 1500]
  else
    (match sensorRole c i with
      | 1 => c.maq.band.pack.map MqBandEntry.upper
      | 2 => c.maq.band.stage
      | 3 => c.maq.band.board
      | _ => []) ++ (if i = 2 then [1102] else [])

/-- Sample period code after a reading: 0 = 1 s, 1 = 100 ms, 2 = 10 ms (R431, Table 21-9). -/
def periodCode (c : Core) (i : Nat) (t : Int) (exceed : Bool) : Nat :=
  let near := fun (d : Nat) => (sensorLimits c i).any fun l => decide ((l - t).natAbs ≤ d)
  let byBand := c.thm.boardApp
  if near 30 || exceed || byBand == 2 then 2 else if near 100 || byBand == 1 then 1 else 0

/-! ### Rate of rise (R435) -/

/-- µs from a sample to now on the wrapping timebase. -/
def ageUs (now : BitVec 32) (t : Nat) : Nat := (now - BitVec.ofNat 32 t).toNat

/-- The history trimmed to the last second and the one sample before it. -/
def trimHist (now : BitVec 32) : List (Nat × Int) → List (Nat × Int)
  | [] => []
  | x :: r => if 1000000 ≤ ageUs now x.1 then [x] else x :: trimHist now r

/-- Rate in 0.01 K/s from the latest sample at least 1 s old (R435). -/
def rateOf (now : BitVec 32) (t : Int) (h : List (Nat × Int)) : Option Int :=
  match h.find? fun x => decide (1000000 ≤ ageUs now x.1) with
  | some x => some ((t - x.2) * 10 * 1000000 / (ageUs now x.1 : Nat))
  | none => none

/-- Rate-of-rise limit of an external sensor, 0.01 K/s; 0 = none. -/
def rateLimit (c : Core) (i : Nat) : Nat := if i < 8 then c.maq.thrm.rate.getD i 0 else 0

/-- Rate, exceedance and history of a sensor after a reading (R435): it begins on the third sample above
the limit, and ends when the rate has stood below half of it for 10 s. -/
def rateStep (c : Core) (i : Nat) (t : Int) : Core :=
  let now := c.life.us
  let s := vget c.thm.s i {}
  let lim := rateLimit c i
  let rate := rateOf now t s.hist
  let above := match rate with | some r => decide (0 < lim) && decide ((lim : Int) < r) | none => false
  let below := match rate with | some r => decide (r * 2 < lim) | none => false
  let ovr := if above then s.ovr + 1 else 0
  let since := if !below then none else match s.belowSince with | some u => some u | none => some now.toNat
  let over10 := match since with | some u => decide (10000000 ≤ ageUs now u) | none => false
  let begins := !s.exceed && decide (3 ≤ ovr)
  let exceed := if s.exceed then !over10 else begins
  let c' := updSensor c i fun s => { s with
    rate := rate, ovr := ovr, exceed := exceed, belowSince := if s.exceed then since else none
    hist := trimHist now ((now.toNat, t) :: s.hist), period := periodCode c i t exceed }
  if begins then recordCondition c' else c'

/-! ### Sensor faults (Table 16-3) -/

/-- The sensor is out of service; NTC1's derate follows (rows 2 to 4, R444). -/
def sensorFault (c : Core) (code : BitVec 16) (i : Nat) : Core :=
  let c := updSensor c i fun s => { s with out := true, flt := true, exceed := false, ovr := 0 }
  let c := fault c code (BitVec.ofNat 8 i)
  let c := if i = 2 then
      faultLasting { c with thm := { c.thm with ntc1Out := true } } 0x0C04 2 else c
  bandsAfter c (if i < 8 then sensorRole c i else 0)

/-- A reading that its channel rules out (row 2). -/
def readingBad (i : Nat) (r : SensorReading) : Bool :=
  if i < 2 then !within 200 r.diodeMv 950
  else if i < 8 then !within 150 r.ratio 9850 else false

/-- The die sensor farthest from the other two, where one differs by more than 15 K (row 5). -/
def dieOdd (c : Core) : Option Nat :=
  let t := fun k => (vget c.thm.s k {}).temp
  if (vget c.thm.s 8 {}).excl || (vget c.thm.s 9 {}).excl || (vget c.thm.s 10 {}).excl then none
  else
    match t 8, t 9, t 10 with
    | some a, some b, some d =>
      let x := (a - b).natAbs
      let y := (b - d).natAbs
      let z := (a - d).natAbs
      if decide (x ≤ 150) && decide (y ≤ 150) && decide (z ≤ 150) then none
      else if decide (y ≤ x) && decide (y ≤ z) then some 8
      else if decide (z ≤ x) && decide (z ≤ y) then some 9
      else some 10
    | _, _, _ => none

/-- Case temperature of R414: D0, or the higher of D1 and D2 while it is excluded (R427). -/
def caseTemp (c : Core) : Option Int :=
  if (vget c.thm.s 8 {}).excl then maxT ([9, 10].filterMap fun k => (vget c.thm.s k {}).temp)
  else (vget c.thm.s 8 {}).temp

/-- A reading taken (R431–R435). -/
def acceptReading (c : Core) (i : Nat) (r : SensorReading) : Core :=
  let c := updSensor c i fun s => { s with temp := some r.temp, ratio := r.ratio }
  let c := rateStep c i r.temp
  let c := bandsAfter c (if i < 8 then sensorRole c i else 0)
  if 8 ≤ i then
    match dieOdd c with
    | some k => fault (updSensor c k fun s => { s with excl := true, flt := true }) 0x0C05 (BitVec.ofNat 8 k)
    | none => c
  else c

/-- What the Follow has sent, at an attached Lead (R441). -/
def twinThermal (c : Core) (m : Option TwinTherm) : Core :=
  match m with
  | some m =>
    if c.attached && c.twn.role == .lead then
      packBandStep { c with thm := { c.thm with twPack := m.pack, twBoard := some m.board } }
    else c
  | none => c

/-- SENSOR_SAMPLE (R431): an out-of-service sensor waits for its Probe.  The step of row 3 is judged against the
sample before it in the history, so not across a return to service or a restart of the history (R446). -/
def execSensorSample (i : Fin 11) (r : SensorReading) (s : State) : Res :=
  onCoreIf s (fun c => inRun c && sensorPresent c i.val && !(vget c.thm.s i.val {}).out) fun c =>
    let c := twinThermal { c with life := { c.life with scanOwed := putBit c.life.scanOwed 1 false } } r.twin
    if readingBad i.val r then sensorFault c 0x0C02 i.val
    else
      match (vget c.thm.s i.val {}).hist.head? with
      | some x => if 500 < (r.temp - x.2).natAbs then sensorFault c 0x0C03 i.val else acceptReading c i.val r
      | none => acceptReading c i.val r

/-! ### The Kiln Guard (R437–R440) -/

/-- Sensor number of a trip source. -/
def kilnSensor : KilnSource → Nat
  | .d0 => 8 | .d1 => 9 | .d2 => 10 | .ntc1 => 2

/-- Bit of a trip source (Table 21-9). -/
def kilnBit : KilnSource → Nat
  | .d0 => 0 | .d1 => 1 | .d2 => 2 | .ntc1 => 3

/-- A source the Kiln Guard watches: not an excluded die sensor, not NTC1 out of service (R427, R444). -/
def kilnWatches (c : Core) (k : KilnSource) : Bool :=
  let s := vget c.thm.s (kilnSensor k) {}
  !s.excl && !(k == .ntc1 && s.out)

/-- KILN_GUARD_TRIP (R437, R438): in every state with VAUX valid; Chisel Off of every phase, every path
gate low, load switches off, bursts ended, latched.  Boot has every gate off, and Reset its latches too. -/
def execKilnGuardTrip (src : KilnSource) (s : State) : Res :=
  onCoreIf s (fun c => c.life.st != .off && kilnWatches c src) fun c =>
    let inst := BitVec.ofNat 8 (kilnSensor src)
    let c := { c with thm := { c.thm with
      tripped := true, tripSrc := putBit c.thm.tripSrc (kilnBit src) true
      trips := if c.thm.tripped then c.thm.trips else satNat 32 (c.thm.trips + 1), relRun := false, relCnt := 0 } }
    if c.life.st == .reset then c
    else if c.life.st == .boot then
      queueProbe (latchRecord (latchPut c 0x0C01 inst .a .pending) 0x0C01 inst) 0x0C01 inst
    else
      let c := wakeBegin { c with path := { c.path with gbtWait := false, shGpmWait := false } } false
      let c := faultWith (chiselAll c 8 0) 0x0C01 inst .a .pending true 8 0
      lswKiln (pathGatesOff c .off)

/-- The path gates and the load switches are free again (R407, R439). -/
def gatesFree (c : Core) : Core :=
  let c := lswRelease { c with path := { c.path with held := false } }
  if c.path.active.isNone && c.path.batfet == .off then batfetFull c else c

/-- The stage restarts after a class A reaction (R291, R439): path gates free, load switches under R407,
a full stage start. -/
def stageRestart (c : Core) : Core := stageStart (gatesFree c) true

/-- The class A reactions are classified and nothing holds the gates of this controller: no hold-off, no standing
trip, not Fenced, not Detached. -/
def reactionsOver (c : Core) : Bool :=
  inRun c && c.gdr.st == .stopped && !c.gdr.holdOff && !c.thm.tripped && !classAOpen c
    && c.twn.role != .fenced && c.twn.role != .detached

/-- The stage may restart now: no lasting error keeps it Stopped. -/
def restartDue (c : Core) : Bool := reactionsOver c && !c.gdr.barred

/-- KILN_GUARD_RELEASE (R417, R439): in Run the stage restarts, at once or with the hold-off that still runs; where it
stays Stopped for good, path and channels go on without it. -/
def execKilnGuardRelease (s : State) : Res :=
  onCoreIf s (fun c => c.thm.tripped) fun c =>
    let c := lswRelease { c with thm := { c.thm with tripped := false, tripSrc := 0, relRun := false, relCnt := 0 } }
    if inRun c then
      if restartDue c then stageRestart c else if reactionsOver c then gatesFree c else c
    else if inSafeHold c then
      let quiet := fun (_ : Nat) (e : Option Latch) =>
        e.map fun x => if x.code == 0x0C01 then { x with active := false } else x
      let c := { c with flt := { c.flt with l := vmap quiet c.flt.l } }
      if c.pins.twTrip then c else safeHoldResume c
    else if c.life.st == .dormant && c.twn.role != .fenced && c.twn.role != .detached then
      batfetFull { c with path := { c.path with held := false } }
    else c

/-- The release count of a merge tick (R439): it runs while every valid die sensor is below 120 °C and the
NTC1 ratio at or above 0.280, by the last readings (log entry 9). -/
def kilnCount (c : Core) : Core :=
  if !c.thm.tripped then c
  else
    let die := [8, 9, 10].all fun k =>
      let s := vget c.thm.s k {}
      s.excl || (match s.temp with | some t => decide (t < 1200) | none => true)
    let n := vget c.thm.s 2 {}
    let run := die && (n.out || decide (2800 ≤ n.ratio))
    { c with thm := { c.thm with relRun := run, relCnt := if run then min 500000 (c.thm.relCnt + 1) else 0 } }

/-- The bands and the level that the consumers apply from this merge tick (R432, R443). -/
def applyBands (c : Core) : Core :=
  { c with thm := { c.thm with
      packLast := if c.thm.packApp = 7 then c.thm.packLast else some (bandEntry c c.thm.packApp)
      stageApp := stageNow c, boardApp := boardNow c, packApp := packNow c, lvlApp := levelNow c } }

end Sys2Proof.Machine
end

