-- ==== Sys2Proof/Machine/Faults.lean ====
section
/-! DEFINITION. Probes after an error, their classification as transient or lasting with what each row's
recovery does, the Probe rotation, and the coalescing of fault records (chapter 11). -/

namespace Sys2Proof.Machine

/-! ### Transient history (R295, R553) -/

/-- Newest stamp of a history slot. -/
def HistSlot.newest (h : HistSlot) : Nat := h.stamps.getLastD 0

/-- The slot with the oldest newest stamp. -/
def oldestSlot : List HistSlot → Option HistSlot
  | [] => none
  | h :: hs =>
    match oldestSlot hs with
    | none => some h
    | some x => if h.newest ≤ x.newest then some h else some x

/-- The slot of a block and instance. -/
def histOf (l : List HistSlot) (block inst : BitVec 8) : Option HistSlot :=
  l.find? fun h => h.block == block && h.inst == inst

/-- A transient's stamp stored: the last L stamps of an instance, 64 instances (R295). -/
def histAdd (l : List HistSlot) (block inst : BitVec 8) (sec limit : Nat) : List HistSlot :=
  match histOf l block inst with
  | some h =>
    let st := h.stamps ++ [sec]
    l.map fun x => if x == h then { x with stamps := st.drop (st.length - limit) } else x
  | none =>
    let n : HistSlot := { block := block, inst := inst, stamps := [sec] }
    if l.length < 64 then l ++ [n]
    else match oldestSlot l with
      | some o => l.map fun x => if x == o then n else x
      | none => [n]

/-- Stamps of an instance within t_TW (R295). -/
def recentCount (l : List HistSlot) (block inst : BitVec 8) (sec hours : Nat) : Nat :=
  match histOf l block inst with
  | some h => (h.stamps.filter fun t => decide (sec ≤ t + 3600 * hours)).length
  | none => 0

/-- A transient stored; it makes the error lasting where it completes L within t_TW (R295). -/
def addTransient (c : Core) (code : BitVec 16) (inst : BitVec 8) (sec : Nat) : Core × Bool :=
  let b : BitVec 8 := BitVec.ofNat 8 (code.toNat / 256)
  let h := histAdd c.flt.hist b inst sec c.maq.fltr.limit
  ({ c with flt := { c.flt with hist := h } },
   decide (c.maq.fltr.limit ≤ recentCount h b inst sec c.maq.fltr.tTw))

/-! ### The Probe queue (R293, R294, R296) -/

/-- The Probe of a phase (R238). -/
def isPhaseProbe (code : BitVec 16) : Bool :=
  code == 0x0804 || code == 0x0A01 || (decide (0x0A03 ≤ code.toNat) && decide (code.toNat ≤ 0x0A07))

/-- A queued Probe may begin: the Probes of its block run in order of latching (R293). -/
def probeFree (c : Core) (code : BitVec 16) (inst : BitVec 8) : Bool :=
  match c.flt.q.find? fun x => probeBlock c x.code x.inst == probeBlock c code inst with
  | some x => x.code == code && x.inst == inst && !x.running
  | none => false

/-- The only present phase is Probed with the stage Parked, while the pack holds SYS (R294). -/
def solePhase (c : Core) (n : Nat) : Bool := phasePresent c n && nPresent c == 1

/-- What the start of a Probe does: a phase leaves operation, an attached port goes through ErrorRecovery
(R238, R294, R405). -/
def probeEffect (c : Core) (code : BitVec 16) (inst : BitVec 8) : Core :=
  let n := instIx inst
  if isPhaseProbe code && inst != 0 then
    let c := if solePhase c n then stagePark c else c
    { c with gdr := { c.gdr with ph := vupd c.gdr.ph n fun p => if p.st == .off then { p with st := .probe } else p } }
  else
    let port := if code.toNat / 256 == 0x10 then some PdId.a else if code.toNat / 256 == 0x11 then some PdId.b else none
    match port with
    | some p =>
      if decide (code.toNat % 256 ≤ 4) && ((c.port p).att == .sink || (c.port p).att == .source) then errorRecovery c p
      else c
    | none => c

/-- PROBE_START (R293, R294). -/
def execProbeStart (code : BitVec 16) (inst : BitVec 8) (s : State) : Res :=
  onCoreIf s (fun c => (inRun c || inSafeHold c) && probeFree c code inst
      && !(isPhaseProbe code && solePhase c (instIx inst) && c.path.batfet != .full)) fun c =>
    probeEffect { c with flt := { c.flt with q := c.flt.q.map fun x =>
      if x.code == code && x.inst == inst then { x with running := true } else x } } code inst

/-! ### What a result does (Table 11-4 and the rows of the fault tables) -/

/-- A phase returns through Table 08-4 after a transient result, its calibration with it (R229, R238). -/
def phaseReturn (c : Core) (n : Nat) : Core :=
  let idle := match (vget c.gdr.ph n {}).st with
    | .off | .probe => true
    | _ => false
  if !idle then c
  else if c.gdr.st != .stopped && phasePresent c n && stageMayStart c then prechargeBegin c (fun m => m == n) true
  else { c with gdr := { c.gdr with ph := vupd c.gdr.ph n fun p => { p with st := .off } } }

/-- A phase isolated until the next start (R222, R238); one that works takes Chisel Off, with cause 4 (R232). -/
def isolatePhase (c : Core) (n : Nat) : Core :=
  let st := (vget c.gdr.ph n {}).st
  let c := if st == .off || st == .probe || st == .chisel1 || st == .chisel2 then c else chiselPhase c n 4
  let c := { c with gdr := { c.gdr with
    reOffset := true
    ph := vupd c.gdr.ph n fun p => { p with iso := true, st := if p.st == .probe then .off else p.st } } }
  if nPresent c = 0 then { c with gdr := { c.gdr with st := .stopped } } else c

/-- An input isolated until the next start (R164). -/
def isolateInput (c : Core) (n : Nat) : Core :=
  { c with path := { c.path with inputs := vupd c.path.inputs n fun x => { x with iso := true, qual := false } } }

/-- The path pair that a row's instance names (Table 05-5 rows 1, 3 and 4, Table 14-5 row 5). -/
def pairOf (code : BitVec 16) (inst : BitVec 8) : Option Nat :=
  if code == 0x0201 || code == 0x0203 || code == 0x0204 then some (instIx inst)
  else if code == 0x1005 then some 1
  else if code == 0x1105 then some 2
  else none

/-- A latch 0x1805 implicates a phase (Table 11-6). -/
def rotPhase (c : Core) (code : BitVec 16) (inst : BitVec 8) : Bool :=
  code == 0x1805 && ((rotItems c inst).any fun x => x.1 == 1)

/-- A mirror or spare stands in for the isolated block of a lasting class D error: another phase, another input, the vault's
mirror (Table 11-4). -/
def spared (c : Core) (code : BitVec 16) (inst : BitVec 8) : Bool :=
  ((isPhaseProbe code && inst != 0) || rotPhase c code inst) && decide (0 < nPresent c)
    || (pairOf code inst).isSome || code.toNat / 256 == 0x13 || (code == 0x1804 && inst == 1)

/-- What a lasting error isolates in a row that FLTR has raised to class C (R291, R292): the ISP channel of an excess pack
current, the port of a SHED line; the BATFET stays off. -/
def isolateRaised (c : Core) (code : BitVec 16) (inst : BitVec 8) : Core :=
  if code == 0x0405 then isolateChannel c 4
  else if code == 0x1203 && (c.plbPort (instIx inst)).st != .isolated then isolatePort c (instIx inst)
  else c

/-- The class's own step after a result (Table 11-4): class A restarts after t_HO, with a lasting phase or pair
left out, and stays Stopped otherwise; a lasting class D block leaves the stage Stopped. -/
def classResult (c : Core) (code : BitVec 16) (inst : BitVec 8) (cls : FCls) (lasting : Bool) : Core :=
  let hold := { c with gdr := { c.gdr with holdOff := true } }
  match cls with
  | .a =>
    if !lasting || (isPhaseProbe code && inst != 0) || (pairOf code inst).isSome || rotPhase c code inst then hold
    else { c with gdr := { c.gdr with barred := true } }
  | .d => if lasting && !spared c code inst then { c with gdr := { c.gdr with barred := true } } else c
  | .c => if lasting then isolateRaised c code inst else c
  | .b => c

/-- A latched row of a load switch channel is still active (Table 15-2). -/
def lswActive (c : Core) (inst : BitVec 8) : Bool :=
  (List.range 7).any fun k => faultActive c (BitVec.ofNat 16 (0x0E01 + k)) inst

/-- A load switch channel back in service (Table 15-2). -/
def LswCh.service (x : LswCh) : LswCh :=
  { x with
    fault := false, curTrip := false, thTrip := false, openOn := false, openOff := false, shortSup := false
    retries := 0, retryDly := false }

/-- Sensor back in service (Table 16-3 rows 2, 3 and 5). -/
def sensorReturn (c : Core) (n : Nat) : Core :=
  updSensor c n fun x => { x with out := false, flt := false, excl := false, hist := [], rate := none }

/-- The port of a PDA or PDB code. -/
def portOfCode (code : BitVec 16) : PdId := if code.toNat / 256 == 0x10 then .a else .b

/-- A shunt channel back in service (R265); once a second closure channel is isolated, the one booked as zero and the derived
one stay so until the next start (R278). -/
def channelReturn (c : Core) (k : Nat) : Core :=
  if closureChans.contains k && c.ldg.unmeasOpen then c
  else
    { c with ldg := { c.ldg with
        ch := vupd c.ldg.ch k fun x => { x with iso := false }
        wins := [], restarted := true, restart := true } }

/-- A port back in service after its loopback passed (R329, Table 12-6). -/
def portReturn (c : Core) (n : Nat) : Core :=
  recordCondition (updPlb c n fun g => { g with st := .warned, tec := 96, byConf := false, nWarned := satNat 16 (g.nWarned + 1) })

/-- The block of a failed rotation item of class C out of service (Table 11-4): shunt channel, stack path, mirrored bank or
port. -/
def rotOut (c : Core) (x : Nat × BitVec 8) : Core :=
  match x.1 with
  | 2 => isolateChannel c x.2.toNat
  | 3 => if x.2 == 17 then { c with cel := { c.cel with stackIso := true, balancing := false } } else c
  | 5 => if x.2 == 1 then { c with flt := { c.flt with vaultIso := true } } else c
  | 10 => if (c.plbPort (instIx x.2)).st != .isolated then isolatePort c (instIx x.2) else c
  | _ => c

/-- The block of a failed rotation item after a transient result (Table 11-4): back in service. -/
def rotTransient (c : Core) (x : Nat × BitVec 8) : Core :=
  match x.1 with
  | 2 => channelReturn c x.2.toNat
  | 3 => if x.2 == 17 then { c with cel := { c.cel with stackIso := false } } else c
  | 5 => if x.2 == 1 then { c with flt := { c.flt with vaultIso := false } } else c
  | 10 => portReturn c (instIx x.2)
  | _ => c

/-- The block of a failed rotation item after a lasting result (Table 11-4): a phase is isolated; what class C took out of
service stays so. -/
def rotLasting (c : Core) (x : Nat × BitVec 8) : Core :=
  match x.1 with
  | 1 => isolatePhase c (instIx x.2)
  | _ => c

/-- What a transient result does for the row (Tables 05-5 to 20-7). -/
def transientAct (c : Core) (code : BitVec 16) (inst : BitVec 8) : Core :=
  let n := instIx inst
  let done := fun (c : Core) => clearActive c code inst
  match code.toNat / 256 with
  | 0x02 =>
    let free := fun (c : Core) => { c with path := { c.path with inputs := vupd c.path.inputs n fun x => { x with flt := false } } }
    if code == 0x0203 then free c
    else if code == 0x0206 then
      let raised := c.path.linFault && !codeActive c 0x0207
      let c := done { c with path := { c.path with dropFault := false, linFault := c.path.linFault && !raised } }
      if raised then batfetFull c else c
    else if code == 0x0207 then
      let back := c.path.active.isSome && c.path.batfet == .off && !c.path.held && !c.path.uvOpen
      done { c with path := { c.path with linFault := false, batfet := if back then .linear else c.path.batfet } }
    else if code == 0x0201 || code == 0x0204 then done (free c)
    else c
  | 0x04 => if code == 0x0405 then done c else c
  | 0x08 => if code == 0x0804 then done (phaseReturn c n) else c
  | 0x0A =>
    if decide (0x0A04 ≤ code.toNat) && decide (code.toNat ≤ 0x0A07) then
      done (if inst == 0 then c else phaseReturn c n)
    else if isPhaseProbe code then
      { c with gdr := { c.gdr with ph := vupd c.gdr.ph n fun p => if p.st == .probe then { p with st := .off } else p } }
    else if code == 0x0A08 then done { c with life := { c.life with pwmLock := true } }
    else c
  | 0x0C =>
    if code == 0x0C02 || code == 0x0C03 || code == 0x0C05 then done (sensorReturn c inst.toNat) else c
  | 0x0E => if lswActive (done c) inst then done c else updLsw (done c) n LswCh.service
  | 0x10 | 0x11 =>
    let p := portOfCode code
    let c := done c
    if code.toNat % 256 == 1 then updPd c p fun g => { g with hold := false }
    else if code.toNat % 256 == 2 then pdReturn c p
    else c
  | 0x12 =>
    if code == 0x1201 then done (portReturn c n)
    else if code == 0x1202 then done (updPlb c n fun g => { g with lineFault := false })
    else c
  | 0x13 => done c
  | 0x14 => if code == 0x1407 then c
    else if code == 0x1408 then done { c with twn := { c.twn with shareFroz := false } }
    else done c
  | 0x16 => done c
  | 0x18 =>
    if code == 0x1802 then c
    else if code == 0x1805 then (rotItems c inst).foldl rotTransient (done c)
    else done c
  | 0x1A =>
    if code == 0x1A01 then
      done { c with nvm := { c.nvm with sectors := kmap (fun _ x => { x with bad := false }) c.nvm.sectors } }
    else c
  | _ => c

/-- Vault corruption that is lasting (Table 13-3, R460): with the twin a role handover with the vault bank
isolated; alone every level is recalled to 0 and the pool held at 0. -/
def vaultLost (c : Core) : Core :=
  if c.attached then
    let c := { c with flt := { c.flt with vaultIso := true } }
    if c.twn.role == .lead then handoverBegin c else c
  else
    let c := { c with vlt := { c.vlt with dead := true } }
    (acctsOf c fun _ => true).foldl (fun c a => recallTo (recallTo c a .supply 0) a .ret 0) c

/-- A record copy lost for good (Table 13-3 row 2): its bank isolated, and handled as vault corruption. -/
def copyGone (c : Core) : Core :=
  let c := { c with
    flt := { c.flt with vaultIso := true }
    vlt := { rebuild (rebuild c.vlt .supply) .ret with noRaise := 10 } }
  faultWith c 0x1301 0 .b .pending true 3 0

/-- What a lasting result does for the row (Tables 05-5 to 20-7). -/
def lastingAct (c : Core) (code : BitVec 16) (inst : BitVec 8) : Core :=
  let n := instIx inst
  match pairOf code inst with
  | some i => isolateInput c i
  | none =>
    if isPhaseProbe code then (if inst == 0 then c else isolatePhase c n)
    else
      match code.toNat / 256 with
      | 0x0C => if code == 0x0C01 then { c with thm := { c.thm with tripLasting := true } } else c
      | 0x0E => updLsw c n fun x => { x with iso := true }
      | 0x10 | 0x11 =>
        if code.toNat % 256 == 1 || code.toNat % 256 == 2 || code.toNat % 256 == 4 then
          let p := portOfCode code
          updPd (pdLeave c p .isolated) p fun g => { g with iso := true }
        else c
      | 0x12 => if code == 0x1202 && (c.plbPort n).st != .isolated then isolatePort c n else c
      | 0x13 => if code == 0x1302 then copyGone c else vaultLost c
      | 0x14 =>
        if code == 0x1405 then isolateChannel c 0
        else if code == 0x1406 && c.twn.role == .lead then detachBegin c false
        else c
      | 0x18 =>
        if code == 0x1805 then (rotItems c inst).foldl rotLasting c
        else if code == 0x1804 && inst == 1 then { c with flt := { c.flt with vaultIso := true } }
        else c
      | _ => c

/-- The class in force of a code and instance: its latch's, or its row's where none could be taken. -/
def latchClass (c : Core) (code : BitVec 16) (inst : BitVec 8) : FCls :=
  match (findLatch c.flt.l.toList code inst).bind fun i => vget c.flt.l i none with
  | some x => x.cls
  | none => (rowClass code).getD .b

/-- A classified error: its Probe state, the class's step and the row's (R291, R295). -/
def classify (c : Core) (code : BitVec 16) (inst : BitVec 8) (lasting : Bool) (st : ProbeSt) : Core :=
  let cls := latchClass c code inst
  let c := updLatch c code inst fun x => { x with probe := st }
  let c := if lasting then lastingAct c code inst else transientAct c code inst
  let c := classResult c code inst cls lasting
  if code == 0x1805 then
    { c with flt := { c.flt with rotBad := c.flt.rotBad.filter fun x => rotLatch x.1 x.2 != inst } }
  else c

/-- One of the four Probes of a closure failure ended (Table 10-5 row 1): a failing channel is isolated; if
all pass the event is a transient of the ledger, and a lasting one ends sustain and bursts; `st` is the Probe state of a
failing one. -/
def closureProbe (c : Core) (ch : Nat) (pass : Bool) (sec : Nat) (st : ProbeSt) : Core :=
  let c := { c with ldg := { c.ldg with closeProbes := c.ldg.closeProbes.filter fun k => k != ch } }
  let c := if pass then c
    else updLatch (isolateChannel c ch) 0x0801 0 fun x => { x with probe := st }
  if !c.ldg.closeProbes.isEmpty then c
  else
    let c := { c with ldg := { c.ldg with socHeld := false } }
    let open_ := match (findLatch c.flt.l.toList 0x0801 0).bind fun i => vget c.flt.l i none with
      | some x => x.probe == .pending
      | none => false
    if !open_ then c
    else
      let r := addTransient c 0x0801 0 sec
      if r.2 then
        updLatch { r.1 with vlt := { r.1.vlt with noSustain := true, noBurst := true } } 0x0801 0
          fun x => { x with probe := .lasting, cls := FCls.worse .b (classInForce c 0x0801 .b) }
      else
        clearActive (updLatch { r.1 with ldg := { r.1.ldg with failed := false } } 0x0801 0
          fun x => { x with probe := .transient }) 0x0801 0

/-- The result of a Probe on its error, and whether that is lasting (R276, R295). -/
def probeEnded (c : Core) (code : BitVec 16) (inst : BitVec 8) (pass : Bool) (sec : Nat) : Core × Bool :=
  if code == 0x0803 then (if pass then c else faultLasting (isolateChannel c inst.toNat) 0x0803 inst, !pass)
  else if code == 0x0801 then (closureProbe c inst.toNat pass sec .lasting, !pass)
  else if pass then
    let r := addTransient c code inst sec
    (classify r.1 code inst r.2 (if r.2 then .lasting else .transient), r.2)
  else (classify c code inst true .lasting, true)

/-- A Probe's result on another error that struck its block while it ran: the same classification, and no further stamp
(R302). -/
def alsoEnded (pass lasting : Bool) (sec : Nat) (c : Core) (x : BitVec 16 × BitVec 8) : Core :=
  if x.1 == 0x0803 || x.1 == 0x0801 then (probeEnded c x.1 x.2 pass sec).1
  else classify c x.1 x.2 lasting (if lasting then .lasting else .transient)

/-- A Probe queue entry removed. -/
def dequeue (c : Core) (code : BitVec 16) (inst : BitVec 8) : Core :=
  { c with flt := { c.flt with q := c.flt.q.filter fun x => !(x.code == code && x.inst == inst) } }

/-- The errors that share the Probe of a code and instance (R302). -/
def sharing (c : Core) (code : BitVec 16) (inst : BitVec 8) : List (BitVec 16 × BitVec 8) :=
  match c.flt.q.find? fun x => x.code == code && x.inst == inst with
  | some x => x.also
  | none => []

/-- PROBE_RESULT (R295): of a Probe that runs; `klnSec` is its KLN stamp. -/
def execProbeResult (code : BitVec 16) (inst : BitVec 8) (pass : Bool) (klnSec : Nat) (s : State) : Res :=
  onCoreIf s (fun c => c.flt.q.any fun x => x.code == code && x.inst == inst && x.running) fun c =>
    let r := probeEnded (dequeue c code inst) code inst pass klnSec
    (sharing c code inst).foldl (alsoEnded pass r.2 klnSec) r.1

/-- An error whose Probe was not run is lasting, and its latch shows so (R296). -/
def notRun (c : Core) (x : BitVec 16 × BitVec 8) : Core :=
  if x.1 == 0x0803 then faultWith (isolateChannel c x.2.toNat) 0x0803 x.2 .c .notRun false 3 0
  else if x.1 == 0x0801 then closureProbe c x.2.toNat false 0 .notRun
  else classify c x.1 x.2 true .notRun

/-- PROBE_TIMEOUT (R296). -/
def execProbeTimeout (code : BitVec 16) (inst : BitVec 8) (s : State) : Res :=
  onCoreIf s (fun c => c.flt.q.any fun x => x.code == code && x.inst == inst) fun c =>
    (sharing c code inst).foldl notRun (notRun (dequeue c code inst) (code, inst))

/-- The errors whose Probes found no room, taken as lasting at the merge tick (R296). -/
def noProbeStep (c : Core) : Core :=
  let l := c.flt.noProbe
  l.foldl notRun { c with flt := { c.flt with noProbe := [] } }

/-- HOLD_OFF_EXPIRY (R291, R439): t_HO has passed; the stage restarts where nothing else holds it. -/
def execHoldOffExpiry (s : State) : Res :=
  onCoreIf s (fun c => inRun c && c.gdr.holdOff) fun c =>
    let c := { c with gdr := { c.gdr with holdOff := false } }
    if restartDue c then stageRestart c else c

/-! ### The rotation (R297, R298, R303) -/

/-- Class of a rotation item that fails (Table 11-6); `inst` is the bank of item 5 or the channel of item 3. -/
def rotationClass (item : Nat) (inst : BitVec 8) : FCls :=
  match item with
  | 1 | 9 => .a
  | 2 | 10 => .c
  | 3 => if inst == 17 then .c else .b
  | 5 => if inst == 1 then .c else .d
  | _ => .d

/-- The block of a rotation item is isolated, or the only phase present: the item is skipped (R239, R298). -/
def rotationSkips (c : Core) (item : Nat) (inst : BitVec 8) : Bool :=
  let n := instIx inst
  match item with
  | 1 => !phasePresent c n || nPresent c == 1
  | 2 => (vget c.ldg.ch inst.toNat {}).iso
  | 3 => if inst == 17 then c.cel.stackIso else c.cel.chanFlt.getLsbD n
  | 5 => inst == 1 && c.flt.vaultIso
  | 10 => (c.plbPort n).st == .isolated
  | _ => false

/-- The instances that an item tests in turn, as far as Table 11-6 lists them: present phases, shunt channels, cell channels
with the stack path, present ports; the other items are done by one run. -/
def rotInstances (c : Core) (item : Nat) : List (BitVec 8) :=
  let l := match item with
    | 1 => (List.range 4).map (· + 1)
    | 2 => List.range 8
    | 3 => (List.range (nCells c)).map (· + 1) ++ [17]
    | 10 => ((List.range 4).filter (portPresent c)).map (· + 1)
    | _ => []
  (l.map (BitVec.ofNat 8)).filter fun x => !rotationSkips c item x

/-- A targeted Probe or a reaction holds the block of an item (R303). -/
def rotationWaits (c : Core) (item : Nat) (inst : BitVec 8) : Bool :=
  (c.flt.q.any fun x => probeBlock c x.code x.inst == rotBlock item inst)
    || (item == 1 && (inChisel c.gdr || c.gdr.holdOff || classAOpen c))

/-- An item run on an instance is noted, and is complete once every instance has been tested (R297); it is then no longer
overdue (R303). -/
def rotationRun (c : Core) (item : Fin 10) (inst : BitVec 8) : Core :=
  let k := item.val + 1
  let l := (k, inst) :: c.flt.rotInst.filter fun x => x != (k, inst)
  let all := (rotInstances c k).all fun i => l.contains (k, i)
  { c with flt := { c.flt with
      rotInst := l
      rotDone := if all then putBit c.flt.rotDone item.val true else c.flt.rotDone
      overdue := if all then putBit c.flt.overdue item.val false else c.flt.overdue } }

/-- What a running item does to its block (Table 11-6): the phase is off for the test, a shunt channel is booked derived for
this close. -/
def rotationEffect (c : Core) (item : Nat) (inst : BitVec 8) : Core :=
  match item with
  | 1 => { c with gdr := { c.gdr with sw := vmap (fun e x => if e / 4 == instIx inst then x.park else x) c.gdr.sw } }
  | 2 => { c with ldg := { c.ldg with inject := some inst.toNat } }
  | _ => c

/-- An item that fails (R298): latched with the block it tested, which class C takes out of service. -/
def rotationFails (c : Core) (item : Nat) (inst : BitVec 8) : Core :=
  let bad := c.flt.rotBad.filter fun x => x != (item, inst)
  let cls := rotationClass item inst
  let c := if cls == .c then rotOut c (item, inst) else c
  faultWith { c with flt := { c.flt with rotBad := bad ++ [(item, inst)] } } 0x1805 (rotLatch item inst) cls .pending true 9 0

/-- The uncorrectable word that the scrub of item 5 found in a bank (Table 11-2, Table 11-7 row 4): class C in the mirrored
vault bank, whose mirror serves, D in any other. -/
def memoryError (c : Core) (bank : BitVec 8) : Core :=
  faultWith c 0x1804 bank (if bank == 1 then .c else .d) .pending true 3 0

/-- ROTATION_ITEM (R297, R298, R303): `scrub` names a bank in which the scrub of item 5 found an uncorrectable word. -/
def execRotationItem (item : Fin 10) (inst : BitVec 8) (pass : Bool) (scrub : Option (BitVec 8)) (s : State) : Res :=
  onCoreIf s (fun c => inRun c && c.maq.fltr.probes) fun c =>
    let k := item.val + 1
    if rotationSkips c k inst then rotationRun c item inst
    else if rotationWaits c k inst then c
    else
      let c := rotationEffect (rotationRun c item inst) k inst
      let c := match scrub with
        | some b => if k = 5 then memoryError c b else c
        | none => c
      if pass then c else rotationFails c k inst

/-- ROTATION_PERIOD_END (R303): the items that did not run are overdue. -/
def execRotationPeriodEnd (s : State) : Res :=
  onCoreIf s (fun c => inRun c && c.maq.fltr.probes) fun c =>
    { c with flt := { c.flt with
        overdue := c.flt.overdue ||| ~~~ c.flt.rotDone, rotDone := 0, rotInst := [], rotStart := c.life.us } }

/-- RECORD_COALESCE_EXPIRY (R290): further occurrences are queued as one record, which begins another second. -/
def execRecordCoalesceExpiry (code : BitVec 16) (inst : BitVec 8) (s : State) : Res :=
  onCore s fun c =>
    match c.flt.coal.find? fun x => x.1 == code && x.2.1 == inst with
    | none => c
    | some (_, _, n) =>
      let rest := c.flt.coal.filter fun x => !(x.1 == code && x.2.1 == inst)
      let c := { c with flt := { c.flt with coal := if n = 0 then rest else rest ++ [(code, inst, 0)] } }
      if n = 0 then c else queueFree c .fault (latchInfo c code inst n)

end Sys2Proof.Machine
end

