-- ==== Sys2Proof/Machine/Operands.lean ====
section
/-! DEFINITION. The forms in which operands cross the pins: Plinth frames (Table 12-2) and Window Port
transactions (Tables 19-2 and 19-3), each with its checks and with the bytes that spell it. -/

namespace Sys2Proof.Machine

/-! ### Plinth frames (Table 12-2, R313) -/

/-- Start of frame. -/
def sof : Byte := 0xD3

/-- Bytes 1 to 5+L of a frame. -/
def frameBody (f : Frame) : List Byte :=
  f.dest :: f.src :: f.type :: f.ctl :: BitVec.ofNat 8 f.payload.length :: f.payload

/-- The bytes of a frame on the line (Table 12-2). -/
def frameBytes (f : Frame) : List Byte :=
  sof :: (frameBody f ++ toLe 2 (crc16 (frameBody f)).toNat)

/-- The frame that bytes spell; none where SOF, length, source or CRC is wrong (R313). -/
def frameOf : List Byte → Option Frame
  | s :: d :: a :: t :: k :: l :: r =>
    let f : Frame := { dest := d, src := a, type := t, ctl := k, payload := r.take l.toNat }
    if s == sof && decide (l.toNat ≤ 16) && a != 0xFF
        && decide (r.drop l.toNat = toLe 2 (crc16 (d :: a :: t :: k :: l :: r.take l.toNat)).toNat)
        && decide (f.payload.length = l.toNat) then some f
    else none
  | _ => none

/-! ### Window Port transactions -/

/-- What the header of a transaction names. -/
structure WinHead where
  op : Byte
  addr : Nat
  n : Nat
  deriving DecidableEq, Repr

/-- The header of a transaction: B0 to B3 (Table 19-2); a count of 0 means 256 (R494). -/
def winHead : List Byte → Option WinHead
  | o :: h :: l :: k :: _ =>
    some { op := o, addr := h.toNat * 256 + l.toNat, n := if k = 0 then 256 else k.toNat }
  | _ => none

/-- Write opcodes (Table 19-3). -/
def isWrite (op : Byte) : Bool := op == 0x02 || op == 0x06

/-- Opcodes of Table 19-3. -/
def knownOp (op : Byte) : Bool := isWrite op || op == 0x0B || op == 0x9F

/-- Bytes of a whole frame (R494). -/
def WinHead.frameLen (h : WinHead) : Nat := (if isWrite h.op then 5 else 6) + h.n

/-- Faults of R496 that the header shows. -/
def WinHead.bad (h : WinHead) : Bool :=
  !knownOp h.op || h.addr % 4 != 0 || h.n % 4 != 0
    || decide ((if h.op = 0x9F then 0x10 else 0x8000) < h.addr + h.n)

/-- A malformed transaction (R496). -/
def winMalformed (f : WinFrame) : Bool :=
  f.strayBits != 0 || (match winHead f.bytes with
    | some h => h.bad || decide (f.bytes.length ≠ h.frameLen)
    | none => true)

/-- A read or identity transaction whose header CRC fails (R495). -/
def winHeaderFails (f : WinFrame) : Bool :=
  match f.bytes with
  | o :: h :: l :: k :: x :: _ => !isWrite o && knownOp o && x != crc8 [o, h, l, k]
  | _ => false

/-- A write whose CRC fails (R495). -/
def winWriteFails (f : WinFrame) : Bool := f.bytes.getLast? != some (crc8 f.bytes.dropLast)

/-- Words of the data bytes, least significant byte first (R494). -/
def wordsOf : Nat → List Byte → List (BitVec 32)
  | 0, _ => []
  | n + 1, bs => BitVec.ofNat 32 (leNat 4 bs) :: wordsOf n (bs.drop 4)

/-- Data words of a write. -/
def winWords (f : WinFrame) : List (BitVec 32) :=
  match winHead f.bytes with
  | some h => wordsOf (h.n / 4) (f.bytes.drop 4)
  | none => []

/-- Header bytes of a transaction. -/
def headBytes (op : Byte) (addr n : Nat) : List Byte :=
  [op, BitVec.ofNat 8 (addr / 256), BitVec.ofNat 8 addr, BitVec.ofNat 8 n]

/-- The write frame of words at an address (Table 19-2). -/
def writeFrame (op : Byte) (addr : Nat) (ws : List (BitVec 32)) : WinFrame :=
  let b := headBytes op addr (4 * ws.length) ++ ws.flatMap fun w => toLe 4 w.toNat
  { bytes := b ++ [crc8 b], strayBits := 0 }

/-- The read or identity frame of `n` bytes at an address (Table 19-2). -/
def readFrame (op : Byte) (addr n : Nat) : WinFrame :=
  let b := headBytes op addr n
  { bytes := b ++ [crc8 b] ++ List.replicate (n + 1) 0, strayBits := 0 }

end Sys2Proof.Machine
end

