-- ==== Sys2Proof/Machine/Registers.lean ====
section
/-! DEFINITION. The Window register map (chapters 21 and 22): the word every address reads from an image, and
what a write to an address does. -/

namespace Sys2Proof.Machine

/-! ### Fields -/

/-- A value in bits [hi:lo] of a word. -/
def bits (hi lo v : Nat) : Nat := v % 2 ^ (hi + 1 - lo) * 2 ^ lo

/-- A flag at a bit. -/
def flag (i : Nat) (b : Bool) : Nat := if b then 2 ^ i else 0

/-- Word `i` of a wide quantity, least significant first (R533). -/
def wordOf (v i : Nat) : Nat := v / 2 ^ (32 * i) % 2 ^ 32

/-- A signed value in `n` bits, two's complement (R534). -/
def sfield (n : Nat) (v : Int) : Nat := (BitVec.ofInt n v).toNat

/-- A voltage in 10 mV units in 16 bits, from mV (R534). -/
def volt16 (mv : Nat) : Nat := satNat 16 (mv / 10)

/-- A current in 10 mA units, s16, from mA (R534). -/
def cur16 (ma : Int) : Nat := sfield 16 (satInt 16 (ma / 10))

/-- A count saturated to 16 bits. -/
def sat16 (n : Nat) : Nat := satNat 16 n

/-- Flags at consecutive bits from bit 0. -/
def flagsFrom : Nat → List Bool → Nat
  | _, [] => 0
  | i, b :: bs => flag i b + flagsFrom (i + 1) bs

/-- The block runs: in Run from the first merge tick on and in Dormant.  Before that its fields read their
reset values (R532, R535). -/
def shown (c : Core) : Bool :=
  match c.life.st with
  | .dormant => true
  | .run => decide (1 < c.life.imgNo.toNat)
  | _ => false

/-- A word of a block whose reset value is 0. -/
def ifShown (c : Core) (v : Nat) : Nat := if shown c then v else 0

/-- Octet `i` of a 256-bit digest, in octet order. -/
def digestOctet (d : BitVec 256) (i : Nat) : Nat := d.toNat / 2 ^ (8 * (31 - i)) % 256

/-- Word `j` of a 256-bit digest (R8). -/
def digestWord (d : BitVec 256) (j : Nat) : Nat :=
  sumBy (fun i => digestOctet d (4 * j + i) * 256 ^ i) [0, 1, 2, 3]

/-- Word of a byte list at a byte offset. -/
def bytesWord (bs : List Byte) (off : Nat) : Nat := leNat 4 (bs.drop off)

/-! ### SYS (Tables 21-1 and 21-2) -/

/-- SYS block. -/
def sysWord (c : Core) (o : Nat) : Nat :=
  let e := fun k => vget c.ord.err k 0
  match o with
  | 0x00 => 0x02014810
  | 0x04 => wordOf c.otp.serial.toNat 0
  | 0x08 => wordOf c.otp.serial.toNat 1
  | 0x0C => bits 2 0 (lifeCode c.life.st) + bits 4 3 (modeCode c.life.mode) + bits 7 5 c.twn.role.code
  | 0x10 => wordOf c.life.tick.toNat 0
  | 0x14 => wordOf c.life.tick.toNat 1
  | 0x18 => c.life.us.toNat
  | 0x1C => c.life.rstCause.toNat
  | 0x20 => c.ord.attn.toNat
  | 0x24 => bits 7 0 (e 0) + bits 15 8 (e 1) + bits 23 16 (e 2) + bits 31 24 (e 3)
  | 0x28 => bits 7 0 (e 4) + bits 23 8 c.ord.conflicts
  | 0x2C => bits 7 0 c.ord.gen.toNat + bits 15 8 (match c.twn.last with
      | some h => if c.twn.role == .lead then h.ordGen.toNat else 0
      | none => 0)
  | _ => 0

/-- Slot entry (Table 21-1). -/
def slotWord (c : Core) (k o : Nat) : Nat :=
  let x := slotOf c k
  let merged_ := decide (k < 23)
  match o with
  | 0x0 => if merged_ then (x.host.getD withdrawValue).toNat else 0
  | 0x4 => if merged_ then x.merged.toNat else 0
  | 0x8 =>
    let out := x.host.isSome && c.twn.role == .follow
    bits 2 0 (match x.res with | some r => r.code | none => 7) + flag 3 x.clamped
      + flag 4 (merged_ && out) + flag 5 x.sup.isSome + flag 6 (slotLocked c k)
  | 0xC => (x.sup.getD withdrawValue).toNat
  | _ => 0

/-! ### PTH (Table 21-3) -/

/-- Code of an exporting port. -/
def exCode : Option Export → Nat
  | none => 0
  | some e => match e.port with | .pda => 1 | .pdb => 2 | .main => 3

/-- PTH block. -/
def pthWord (c : Core) (o : Nat) : Nat :=
  let p := c.path
  let m := c.meas
  let i := fun k => vget p.inputs k {}
  match o with
  | 0x00 => bits 1 0 (inpCode p.active) + flag 2 p.xfer.isSome + bits 4 3 (inpCode (p.xfer.map Xfer.inc))
      + bits 6 5 (exCode p.export_) + bits 8 7 (batCode p.batfet)
      + flagsFrom 9 [(i 0).qual, (i 1).qual, (i 2).qual, (i 0).iso, (i 1).iso, (i 2).iso, (i 0).trq, (i 1).trq,
          (i 2).trq, p.floorSusp]
  | 0x04 => p.xferCnt
  | 0x08 => p.xferAbt
  | 0x0C => p.collapse
  | 0x10 => bits 15 0 p.floorSet + bits 31 16 (merged c 1)
  | 0x14 => bits 15 0 (sat16 (p.iLim / 10)) + bits 31 16 (sat16 (merged c 2))
  | 0x18 => volt16 m.vmain + 65536 * volt16 m.vcin
  | 0x1C => volt16 m.vsys + 65536 * volt16 m.vpack
  | 0x20 => cur16 m.ism + 65536 * cur16 m.isa
  | 0x24 => cur16 m.isb + 65536 * cur16 m.isc
  | 0x28 => cur16 m.isp + 65536 * cur16 m.iss
  | 0x2C => volt16 m.vbusa + 65536 * volt16 m.vbusb
  | 0x30 => (match p.export_ with | some e => volt16 e.volt + 65536 * cur16 e.limit | none => 0)
  | 0x34 => bits 5 0 (merged c 0)
  | _ => 0

/-! ### CHG (Table 21-4) -/

/-- CHG block. -/
def chgWord (c : Core) (o : Nat) : Nat :=
  let g := c.chg
  let w := suspendCauses c
  match o with
  | 0x00 => ifShown c (bits 2 0 g.phase.rank
      + flagsFrom 3 [suspended c, g.restOff, g.heater, g.imbalanced, g.refused, w.getLsbD 0, w.getLsbD 1,
          w.getLsbD 2, w.getLsbD 3, w.getLsbD 4, w.getLsbD 5, roleExceeds c 1, c.loop.latched])
  | 0x04 => cur16 g.iTgt + 65536 * cur16 g.iShare
  | 0x08 => g.vTgt
  | 0x0C => bits 15 0 g.vFlt + bits 31 16 g.corr
  | 0x10 => g.tPre
  | 0x14 => g.tBulk
  | 0x18 => g.tHtr
  | 0x1C => sat16 g.recharges + 65536 * sat16 g.balEnds
  | 0x20 => if shown c then bits 2 0 c.thm.packApp + bits 15 8 (if c.thm.packApp = 7 then 0 else (packEntry c).chgPct)
      else 7
  | _ => 0

/-! ### CEL (Table 21-5) -/

/-- Published value of cell index `k`, 0.1 mV. -/
def cellField (c : Core) (k : Nat) : Nat := if k < nCells c && !c.cel.cells.isEmpty then sat16 (cellRead c k) else 0

/-- CEL block. -/
def celWord (c : Core) (o : Nat) : Nat :=
  let g := c.cel
  if o < 0x20 then cellField c (o / 2) + 65536 * cellField c (o / 2 + 1)
  else if decide (0x50 ≤ o) && decide (o < 0x90) then satNat 32 (vget g.qBal ((o - 0x50) / 4) 0 / 1000)
  else
    match o with
    | 0x20 => stackMv c
    | 0x24 => if g.cells.isEmpty then 0
        else bits 15 0 (cellSpread c) + bits 31 16 (sat16 (avgCell c))
    | 0x28 => bits 13 0 g.soc + flag 16 g.coarse + flag 17 g.socValid + flag 18 g.ocvMoving
    | 0x2C => wordOf (sfield 64 g.qRef) 0
    | 0x30 => wordOf (sfield 64 g.qRef) 1
    | 0x34 => g.balSw.toNat + flag 16 g.balancing + flag 17 (g.started && decide (g.cycle % 2 = 0)) + flag 18 g.balFault
    | 0x38 => bits 7 0 g.cycle + bits 15 8 g.diag + flag 16 g.diagPass
    | 0x3C => g.wireOpen.toNat
    | 0x40 => g.chanFlt.toNat + flag 16 g.stackIso
    | 0x44 => g.twDis.toNat + 65536 * g.adopted.toNat
    | 0x48 => ifShown c (flagsFrom 0 ((List.range (nCells c)).map (unknownCell c)))
    | 0x4C => g.realCell.toNat
    | _ => 0

/-! ### LDG (Table 21-6, R542) -/

/-- LDG block. -/
def ldgWord (c : Core) (o : Nat) : Nat :=
  let g := c.ldg
  let ch := fun k => vget g.ch k {}
  let der := fun k => derivedChan c == some k
  if o < 0x80 then
    let x := ch (o / 16)
    wordOf (toMc (if o % 16 < 8 then x.inQ else x.outQ)) (o / 4 % 2)
  else if decide (0x90 ≤ o) && decide (o < 0xC0) then
    wordOf (toMc (vget g.modeAcc ((o - 0x90) / 8) 0)) (o / 4 % 2)
  else
    match o with
    | 0x80 => wordOf (g.ein / 1000000000000) 0
    | 0x84 => wordOf (g.ein / 1000000000000) 1
    | 0x88 => wordOf (g.eout / 1000000000000) 0
    | 0x8C => wordOf (g.eout / 1000000000000) 1
    | 0xC0 => sfield 32 (satInt 32 g.resid)
    | 0xC4 => bits 6 0 g.worstM + bits 31 16 (sat16 g.worstPm)
    | 0xC8 => g.closeNo.toNat
    | 0xCC => flagsFrom 0 [der 3, der 5, der 4, der 6]
        + flagsFrom 8 [g.failed, g.lossOpen, g.dormOpen, g.unmeasOpen, g.restarted || g.restart, g.basePend]
    | 0xD0 => sumBy (fun k => satNat 8 (ch k).missing * 256 ^ k) [0, 1, 2, 3]
    | 0xD4 => sumBy (fun k => satNat 8 (ch (4 + k)).missing * 256 ^ k) [0, 1, 2, 3]
    | 0xD8 => satNat 32 g.cpSeq
    | 0xDC => wordOf g.cpTick.toNat 0
    | 0xE0 => satNat 32 g.leakMax
    | _ => 0

/-- Pulse ledger page (R542). -/
def pulseWord (c : Core) (o : Nat) : Nat :=
  wordOf (sfield 64 (vget (vget c.gdr.sw (o / 48) {}).cnt (o % 48 / 8) 0)) (o / 4 % 2)

/-! ### GDR (Table 21-7, R543) -/

/-- GDR block; in Safe Hold its state alone (R535). -/
def gdrWord (c : Core) (o : Nat) : Nat :=
  let g := c.gdr
  let ph := fun n => vget g.ph n {}
  let stage := match g.st with | .stopped => 0 | .parked => 1 | .switching => 2
  match o with
  | 0x00 =>
    bits 1 0 stage + flag 2 g.reverse
      + ifShown c (flagsFrom 3 ((List.range 4).map (phasePresent c)))
      + flagsFrom 7 ((List.range 4).map fun n => (ph n).iso)
      + ifShown c (bits 12 11 c.thm.stageApp + flag 13 c.thm.stageInv)
      + bits 23 16 g.cause + bits 27 24 g.causePh
  | 0x04 => ifShown c (bits 19 0 c.maq.stag.period)
  | 0x08 => bits 11 0 g.dtIn + bits 27 16 g.dtOut
  | 0x0C => ifShown c (bits 12 0 (pulseThreshold c false) + bits 28 16 (pulseThreshold c true))
  | 0x10 => satNat 32 g.ilConf
  | 0x14 => satNat 32 g.refresh
  | 0x18 => g.boot.toNat + flagsFrom 8 ((List.range 4).map fun n => (ph n).preFail)
  | 0x1C => bits 15 0 (sat16 g.calF) + flagsFrom 16 ((List.range 4).map fun n => (ph n).cal)
  | 0x20 => ifShown c (bits 19 0 g.step)
  | 0x24 => ifShown c (if c.maq.twin.refclk && c.attached then
      bits 19 0 (c.maq.stag.period / (2 * max 1 (nPresent c))) else 0)
  | _ => 0

/-- Switch page (R543). -/
def switchWord (c : Core) (o : Nat) : Nat :=
  let s := vget c.gdr.sw (o / 16) {}
  match o % 16 with
  | 0x0 => bits 19 0 s.emitted + bits 26 20 s.age + flagsFrom 27 [s.sign, s.readOn, s.stuck]
  | 0x4 => sfield 32 s.residue
  | 0x8 => satNat 32 s.rEst
  | _ => 0

/-! ### LOOP (Table 21-8) -/

/-- Code of a governing value. -/
def Governor.code : Governor → Nat
  | .none => 0 | .kind2 => 2 | .kind3 => 3 | .kind4 => 4 | .kind5 => 5 | .cap => 6 | .soft => 7

/-- Code of a pattern. -/
def Pattern.code : Pattern → Nat
  | .fBuck => 0 | .fBoost => 1 | .rBuck => 2 | .rBoost => 3

/-- LOOP block. -/
def loopWord (c : Core) (o : Nat) : Nat :=
  let g := c.loop
  let ph := fun n => vget c.gdr.ph n {}
  if decide (0x10 ≤ o) && decide (o < 0x30) then (vget g.d ((o - 0x10) / 4) {}).out.toNat
  else if decide (0x30 ≤ o) && decide (o < 0x50) then
    let d := vget g.d ((o - 0x30) / 4) {}
    bits 23 0 (satNat 24 d.ovr) + bits 26 24 d.consec
  else
    match o with
    | 0x00 => bits 2 0 g.gov.code + flagsFrom 4 ((List.range 4).map fun n => (ph n).backstop) + flag 8 g.latched
    | 0x04 => sumBy (fun n => (ph n).pat.code * 4 ^ n) [0, 1, 2, 3]
    | 0x08 => sfield 32 g.demand
    | 0x0C => g.relief
    | 0x50 => bits 15 0 (sat16 g.cycMax) + bits 31 16 (sat16 c.maq.loop.worst)
    | 0x54 => satNat 32 g.adcMiss
    | _ => 0

/-! ### THM (Table 21-9) -/

/-- A sensor's temperature field, 0.1 °C. -/
def tempField (c : Core) (i : Nat) : Nat :=
  match (vget c.thm.s i {}).temp with | some t => sfield 16 (satInt 16 t) | none => 0

/-- A sensor's rate field, 0.01 K/s. -/
def rateField (c : Core) (i : Nat) : Nat :=
  match (vget c.thm.s i {}).rate with | some t => sfield 16 (satInt 16 t) | none => 0

/-- A sensor's status byte. -/
def sensorByte (c : Core) (i : Nat) : Nat :=
  let s := vget c.thm.s i {}
  if i < 11 then bits 1 0 s.period + flagsFrom 2 [s.out, s.exceed, s.excl] else 0

/-- THM block. -/
def thmWord (c : Core) (o : Nat) : Nat :=
  let t := c.thm
  match o with
  | 0x14 => tempField c 10
  | 0x18 => sumBy (fun i => sensorByte c i * 256 ^ i) [0, 1, 2, 3]
  | 0x1C => sumBy (fun i => sensorByte c (4 + i) * 256 ^ i) [0, 1, 2, 3]
  | 0x20 => sumBy (fun i => sensorByte c (8 + i) * 256 ^ i) [0, 1, 2]
  | 0x24 => rateField c 0 + 65536 * rateField c 1
  | 0x28 => rateField c 2 + 65536 * rateField c 3
  | 0x2C => rateField c 4 + 65536 * rateField c 5
  | 0x30 => rateField c 6 + 65536 * rateField c 7
  | 0x34 => bits 1 0 t.stageApp + flag 2 t.stageInv + bits 5 3 t.pack + bits 7 6 t.boardApp + flag 8 t.boardInv
      + bits 11 9 t.bHi + bits 14 12 t.bLo + flag 15 t.spread + bits 17 16 (boardVault c)
  | 0x38 =>
    let w := throttleCauses c
    ifShown c (flagsFrom 0 [w.getLsbD 0, w.getLsbD 1, w.getLsbD 2, w.getLsbD 3, boardNow c == 1, boardNow c == 2,
        t.ntc1Out]
      + bits 15 8 (t.lvlApp.getD 0) + flag 16 c.vlt.throt)
  | 0x3C => flagsFrom 0 [t.tripped, t.relRun, (vget t.s 2 {}).out, t.tripLasting] + bits 7 4 t.tripSrc.toNat + bits 28 16 t.relCnt
  | 0x40 => satNat 32 t.trips
  | 0x44 => flagsFrom 0 ((List.range 11).map fun i => (vget t.s i {}).flt)
  | 0x48 => bits 15 0 (sat16 (vget t.s 2 {}).ratio)
  | _ => if o < 0x14 then tempField c (o / 2) + 65536 * tempField c (o / 2 + 1) else 0

/-! ### LSW (Table 22-1) -/

/-- LSW block. -/
def lswWord (c : Core) (o : Nat) : Nat :=
  if o < 0x80 then
    let n := o / 16
    let x := lswCh c n
    let k := lswCfg c n
    let s := slotOf c (6 + n)
    match o % 16 with
    | 0x0 => ifShown c (flagsFrom 0 [x.on, k.present] + bits 4 2 k.duty
        + flagsFrom 5 [x.flag3, s.host == some 1, s.sup == some 1, k.duty == 1 && c.chg.heater, x.fan,
            s.host == some 0 || s.sup == some 0 || (s.merged == 0 && lswInternal c n), x.curTrip, x.thTrip, x.retryDly, x.openOn || x.openOff, c.lsw.uv, !inRun c, x.kiln,
            x.minOff, x.fault, x.iso, x.limiting, lswProbing c n])
    | 0x4 => bits 15 0 (sat16 (x.i / 10)) + (if k.fine then 65536 * sat16 x.i else 0)
    | 0x8 => (match caseTemp c with | some t => sfield 8 (satInt 8 (x.tch - t / 10)) | none => 0)
        + 256 * sfield 8 (satInt 8 x.tch) + bits 19 16 x.retries
    | _ => flagsFrom 0 [x.openOff, x.shortSup, x.testPass, x.openOn, x.noWheel] + bits 11 8 x.row
  else if o = 0xA0 then volt16 c.meas.lswin + flag 16 c.lsw.uv
  else 0

/-! ### PDA and PDB (Table 22-2) -/

/-- Code of an attach state. -/
def Attach.code : Attach → Nat
  | .unattached => 0 | .sink => 1 | .source => 2 | .errorRecovery => 3 | .damp => 4 | .outOfService => 5
  | .isolated => 6

/-- Code of a CC termination. -/
def CcTerm.code : CcTerm → Nat
  | .open_ => 0 | .rd => 1 | .rp15 => 2 | .rp30 => 3

/-- Kind of a port (Table 14-2). -/
def pdKind (k : MqPd) : Nat :=
  if !k.present then 0 else if k.sink && k.source then 3 else if k.source then 2 else if k.sink then 1 else 0

/-- A resistance field, kΩ. -/
def ohmPair (v : Vector Nat 4) (i : Nat) : Nat := sat16 (vget v i 0) + 65536 * sat16 (vget v (i + 1) 0)

/-- PDA or PDB block. -/
def pdWord (c : Core) (p : PdId) (o : Nat) : Nat :=
  let g := c.port p
  let k := pdCfg c p
  let exp := match c.path.export_ with | some e => e.port == exPort p | none => false
  match o with
  | 0x00 => ifShown c (bits 1 0 (pdKind k) + bits 4 2 g.att.code + flag 5 g.cc2 + bits 7 6 g.cc.code
      + flagsFrom 8 [g.toggling, g.ready, g.contract.isSome, g.epr, g.vconn, g.cable5]
      + bits 15 14 (if g.alt then 2 else if offersMode c p then 1 else 0)
      + flagsFrom 16 [g.damp, g.corroded, (c.path.inp (pdInp p)).qual, exp, g.rev2])
  | 0x04 => (match g.contract with | some q => bits 15 0 q.v50 + bits 31 16 q.i10 | none => 0)
  | 0x08 => (match g.contract with
      | some q => bits 2 0 q.pos + flagsFrom 3 [q.epr, q.mismatch, g.att == .source]
      | none => 0)
  | 0x1C => sat16 g.backing + 65536 * sat16 g.asked
  | 0x20 => ohmPair g.kohm 0
  | 0x24 => ohmPair g.kohm 2
  | 0x28 => bits 7 0 (satNat 8 (maxL g.wet.toList)) + bits 15 8 (satNat 8 g.dry) + bits 31 16 (sat16 (g.dampSec / 60))
  | 0x2C => g.nSent.toNat + 65536 * g.nRecv.toNat
  | 0x30 => bits 7 0 (satNat 8 g.hrSent) + bits 15 8 (satNat 8 g.hrRecv) + bits 23 16 (satNat 8 g.rejects)
      + bits 31 24 (satNat 8 g.swapsRef)
  | _ =>
    if decide (0x0C ≤ o) && decide (o < 0x1C) then
      let x := g.offer.getD ((o - 0x0C) / 4) (0, 0)
      bits 15 0 x.1 + bits 31 16 x.2
    else 0

/-! ### PLB (Table 22-3) -/

/-- Code of a confinement state. -/
def PortSt.code : PortSt → Nat
  | .active => 0 | .warned => 1 | .restricted => 2 | .isolated => 3

/-- Partners of a port that a test selects. -/
def countPartners (g : PlbPort) (f : Partner → Bool) : Nat := (g.partners.filter fun x => f x.2).length

/-- PLB block. -/
def plbWord (c : Core) (o : Nat) : Nat :=
  if o < 0x40 then
    let p := o / 16
    let g := c.plbPort p
    match o % 16 with
    | 0x0 => ifShown c (bits 1 0 g.st.code
        + flagsFrom 2 [portPresent c p, hasMedium c p, decide (p = 3) && c.maq.plbs.route, g.shed,
            (g.shed && !g.lineFault) || g.uncommanded || c.pins.twShed.getLsbD p, g.byVault, g.byThrot,
            g.byOrder, g.byConf, c.pins.twShed.getLsbD p && !g.shed]
        + bits 23 16 (satNat 8 g.tec))
    | 0x4 => sat16 g.nWarned + 65536 * sat16 g.nRestr
    | 0x8 => g.slotMap.toNat + 65536 * g.misses.toNat
    | _ => satNat 8 (countPartners g fun x => x.enrolled) + 256 * satNat 8 (countPartners g fun x => x.absent)
        + 65536 * satNat 8 (countPartners g fun x => x.barred) + 16777216 * satNat 8 (countPartners g fun x => x.collision)
  else
    match o with
    | 0x50 => (match c.maq.plbs.superv with
        | some a => bits 12 0 a + flag 13 (acctPartner c a).enrolled
        | none => flag 14 true)
    | 0x54 => c.plb.cycle.toNat
    | _ => 0

/-! ### VLT (Table 22-4, R548, R549) -/

/-- Milliseconds left until a grid tick. -/
def msLeft (c : Core) (t : Option Nat) : Nat :=
  match t with | some t => (t - c.life.tick.toNat % 4294967296) / 100 | none => 0

/-- Detail of the selected account (R548). -/
def detailWord (c : Core) (o : Nat) : Nat :=
  let a := c.vlt.dsel
  let r := c.vlt.acct a
  let k := c.acctCfg a
  let req := fun (q : Option Req) => match q with | some q => sat16 q.tokens | none => 0xFFFF
  let age := fun (q : Option Req) => match q with | some q => q.age | none => 0
  match o with
  | 0x60 => bits 15 0 k.floor + bits 31 16 (sat16 (if 4064 ≤ a then internalCeil c a else k.ceil))
  | 0x64 => bits 7 0 (acctWeight c a) + bits 9 8 (acctTier c a) + flag 10 (k.active || decide (4064 ≤ a))
      + flag 11 (decide (4064 ≤ a))
  | 0x68 => sat16 r.sup.level + 65536 * req r.sup.req
  | 0x6C => sat16 r.ret.level + 65536 * req r.ret.req
  | 0x70 => sat16 (msLeft c r.sup.leaseEnd) + 65536 * sat16 (msLeft c r.ret.leaseEnd)
  | 0x74 => (match r.burst with | some b => satNat 32 b.e | none => 0)
  | 0x78 => (match r.burst with
      | some b => (match b.windowEnd with | some t => msLeft c (some t) | none => b.d)
      | none => 0)
  | 0x7C => (r.supSeq.getD 0).toNat + 256 * (r.retSeq.getD 0).toNat
      + 65536 * sat16 (max (age r.sup.req) (age r.ret.req))
  | _ => 0

/-- Audits for which a column's deficit has been carried. -/
def carryMs (c : Core) (t : ColTot) : Nat :=
  match t.carrySince with | some n => (c.vlt.auditNo.toNat + 65536 - n) % 65536 | none => 0

/-- VLT block. -/
def vltWord (c : Core) (o : Nat) : Nat :=
  let v := c.vlt
  match o with
  | 0x00 => sat16 v.sup.pool + 65536 * sat16 v.ret.pool
  | 0x04 => sat16 v.k + (if c.attached then 65536 * sat16 v.kTwin else 0)
  | 0x08 => sfield 32 v.margin
  | 0x0C => sfield 32 v.sup.f
  | 0x10 => sfield 32 v.sup.g
  | 0x14 => sfield 32 v.sup.t
  | 0x18 => sfield 32 v.ret.f
  | 0x1C => sfield 32 v.ret.g
  | 0x20 => sfield 32 v.ret.t
  | 0x24 => sat16 (-v.sup.f).toNat + 65536 * sat16 (carryMs c v.sup)
  | 0x28 => satNat 32 v.sup.lam
  | 0x2C => satNat 32 v.ret.lam
  | 0x30 => satNat 32 v.eAvail
  | 0x34 => satNat 32 v.eCommit
  | 0x38 => sat16 v.bMax + 65536 * sat16 (v.recs.filter fun x => x.2.burst.isSome).length
  | 0x3C => bits 12 0 (pendingReqs c .supply).length + bits 28 16 (pendingReqs c .ret).length
  | 0x40 => bits 7 0 v.q + bits 23 8 (sat16 v.pT) + flagsFrom 24 [v.throt, v.grace, v.enforce]
  | 0x44 => flag 0 v.pass + bits 3 1 v.failed + bits 7 4 v.noRaise + bits 31 16 v.auditNo.toNat
  | 0x48 => sfield 16 (satInt 16 v.s) + 65536 * sat16 (v.lLoc + if c.attached then v.lLocTwin else 0)
  | 0x4C => sat16 v.floors + 65536 * sat16 v.u
  | 0x54 => v.nDenied.toNat + 65536 * v.nDefer.toNat
  | 0x5C => bits 12 0 v.dsel + flag 15 v.dvalid
  | _ => if decide (0x60 ≤ o) && v.dvalid then detailWord c o else 0

/-- Account window (R549). -/
def acctWord (c : Core) (a : Nat) : Nat :=
  if 4067 ≤ a then 0
  else
    let r := c.vlt.acct a
    let p := acctPartner c a
    bits 12 0 r.sup.level + bits 25 13 r.ret.level
      + flagsFrom 26 [r.sup.req.isSome || r.ret.req.isSome, r.burst.isSome]
      + (if a < 4064 then flagsFrom 28 [p.enrolled, p.absent, p.barred, p.collision] else 0)

/-! ### TWN (Table 22-5) -/

/-- Code of a fencing state. -/
def Fence.code : Fence → Nat
  | .none => 0 | .delay => 0 | .gap => 1 | .contest => 2 | .won => 3

/-- TWN block. -/
def twnWord (c : Core) (o : Nat) : Nat :=
  let t := c.twn
  let id := fun (f : IdentMsg → Nat) => match t.ident with | some m => f m | none => 0
  if decide (0x14 ≤ o) && decide (o < 0x34) then id fun m => digestWord m.digest ((o - 0x14) / 4)
  else
    match o with
    | 0x00 => ifShown c (bits 2 0 t.role.code
        + flagsFrom 3 [t.trained, t.attached, t.ramp, c.pins.twPres, t.drive, c.pins.twTrip]
        + bits 10 9 t.fence.code + flagsFrom 11 [t.lost, t.onRef, t.refused] + bits 15 14 t.refCause)
    | 0x04 => id fun m => wordOf m.serial.toNat 0
    | 0x08 => id fun m => wordOf m.serial.toNat 1
    | 0x0C => id fun m => wordOf m.group.toNat 0
    | 0x10 => id fun m => wordOf m.group.toNat 1
    | 0x34 => t.hb.toNat
    | 0x38 => sat16 t.hbErr + 65536 * sat16 t.hbLoss
    | 0x3C => sat16 t.naks + 65536 * sat16 t.resyncs
    | 0x40 => cur16 (t.share / 1000) + 65536 * sat16 t.weight
    | 0x44 => ifShown c (flagsFrom 0 [t.xLdgOk, t.xMirOk, t.xPathOk, t.xPolOk, t.attached && !codeActive c 0x1408,
        t.shareFroz])
    | 0x48 => sfield 32 (satInt 32 t.xLdg)
    | _ => 0

/-! ### WDG (Table 22-6) -/

/-- Code of a lifecycle state in a capture: those a capture can name are those of SYS STATE. -/
def captureWord (k : Capture) : Nat :=
  flag 0 k.valid + bits 2 1 k.kind + bits 5 3 (lifeCode k.st) + bits 7 6 (modeCode k.mode) + flag 8 k.chisel
    + bits 21 16 k.missing.toNat + bits 31 24 (satNat 8 k.lost)

/-- WDG block. -/
def wdgWord (c : Core) (o : Nat) : Nat :=
  let w := c.wdg
  if decide (0x08 ≤ o) && decide (o < 0x20) then (vget w.last ((o - 0x08) / 4) 0).toNat
  else if decide (0x48 ≤ o) && decide (o < 0x60) then (vget w.cap.last ((o - 0x48) / 4) 0).toNat
  else
    match o with
    | 0x00 => flagsFrom 0 [w.run, c.otp.wdtHw, w.tWds] + bits 13 8 w.missing.toNat + bits 31 16 w.period
    | 0x04 => w.num.toNat
    | 0x40 => captureWord w.cap
    | 0x44 => w.cap.pc.toNat
    | 0x60 => w.cap.time.toNat
    | 0x64 => w.cap.code.toNat
    | _ => 0

/-! ### FLT (Table 22-7, R551, R553) -/

/-- Excluded blocks (R282). -/
def exclWord (c : Core) : Nat :=
  flagsFrom 0 ((List.range 4).map fun n => (vget c.gdr.ph n {}).iso)
    + flagsFrom 4 ((List.range 3).map fun n => (vget c.path.inputs n {}).iso)
    + flagsFrom 7 ((List.range 8).map fun n => (lswCh c n).iso)
    + flagsFrom 15 [(c.port .a).iso, (c.port .b).iso]
    + flagsFrom 17 ((List.range 4).map fun n => (c.plbPort n).st == .isolated)
    + flagsFrom 21 [c.cel.stackIso, c.flt.vaultIso]

/-- Entry of the Probe queue. -/
def probeWord (x : ProbeQ) : Nat := x.code.toNat + 65536 * x.inst.toNat + flag 24 x.running

/-- FLT block; a rotation item begins and ends within its command, so none is ever in progress in an image. -/
def fltWord (c : Core) (o : Nat) : Nat :=
  let f := c.flt
  if decide (0x30 ≤ o) && decide (o < 0x70) then
    (match f.q[(o - 0x30) / 4]? with | some x => probeWord x | none => 0)
  else
    match o with
    | 0x00 => if shown c then flag 0 (guaranteed c) + flagsFrom 1 (guardCauses c) else 2
    | 0x04 => bits 6 0 (f.l.toList.filter Option.isSome).length + bits 23 16 f.q.length
    | 0x08 => flag 0 f.ovf
    | 0x0C => wordOf (latchMap c Latch.new_) 0
    | 0x10 => wordOf (latchMap c Latch.new_) 1
    | 0x14 => wordOf (latchMap c Latch.active) 0
    | 0x18 => wordOf (latchMap c Latch.active) 1
    | 0x1C => exclWord c
    | 0x20 => bits 15 8 ((List.range 10).filter fun k => f.rotDone.getLsbD k).length
        + (if inRun c && c.maq.fltr.probes then bits 31 16 ((c.life.us - f.rotStart).toNat / 1000000) else 0)
    | 0x24 => f.overdue.toNat
    | 0x28 => f.fcount.toNat
    | _ => 0

/-- Latch entry (R551). -/
def latchWord (c : Core) (o : Nat) : Nat :=
  match vget c.flt.l (o / 16) none with
  | none => 0
  | some x =>
    match o % 16 with
    | 0x0 => x.code.toNat + 65536 * x.inst.toNat + bits 26 24 x.cls.code
        + bits 28 27 (match x.probe with | .pending => 0 | .transient => 1 | .lasting => 2 | .notRun => 3)
        + flagsFrom 29 [x.masked, x.new_, x.active]
    | 0x4 => satNat 32 x.count
    | 0x8 => x.first.toNat
    | _ => x.last.toNat

/-- Transient history slot (R553). -/
def histWord (c : Core) (o : Nat) : Nat :=
  match c.flt.hist[o / 64]? with
  | none => 0
  | some h =>
    if o % 64 = 0 then h.block.toNat + 256 * h.inst.toNat + bits 19 16 h.stamps.length
    else satNat 32 (h.stamps.getD (o % 64 / 4 - 1) 0)

/-! ### OWN (Table 22-8) -/

/-- OWN block. -/
def ownWord (c : Core) (o : Nat) : Nat :=
  let w := c.own
  let p := patinaNow c
  if decide (0x40 ≤ o) && decide (o < 0xC0) then bytesWord w.dWin (o - 0x40)
  else
    match o with
    | 0x00 => bits 10 0 c.otp.epoch + flagsFrom 11 [c.otp.retired, ownerEnabled c] + bits 15 13 w.step
        + flagsFrom 16 [w.keyFault, w.scan]
    | 0x04 => w.head.getD 0 * 4096
    | 0x08 => (match w.head with | some h => satNat 32 (sectorOf c h).seq | none => 0)
    | 0x0C => sfield 8 (satInt 8 w.credit)
    | 0x10 => sat16 (queueUse w.q)
    | 0x14 => sat16 w.dropped + 65536 * sat16 w.torn
    | 0x18 => satNat 32 w.start
    | 0x24 => bits 2 0 w.dStat + bits 15 8 w.dType + bits 31 16 w.dLen
    | 0x28 => w.dOff
    | 0xC0 => satNat 32 p.runH
    | 0xC4 => satNat 32 p.stageH
    | 0xC8 => satNat 32 p.boots
    | 0xCC => satNat 32 p.cycles
    | 0xD0 => wordOf p.ispIn 0
    | 0xD4 => wordOf p.ispIn 1
    | 0xD8 => wordOf p.ispOut 0
    | 0xDC => wordOf p.ispOut 1
    | 0xE0 => satNat 32 p.handovers
    | 0xE4 => satNat 32 p.erases
    | 0xE8 => sat16 p.dropped + 65536 * sat16 p.torn
    | _ => 0

/-! ### MQS and TST (Tables 22-9 and 22-10) -/

/-- MQS block. -/
def mqsWord (c : Core) (o : Nat) : Nat :=
  let q := c.mqs
  let t := c.otp
  if decide (0x08 ≤ o) && decide (o < 0x28) then digestWord q.digest ((o - 0x08) / 4)
  else
    match o with
    | 0x00 => flagsFrom 0 [q.fromB, c.maq.head.checked, c.mq.isSome && !c.maq.head.checked, q.bothFail]
        + bits 7 4 q.resA + bits 11 8 q.resB + bits 23 16 (satNat 8 c.maq.head.secVersion)
        + bits 31 24 (satNat 8 t.rollback)
    | 0x04 => q.jedec.toNat
    | 0x28 => c.maq.head.imageLen
    | 0x2C => flagsFrom 0 (t.slots.toList.map Option.isSome) + bits 7 4 t.revoked.toNat
        + flagsFrom 8 [t.wdtHw, t.testLock, t.provisioned, t.burnTo.isSome || t.burnRevoke != 0,
            t.idEcc || t.slotEcc != 0]
    | 0x30 => flagsFrom 0 [stagingReady c, q.open_, q.second, q.targetB]
    | 0x34 => q.buf.length
    | 0x38 => bits 3 0 q.res1 + bits 7 4 q.res2 + 256 * q.discarded.toNat
    | 0x3C => q.len
    | 0x78 => bits 2 0 q.provRes
    | _ => 0

/-! ### The whole map -/

/-- What a write to a word address acts on (R10, R497, R503, R539, R547). -/
inductive RegKind where
  | unmapped
  | ro
  | order (slot : Nat)
  | w1cReset
  | w1cAttn
  | w1cOvf
  | w1cNew (half : Nat)
  | accsel
  | deccmd
  | stgcmd
  | stgarg
  | staging
  | provcmd
  | provhash
  deriving DecidableEq, Repr

/-- Aliases of order slots (R539). -/
def aliasSlots : List (Nat × Nat) :=
  [(0x140, 0), (0x144, 1), (0x148, 2), (0x14C, 22), (0x240, 3), (0x244, 4), (0x248, 5), (0x24C, 24)]
    ++ (List.range 8).map (fun n => (0x780 + 4 * n, 6 + n))
    ++ [(0x840, 14), (0x8C0, 15)]
    ++ (List.range 4).map (fun n => (0x940 + 4 * n, 17 + n))
    ++ [(0x9D0, 16), (0xA4C, 26), (0xA50, 27), (0xA54, 28), (0xDEC, 29)]

/-- Ranges of read-only words: first and last address. -/
def roRanges : List (Nat × Nat) :=
  [(0x000, 0x018), (0x024, 0x02C), (0x100, 0x134), (0x200, 0x220), (0x300, 0x38C), (0x400, 0x4E0), (0x500, 0x524),
    (0x580, 0x5D4), (0x600, 0x648), (0x700, 0x77C), (0x7A0, 0x7A0), (0x800, 0x830), (0x880, 0x8B0)]
    ++ [(0x900, 0x93C), (0x950, 0x954), (0x980, 0x9CC), (0x9D4, 0x9D4), (0x9DC, 0x9FC), (0xA00, 0xA48), (0xB00, 0xB1C),
    (0xB40, 0xB64), (0xC00, 0xC04), (0xC14, 0xC28), (0xC30, 0xC6C), (0xD00, 0xD18), (0xD24, 0xD28), (0xD40, 0xDE8)]
    ++ [(0xE00, 0xE3C), (0xE78, 0xE78), (0xF00, 0xF00), (0x1900, 0x1BFC), (0x2000, 0x33FC), (0x4000, 0x7F88)]

/-- The slot and the offset in its entry of an address of the slot table (R537). -/
def slotEntry (a : Nat) : Option (Nat × Nat) :=
  if decide (0x1010 ≤ a) && decide (a < 0x1880) then
    (slotIx ((a - 0x1000) / 16)).map fun k => (k, a % 16)
  else none

/-- What a write to a word address acts on. -/
def regKind (a : Nat) : RegKind :=
  match aliasSlots.find? fun x => x.1 == a with
  | some x => .order x.2
  | none =>
    match slotEntry a with
    | some (k, o) => if o = 0 then .order k else .ro
    | none =>
      if a = 0x01C then .w1cReset
      else if a = 0x020 then .w1cAttn
      else if a = 0xC08 then .w1cOvf
      else if a = 0xC0C then .w1cNew 0
      else if a = 0xC10 then .w1cNew 1
      else if a = 0x9D8 then .accsel
      else if a = 0xD20 then .deccmd
      else if a = 0xE60 then .stgcmd
      else if a = 0xE64 then .stgarg
      else if a = 0xE7C then .provcmd
      else if decide (0xE80 ≤ a) && decide (a < 0xF00) then .provhash
      else if decide (0x3800 ≤ a) && decide (a < 0x4000) then .staging
      else if decide (0x1C00 ≤ a) && decide (a < 0x1D00) then (if a % 16 = 12 then .unmapped else .ro)
      else if roRanges.any fun r => decide (r.1 ≤ a) && decide (a ≤ r.2) then .ro
      else .unmapped

/-- A word of a block below 0x1000, by block base (Table 00-5). -/
def blockWord (c : Core) (a : Nat) : Nat :=
  let o := a % 0x80
  match a / 0x80 with
  | 0 => sysWord c o
  | 2 => pthWord c o
  | 4 => chgWord c o
  | 6 => celWord c o
  | 7 => celWord c (a - 0x300)
  | 8 => ldgWord c o
  | 9 => ldgWord c (a - 0x400)
  | 10 => gdrWord c o
  | 11 => loopWord c o
  | 12 => thmWord c o
  | 14 => lswWord c o
  | 15 => lswWord c (a - 0x700)
  | 16 => pdWord c .a o
  | 17 => pdWord c .b o
  | 18 => plbWord c o
  | 19 => vltWord c o
  | 20 => twnWord c o
  | 22 => wdgWord c o
  | 24 => fltWord c o
  | 26 => ownWord c o
  | 27 => ownWord c (a - 0xD00)
  | 28 => mqsWord c o
  | 30 => if o = 0 then flagsFrom 0 [c.life.tmode, c.otp.testLock] else 0
  | _ => 0

/-- The word at an address of the map; WO fields and unmapped addresses read 0 (R497, R500). -/
def regRead (c : Core) (a : Nat) : BitVec 32 :=
  BitVec.ofNat 32 (match aliasSlots.find? fun x => x.1 == a with
    | some x => slotWord c x.2 0
    | none =>
      match slotEntry a with
      | some (k, o) => slotWord c k o
      | none =>
        if a < 0x1000 then blockWord c a
        else if decide (0x1900 ≤ a) && decide (a < 0x1C00) then pulseWord c (a - 0x1900)
        else if decide (0x1C00 ≤ a) && decide (a < 0x1D00) then switchWord c (a - 0x1C00)
        else if decide (0x2000 ≤ a) && decide (a < 0x2400) then latchWord c (a - 0x2000)
        else if decide (0x2400 ≤ a) && decide (a < 0x3400) then histWord c (a - 0x2400)
        else if decide (0x4000 ≤ a) && decide (a < 0x8000) then acctWord c ((a - 0x4000) / 4)
        else 0)

end Sys2Proof.Machine
end

