-- ==== Sys2Proof/Machine/Window.lean ====
section
/-! DEFINITION. The Window Port (chapter 19): transactions, the identity page, the pending write and what a merge
tick takes from it. -/

namespace Sys2Proof.Machine

/-! ### Reads -/

/-- The identity page of an image (Table 19-5). -/
def identityPage (c : Core) : List Byte :=
  toLe 2 0x4810 ++ [0x01, 0x02, BitVec.ofNat 8 (lifeCode c.life.st), 0x01, 0, 0] ++ toLe 8 c.otp.serial.toNat

/-- The bytes of `n` words of an image from an address. -/
def imageBytes (c : Core) : Nat → Nat → List Byte
  | 0, _ => []
  | n + 1, a => toLe 4 (regRead c a).toNat ++ imageBytes c n (a + 4)

/-- Data of a read or identity transaction from the frozen image (R499, R505). -/
def readData (c : Core) (h : WinHead) : List Byte :=
  if h.op = 0x9F then ((identityPage c).drop h.addr).take h.n else imageBytes c (h.n / 4) h.addr

/-- WIN_SDO of a transaction after the status byte `st` (R493, R494, R496): a bad read returns zeros and the
complement of its CRC. -/
def sdoBytes (img : Core) (st : Byte) (f : WinFrame) : List Byte :=
  let n := f.bytes.length
  match winHead f.bytes with
  | some h =>
    if isWrite h.op || !knownOp h.op then (st :: List.replicate (n - 1) 0)
    else
      let bad := winMalformed f || winHeaderFails f
      let d := if bad then List.replicate h.n 0 else readData img h
      let crc := crc8 (st :: d)
      ((st :: 0 :: 0 :: 0 :: 0 :: d) ++ (if bad then ~~~crc else crc) :: List.replicate n 0).take n
  | none => (st :: List.replicate n 0).take n

/-! ### Writes -/

/-- Word `i` of a write with its address. -/
def writeWords (w : WinWrite) : List (Nat × BitVec 32) := mapFrom (fun i v => (w.addr + 4 * i, v)) 0 w.words

/-- A word that the port refuses (R110, R490, R498, R502, R545, R547). -/
def wordRefused (c : Core) (a : Nat) : Bool :=
  match regKind a with
  | .ro => true
  | .order k => !takesOrders c k
  | .accsel | .deccmd => inSafeHold c
  | .stgcmd | .stgarg | .staging => !mayStage c
  | _ => false

/-- A write waits for the next merge tick and wakes Dormant, or it is discarded because another waits (R501, R507,
R510). -/
def holdWrite (s : State) (w : WinWrite) : State :=
  if s.win.pend.isSome then portNote s 5
  else { s with win := { s.win with pend := some w }, core := wakeBegin s.core false }

/-- A write that arrives whole (R501, R507, R510); words that the port refuses are reported. -/
def takePending (s : State) (op : Byte) (h : WinHead) (f : WinFrame) : State :=
  let w : WinWrite := { w1c := op == 0x06, addr := h.addr, words := winWords f, tick := s.win.frozen }
  let refused := op == 0x02 && (writeWords w).any fun x => wordRefused s.core x.1
  if s.win.pend.isNone && refused then portNote (holdWrite s w) 2 else holdWrite s w

/-- A transaction where every opcode is served (R494–R502). -/
def transactOpen (f : WinFrame) (s : State) : State :=
  let st : Byte := s.win.status.zeroExtend 8
  let s := { s with win := { s.win with
    sdo := sdoBytes s.img st f, status := if s.img.pins.attn then 0x10 else 0 } }
  let s := if winHeaderFails f then portNote s 3 else s
  if winMalformed f then portNote s 1
  else
    match winHead f.bytes with
    | none => s
    | some h =>
      if isWrite h.op then (if winWriteFails f then portNote s 0 else takePending s h.op h f)
      else if h.op = 0x0B && !(winHeaderFails f) then { s with win := { s.win with frozen := s.img.life.imgNo } }
      else s

/-- A transaction in Boot (R506): identity alone is answered. -/
def transactBoot (f : WinFrame) (s : State) : State :=
  match f.bytes with
  | 0x9F :: _ =>
    let st : Byte := s.win.status.zeroExtend 8
    let s := { s with win := { s.win with sdo := sdoBytes s.img st f, status := 0 } }
    let s := if winHeaderFails f then portNote s 3 else s
    if winMalformed f then portNote s 1 else s
  | _ => { s with win := { s.win with sdo := [], status := 0 } }

/-- A transaction, by lifecycle state (R506). -/
def transact (f : WinFrame) (s : State) : Res :=
  .next (match s.core.life.st with
    | .off | .reset => { s with win := { s.win with sdo := [] } }
    | .boot => transactBoot f s
    | _ => transactOpen f s)

/-- SNAPSHOT_READ (opcode 0x0B). -/
def execSnapshotRead (f : WinFrame) (s : State) : Res := transact f s

/-- IDENTITY (opcode 0x9F). -/
def execIdentity (f : WinFrame) (s : State) : Res := transact f s

/-- ORDER_WRITE (opcode 0x02). -/
def execOrderWrite (f : WinFrame) (s : State) : Res := transact f s

/-- W1C_ACKNOWLEDGE_WRITE (opcode 0x06). -/
def execW1cAcknowledgeWrite (f : WinFrame) (s : State) : Res := transact f s

/-! ### What a merge tick takes (R501, R503, R541, R547, R552) -/

/-- New bits of the latches of a map cleared (R552): not of one that was allocated or struck after the image. -/
def ackNew (c : Core) (mask : Nat) (image : BitVec 64) : Core :=
  let f := fun (e : Nat) (l : Option Latch) => l.map fun x =>
    if mask.testBit e && decide (x.tick.toNat ≤ image.toNat) then { x with new_ := false } else x
  { c with flt := { c.flt with l := vmap f c.flt.l } }

/-- One word of an acknowledge write (R503, R541). -/
def ackWord (c : Core) (a : Nat) (v : BitVec 32) (image : BitVec 64) : Core :=
  match regKind a with
  | .w1cReset => { c with life := { c.life with rstCause := c.life.rstCause &&& ~~~(v.truncate 9) } }
  | .w1cAttn => { c with ord := { c.ord with attn := c.ord.attn &&& ~~~(v.truncate 7) } }
  | .w1cOvf => if v.getLsbD 0 then { c with flt := { c.flt with ovf := false } } else c
  | .w1cNew h => ackNew c (v.toNat * 2 ^ (32 * h)) image
  | _ => c

/-- The state a command leads to. -/
def after (r : Res) (s : State) : State :=
  match r with
  | .next t => t
  | _ => s

/-- The acknowledge write of the two NEWMAP words, with the number of the image last read (Table 22-7, R552). -/
def newmapWrite (mask : BitVec 64) (image : BitVec 64) : WinWrite :=
  { w1c := true, addr := 0xC0C, words := [mask.truncate 32, (mask >>> 32).truncate 32], tick := image }

/-- NEWMAP_ACKNOWLEDGE (R34, R552): the write waits for the next merge tick, which clears New. -/
def execNewmapAcknowledge (mask : BitVec 64) (s : State) : Res :=
  .next (if portOpen s.core then holdWrite s (newmapWrite mask s.win.frozen) else s)

/-- ACCSEL (R547, R548, R557): it waits for the end of the tick's audit. -/
def execAccsel (v : BitVec 32) (s : State) : Res :=
  if inSafeHold s.core then .next (refusePort s)
  else onCoreIf s portOpen fun c => wakeBegin { c with vlt := { c.vlt with dselPend := some (v.toNat % 8192) } } false

/-- A staging command word (R554): BEGIN carries STGARG with it, END and ABORT stand alone. -/
def stagingWord (s : State) (v : BitVec 32) (arg : Option (BitVec 32)) : State :=
  match v.toNat % 16, arg with
  | 1, some len => after (execStagingBegin len s) s
  | 2, none => after (execStagingEnd s) s
  | 3, none => after (execStagingAbort s) s
  | _, _ => s

/-- The staging words of a write: one chunk (R555). -/
def stagingChunk (s : State) (l : List (Nat × BitVec 32)) : State :=
  match l.filter fun x => regKind x.1 == .staging with
  | [] => s
  | (a, v) :: r => after (execStagingData a (((a, v) :: r).flatMap fun x => toLe 4 x.2.toNat) s) s

/-- Hash of slot `k` in the words of a provisioning write, octets in order (R556). -/
def hashOf (l : List (Nat × BitVec 32)) (k : Nat) : BitVec 256 :=
  let bs := ((l.drop (1 + 8 * k)).take 8).flatMap fun x => toLe 4 x.2.toNat
  BitVec.ofNat 256 (bs.foldl (fun n b => n * 256 + b.toNat) 0)

/-- The provisioning command of a write: one write of 132 bytes from PROVCMD (R556). -/
def provisionWrite (s : State) (l : List (Nat × BitVec 32)) : State :=
  match l with
  | (a, v) :: _ =>
    if regKind a == .provcmd && decide (l.length = 33) then
      after (execProvisioningOrder v ⟨#[hashOf l 0, hashOf l 1, hashOf l 2, hashOf l 3], rfl⟩ s) s
    else s
  | [] => s

/-- One word of an order write carried out (R503, R547). -/
def orderWord (s : State) (a : Nat) (v : BitVec 32) (arg : Option (BitVec 32)) : State :=
  if wordRefused s.core a then s
  else
    match regKind a with
    | .order k => { s with core := { s.core with ord := { s.core.ord with
        arrived := s.core.ord.arrived ++ [{ m := .host, slot := k, v := v }] } } }
    | .accsel => after (execAccsel v s) s
    | .deccmd => after (execDecryptCommand v s) s
    | .stgcmd => stagingWord s v arg
    | _ => s

/-- The words of a write in ascending address order; a word sees the next one as its argument. -/
def orderWords (s : State) : List (Nat × BitVec 32) → State
  | [] => s
  | (a, v) :: r =>
    let arg := match r with
      | (b, x) :: _ => if regKind b == .stgarg then some x else none
      | [] => none
    orderWords (orderWord s a v arg) r

/-- The pending write taken into the merge tick (R501, R503). -/
def takeWrite (s : State) : State :=
  match s.win.pend with
  | none => s
  | some w =>
    let s := { s with win := { s.win with pend := none } }
    let l := writeWords w
    if w.w1c then { s with core := l.foldl (fun c x => ackWord c x.1 x.2 w.tick) s.core }
    else
      let t := orderWords s l
      let t := if l.any fun x => regKind x.1 == .staging then
          (if mayStage t.core then stagingChunk t l else t) else t
      provisionWrite t l

end Sys2Proof.Machine
end

