-- ==== Sys2Proof/Machine/Grid.lean ====
section
/-! DEFINITION. The shared timing grid (chapter 01): the merge tick with everything that falls on it, the mode
decision and the ledger close. -/

namespace Sys2Proof.Machine

/-! ### The mode decision (R20–R29) -/

/-- The export is active for the decision (Table 01-1): the converter works in reverse for a port. -/
def exportActive (c : Core) : Bool :=
  match c.path.export_ with | some e => e.step != .outOff | none => false

/-- I_PACK is valid for the decision (Table 01-7). -/
def ispValid (c : Core) : Bool := !(vget c.ldg.ch 4 {}).iso && !(vget c.ldg.ch 4 {}).missed

/-- The standing economy in the hysteresis band (R21, R25). -/
def bandMode (m : Mode) : Mode :=
  match m with | .reservoir => .reservoir | .charge => .charge | .return_ => .charge | .none => .charge

/-- The candidate mode (Table 01-1, R21, R24); without a valid I_PACK the mode is held (R39). -/
def candidate (c : Core) (iPackAvg : Int) : Mode :=
  if exportActive c then .return_
  else if c.path.active.isNone then .reservoir
  else if !ispValid c then bandMode c.life.mode
  else if iPackAvg ≤ -200 then .reservoir
  else if 0 ≤ iPackAvg then .charge
  else bandMode c.life.mode

/-- The mode state after a decision names a candidate (R22, R23, R29). -/
def decideMode (l : LifeG) (cand : Mode) : LifeG :=
  let l' := { l with modeNow := false, pathDriven := false }
  if cand = l.mode then { l' with modePend := none }
  else if l.modeNow || l.pathDriven then { l' with mode := cand, modePend := none }
  else if l.modePend = some cand then
    if l.dwell + 1 = 50 then { l' with mode := cand, modePend := none, dwell := 50 }
    else { l' with dwell := l.dwell + 1 }
  else { l' with modePend := some cand, dwell := 0 }

/-- What the event records watch, as it stands (Table 20-4). -/
def seenNow (c : Core) : Seen :=
  { mode := c.life.mode, active := c.path.active, xfer := c.path.xfer.isSome
    ports := c.pd.toList.map fun g => g.att, twin := c.twn.attached, role := c.twn.role
    contracts := c.pd.toList.map fun g => g.eff.map fun k => (k.v50, k.i10) }

/-- An event record of a change (Table 20-4). -/
def queueEvent (c : Core) (k : EventKind) : Core := queueFree c .event (.event k (seenNow c))

/-- Changes of a merge tick that have a record: transfer, attach, role and contract (Table 20-4, log entry 133). -/
def changes (was now : Seen) : List EventKind :=
  (if was.active != now.active || was.xfer != now.xfer then [.transfer] else [])
    ++ (if was.ports != now.ports || was.twin != now.twin then [.attach] else [])
    ++ (if was.role != now.role then [.role] else [])
    ++ (if was.contracts != now.contracts then [.contract] else [])

/-- The event records of a merge tick. -/
def eventStep (c : Core) : Core :=
  let c := (changes c.own.seen (seenNow c)).foldl queueEvent c
  { c with own := { c.own with seen := seenNow c } }

/-- A decision: its mode, the record of a change (Table 20-4), and what the charger draws from it. -/
def modeStep (c : Core) (iPackAvg : Int) : Core :=
  let l := decideMode c.life (candidate c iPackAvg)
  let changed := l.mode != c.life.mode
  let c := { c with life := l, meas := { c.meas with ispDec := iPackAvg } }
  chargeDecision (if changed then queueEvent c .mode else c)

/-- MODE_DECISION. -/
def execModeDecision (iPackAvg : Int) (s : State) : Res := onGrid s .decision fun c => modeStep c iPackAvg

/-- LEDGER_CLOSE (R263, R41 steps 2 and 3): accumulator memory that is uncorrectable in both copies is a reset
(Table 10-5 row 5). -/
def execLedgerClose (memoryOk : Bool) (s : State) : Res :=
  onGrid s .close fun c => if memoryOk then gridClose c else fault c 0x0805 0

/-! ### Grid events (R40, R41, R43, Table 01-8) -/

/-- The events that fall on a tick, in the order of R41; tick 0 is that of Run entry. -/
def dueAt (t : Nat) : List GridEvent :=
  (if t % 1000 = 0 then [GridEvent.close] else []) ++ (if t % 10 = 0 then [GridEvent.decision] else [])
    ++ (if t % 100 = 0 then [GridEvent.audit, GridEvent.plinth] else [])

/-- Place of an event in the overrun counts; the Plinth cycle start has none (R43). -/
def overrunIx : GridEvent → Option Nat
  | .close => some 0 | .decision => some 1 | .audit => some 2 | .plinth => none

/-- Events that did not finish within their tick: each counts as one overrun and is still to be performed; the next event
of its kind falls on its own tick all the same (R43). -/
def leaveLate (l : LifeG) : LifeG :=
  { l with
    late := l.late ++ l.due, due := []
    overruns := l.due.foldl (fun v e => match overrunIx e with
      | some k => vupd v k (· + 1)
      | none => v) l.overruns }

/-- A tick with unfinished events ends with the image as it stands (R43, R499). -/
def endTick (s : State) : State := if s.core.life.due.isEmpty then s else publish s

/-! ### What falls on a merge tick -/

/-- The KLN shadow takes the program counter and the check-in times (R127). -/
def shadow (pc : BitVec 32) (c : Core) : Core :=
  { c with wdg := { c.wdg with shPc := pc, shLast := c.wdg.last } }

/-- The µs timebase one merge tick on (R127). -/
def usTick (c : Core) : Core := { c with life := { c.life with us := c.life.us + 10 } }

/-- Hours of Run and Dormant and of stage switching, in steps of 0.01 h (R527). -/
def hourTick (c : Core) : Core :=
  let o := c.own
  let o := if o.runT + 1 = 3600000 then { o with runT := 0, pat := { o.pat with runH := o.pat.runH + 1 } }
    else { o with runT := o.runT + 1 }
  let o := if c.gdr.st != .switching then o
    else if o.stageT + 1 = 3600000 then { o with stageT := 0, pat := { o.pat with stageH := o.pat.stageH + 1 } }
    else { o with stageT := o.stageT + 1 }
  { c with own := o }

/-- The lists of what the ports and the link sent begin anew. -/
def clearSent (c : Core) : Core :=
  { c with
    pd := vmap (fun _ g => { g with sent := [] }) c.pd
    twn := { c.twn with sent := [] } }

/-- The frames of a merge tick (R453, Table 17-4): HEARTBEAT; from a Lead with a Follow POLICY, and ORDERS after
a change. -/
def twinFrames (c : Core) : Core :=
  let c := sendHeartbeat c
  if c.twn.role == .lead && paired c then
    let c := sendPolicy c
    if c.twn.ordSent == some c.ord.gen && (c.twn.txSeq.any fun x => x.1 == 8) then c
    else
      let c := sendOrders c
      { c with twn := { c.twn with ordSent := some c.ord.gen } }
  else c

/-- The steps of a merge tick in Run, in order: the merge first, then what uses its values (R41, R443). -/
def runSteps (pc : BitVec 32) (lswBad : BitVec 8) (before : Core) : List (Core → Core) :=
  [noProbeStep, handoverKey, orderMerge, exportOrderStep, twinApply, rampWeight, applyBands, selectInput, floorStep,
    limitStep, floorSuspStep, chargeTargets]
  ++ [lswGateStep lswBad, lswFlagStep, lswStep, pdTick, kilnCount, shedTick before, handoverFuse, eventStep, nvmKick, hourTick, twinFrames, shadow pc]

/-- Steps applied while the controller stays in the lifecycle state `st`: a reset taken by one of them ends the
tick. -/
def inState (st : Life) (fs : List (Core → Core)) (c : Core) : Core :=
  fs.foldl (fun c f => if c.life.st == st then f c else c) c

/-- The grid count of a tick (R41, R43). -/
def gridTick (c : Core) : Core :=
  let l := leaveLate c.life
  let t := l.tick + 1
  { c with life := { l with tick := t, due := dueAt t.toNat } }

/-- Merge tick in Run. -/
def tickRun (pc : BitVec 32) (lswBad : BitVec 8) (s : State) : State :=
  let s := endTick s
  let before := s.core
  let s := { s with core := freeLatches (clearSent (gridTick (usTick s.core))) }
  let s := takeWrite s
  let c := inState .run (runSteps pc lswBad before) s.core
  let s := { s with core := c }
  if inRun c && !(dueAt c.life.tick.toNat).isEmpty then s else if inRun c then publish s else s

/-- Dormant entry is complete once the notice has gone out in the next Plinth cycle and the NVM has programmed what the
entry queued: the PLLs stop (R113, R271). -/
def entryStep (c : Core) : Core :=
  let busy := c.nvm.op.isSome || !c.nvm.queue.isEmpty
  let cycle := (((c.life.dormTick.map BitVec.toNat).getD 0) / 100 + 1) * 100
  { c with life := { c.life with entering := c.life.entering && (busy || decide (c.life.tick.toNat ≤ cycle)) } }

/-- Merge tick in Dormant (R114, R127): the other grid events are not run. -/
def tickDormant (pc : BitVec 32) (s : State) : State :=
  let c := { s.core with life := { s.core.life with us := s.core.life.us + 10, tick := s.core.life.tick + 1 } }
  let s := takeWrite { s with core := freeLatches (clearSent c) }
  let c := inState .dormant [noProbeStep, orderMerge, kilnCount, hourTick, entryStep, shadow pc] s.core
  if c.life.st == .dormant then publish { s with core := c } else { s with core := c }

/-- The soft start of Safe Hold: 3.6 V/ms up to 36 V (Table 04-4). -/
def safeSoft (c : Core) : Core :=
  if c.path.shConv then { c with path := { c.path with shSoft := min 36000 (c.path.shSoft + 36) } } else c

/-- Merge tick in Safe Hold (R110, R508): there is no grid count before Run. -/
def tickSafeHold (pc : BitVec 32) (s : State) : State :=
  let s := takeWrite { s with core := freeLatches (usTick s.core) }
  let c := inState .safeHold [noProbeStep, orderMerge, kilnCount, safeSoft, nvmKick, shadow pc] s.core
  if inSafeHold c then publish { s with core := c } else { s with core := c }

/-- MERGE_TICK: `pc` is the program counter of the shadow (R127), `twShed` the SHED lines that read asserted by the twin
(R59), `lswBad` the load switch channels whose gate reads other than commanded (Table 15-2 row 7). -/
def execMergeTick (pc : BitVec 32) (twShed : BitVec 4) (lswBad : BitVec 8) (s : State) : Res :=
  let s := { s with core := { s.core with pins := { s.core.pins with twShed := twShed } } }
  let t := match s.core.life.st with
    | .run => tickRun pc lswBad s
    | .dormant => tickDormant pc s
    | .safeHold => tickSafeHold pc s
    | _ => s
  .next { t with core := afterReset s.core t.core }

end Sys2Proof.Machine
end

