-- ==== Sys2Proof/Machine/Lifecycle.lean ====
section
/-! DEFINITION. Start, Boot, Run and Safe Hold entry, Reset and Off, Dormant, the watchdog, and the clock
monitors (chapters 01 and 04). -/

namespace Sys2Proof.Machine

/-! ### Start, Boot and Reset -/

/-- A start source stands (R97, Table 04-1). -/
def startSource (c : Core) (vmain vpack vsys : Nat) : Bool :=
  decide (16000 ≤ vmain) || decide (18000 ≤ vpack) || (c.pins.twPres && decide (18000 ≤ vsys))

/-- The supply that the VAUX selector takes (R564). -/
def vauxSelect (vmain vpack vsys : Nat) : VauxSrc :=
  let top := max vmain (max vpack vsys)
  if top ≤ vsys + 500 then .vsys else if top ≤ vpack + 500 then .vpack else .vmain

/-- Boot begins (Table 04-2 step 2): TMODE is sampled (R62), the µs timebase restarts (R127), and under WDT_HW the
watchdog starts with its Boot timeout (R124). -/
def bootStart (c : Core) (tmodeHigh : Bool) : Core :=
  { c with
    life := { c.life with
      st := .boot, us := 0, tick := 0, holdDone := false, tmode := tmodeHigh, tmodeHold := tmodeHigh && !c.otp.testLock }
    wdg := { c.wdg with run := c.otp.wdtHw, bootTmo := c.otp.wdtHw }
    pins := { c.pins with attn := false, faultN := true }
    outs := {} }

/-- The port as a reset leaves it, and the image Boot shows in identity transactions (R498, R505, R506). -/
def newPort (s : State) (c : Core) : State := { s with core := c, img := c, win := {} }

/-- RST_N held asserted takes the controller into Reset (R61). -/
def pinReset (c : Core) : Core := if c.pins.rstN then resetEntry c .pin 1 0 else c

/-- START_SOURCE_QUALIFIES (R97, R107): the KLN-retained state starts empty with the power-on bit alone. -/
def execStartSourceQualifies (vmain vpack vsys : Nat) (tmodeHigh : Bool) (s : State) : Res :=
  let c := s.core
  if c.life.st == .off && startSource c vmain vpack vsys then
    let c := { c with
      life := { rstCause := 1, rstLatest := 1, powerOn := true }
      pins := { c.pins with vaux := vauxSelect vmain vpack vsys } }
    .next (newPort s (pinReset (bootStart c tmodeHigh)))
  else .next s

/-- What is left without VAUX (R30, R105): OTP and NVM, with what they were writing cut short, and the levels that
stand on the pins from outside. -/
def offCore (c : Core) : Core :=
  let k := cleared c
  { k with
    flt := {}, thm := {}, wdg := {}, life := {}
    pins := { twPres := c.pins.twPres, twTrip := c.pins.twTrip, rstN := c.pins.rstN } }

/-- VAUX_LOSS (R30, R563). -/
def execVauxLoss (s : State) : Res :=
  if s.core.life.st == .off then .next s else .next (newPort s (offCore s.core))

/-- RST_N_ASSERTED (R61, R98). -/
def execRstNAsserted (s : State) : Res :=
  onCore s fun c => pinReset { c with pins := { c.pins with rstN := true } }

/-- Boot follows Reset where the hold is over and no cause remains (R106); TMODE is sampled at that release (R62). -/
def leaveReset (s : State) (c : Core) (tmodeHigh : Bool) : State :=
  if c.life.st == .reset && c.life.holdDone && !c.pins.rstN && c.life.mosc then newPort s (bootStart c tmodeHigh)
  else { s with core := c }

/-- RESET_RELEASE (R106): the hold of 34 KLN periods is over. -/
def execResetRelease (tmodeHigh : Bool) (s : State) : Res :=
  if s.core.life.st == .reset then
    .next (leaveReset s { s.core with life := { s.core.life with holdDone := true }, outs := {} } tmodeHigh)
  else .next s

/-- RST_N_RELEASED (R61): beyond the reset hold Boot starts again. -/
def execRstNReleased (tmodeHigh : Bool) (s : State) : Res :=
  .next (leaveReset s { s.core with pins := { s.core.pins with rstN := false } } tmodeHigh)

/-- MOSC_LOSS (R36, R130). -/
def execMoscLoss (s : State) : Res :=
  onCoreIf s (fun c => c.life.st != .off) fun c => resetEntry { c with life := { c.life with mosc := false } } .clock 5 0

/-- MOSC_RESTORED (R36, R130). -/
def execMoscRestored (tmodeHigh : Bool) (s : State) : Res :=
  .next (leaveReset s { s.core with life := { s.core.life with mosc := true } } tmodeHigh)

/-- VAUX_SOURCE_CHANGE (R564). -/
def execVauxSourceChange (vmain vpack vsys : Nat) (s : State) : Res :=
  onCoreIf s (fun c => c.life.st != .off) fun c =>
    { c with pins := { c.pins with vaux := vauxSelect vmain vpack vsys } }

/-! ### Run entry (R99, R103) -/

/-- Faults whose Probe is a start-up Probe of Boot step 9 (Table 11-5). -/
def bootProbed : List (BitVec 16) := [0x1602, 0x1803, 0x1801, 0x1804, 0x0805]

/-- A lasting class D error at Run entry (Table 11-4): the mirrored vault bank is isolated; the stage stays Stopped for a block
without a mirror or spare. -/
def bootLasting (c : Core) (code : BitVec 16) (inst : BitVec 8) : Core :=
  if code == 0x1804 && inst == 1 then { c with flt := { c.flt with vaultIso := true } }
  else { c with gdr := { c.gdr with barred := true } }

/-- A fault that was a reset latched at Run entry (R56, R284): its reaction has ended, and the start-up Probes have
classified it; rows of Table 04-8 that name no Probe show "not run", any other starts its own. -/
def latchAtRun (b : BootRead) (c : Core) (x : BitVec 16 × BitVec 8) : Core :=
  let code := x.1
  let inst := x.2
  let c := latchPut c code inst (classInForce c code ((rowClass code).getD .d)) .pending
  let set := fun (c : Core) (p : ProbeSt) (act : Bool) =>
    updLatch c code inst fun x => { x with probe := p, active := act }
  let c := if bootProbed.contains code then
      let r := if b.probesOk then addTransient c code inst b.klnSec else (c, true)
      if r.2 then set (bootLasting r.1 code inst) .lasting true
      else set r.1 .transient false
    else if code.toNat / 256 == 0x16 then set c .notRun false
    else queueProbe c code inst
  latchRecord c code inst

/-- Codes and instances of the causes that the latest Reset entry set (R107, R284); that of a class D fault is the
capture's, where this Reset took it. -/
def entryCodes (c : Core) : List (BitVec 16 × BitVec 8) :=
  let l := c.life.rstLatest
  (if l.getLsbD 3 then [(0x1601, 0)] else [])
    ++ (if l.getLsbD 4 && c.life.rstTook && c.wdg.cap.code != 0 then [(c.wdg.cap.code, c.life.rstInst)] else [])
    ++ (if l.getLsbD 5 then [(0x1602, 0)] else []) ++ (if l.getLsbD 6 then [(0x1803, 0)] else [])
    ++ (if l.getLsbD 7 then [(0x1604, 0)] else []) ++ (if l.getLsbD 8 then [(0x1603, 0)] else [])

/-- Role at Run entry (R448, R449). -/
def entryRole (c : Core) : Role :=
  if !twinExpected c || !c.pins.twPres then .lead else if c.pins.twTrip then .fenced else .pending

/-- The blocks take the configuration (Table 04-2 step 9). -/
def configure (c : Core) (b : BootRead) (m : Maquette) (fromB : Bool) (ra rb : Nat) : Core :=
  let c := { c with
    mq := some m, otp := otpRead c b
    mqs := { resA := ra, resB := rb, fromB := fromB, jedec := b.jedec
             digest := imageDigest (copyBytes c fromB) }
    life := { c.life with
      st := .run, mode := .none, us := BitVec.ofNat 32 b.us, tick := 0, due := [], modeNow := true, modePend := none
      powerOn := false, loss := false, late := [], pwmLock := true, sysLock := true, imgNo := 0 }
    own := { c.own with keyFault := !b.keyTestOk, scan := true }
    ord := { c.ord with attnNew := 0 } }
  let c := { c with
    twn := { c.twn with role := entryRole c }
    path := { c.path with floorSet := m.path.floor }
    gdr := { c.gdr with
      dtIn := deadTime c false, dtOut := deadTime c true, step := m.stag.period / max 1 (nPresent c) }
    lsw := { c.lsw with ch := vmap (fun n x => { x with flag3 := (vget m.lsw n {}).onAtRun }) c.lsw.ch }
    meas := { c.meas with vsys := b.vsys }
    ldg := { c.ldg with
      vPrev := some b.vsys, basePend := true
      lossOpen := c.life.loss }
    flt := { c.flt with rotStart := BitVec.ofNat 32 b.us } }
  let c := formMerged c
  { c with ord := { c.ord with gen := 0 } }

/-- A task checked in. -/
def checkIn (w : WdgG) (i : Nat) (us : Nat) : WdgG :=
  { w with missing := putBit w.missing i false, last := vupd w.last i fun _ => BitVec.ofNat 32 us }

/-- Step 3 of R103 (R123, R124): with WDT_HW, or by the firmware's key where WDOG flag [0] is set, period 0
begins; whose task's key that is, the spec does not say (log entry 6). -/
def watchdogAtRun (c : Core) : Core :=
  if c.otp.wdtHw then
    { c with wdg := { c.wdg with
        run := true, bootTmo := false, tWds := false, period := c.maq.wdog.period, num := 0, missing := 0x3F } }
  else if c.maq.wdog.start then
    let w := { c.wdg with
      run := true, bootTmo := false, period := c.maq.wdog.period, num := 0, missing := 0x3F }
    { c with free := c.free + 1, wdg := checkIn w (Config.startTask c.free).val c.life.us.toNat }
  else { c with wdg := { c.wdg with run := false, bootTmo := false } }

/-- Step 4 of R103 (R84, R85): the burns that the image asks for begin; never the slot that signed it. -/
def burnsAtRun (c : Core) : Core :=
  let h := c.maq.head
  let own := BitVec.ofNat 4 (2 ^ c.maq.sign.slot)
  { c with otp := { c.otp with
      burnRevoke := h.revokeMask &&& ~~~c.otp.revoked &&& ~~~own
      burnTo := if h.rollbackCommit && decide (c.otp.rollback < h.secVersion) then some h.secVersion else none } }

/-- Step 6 of R103 and the records of a Boot (R90, R128, Table 20-4). -/
def recordsAtRun (c : Core) : Core :=
  let c := queueFree c .boot (.boot c.mqs.resA c.mqs.resB c.maq.head.checked c.maq.head.secVersion)
  let c := if c.maq.head.checked then c else recordCondition c
  if c.wdg.cap.valid then queueFree c .postMortem (.capture c.wdg.cap) else c

/-- What starts with Run (R99, R149, R172, R230): BATFET, stage, port detection, charge cycle; a controller that finds
TW_TRIP_N asserted is Fenced, and a standing Kiln Guard trip holds every gate (R439). -/
def startBlocks (c : Core) : Core :=
  let c := if c.thm.tripped then lswKiln (pathGatesOff c .off) else c
  let c := stageStart (batfetFull c) true
  let c := pdTerm (pdTerm c .a) .b
  let c := cycleStart c
  if c.twn.role == .fenced then becomeFenced c else c

/-- Run entry (R103): a reset that one of its steps takes ends it. -/
def runEntry (c : Core) (b : BootRead) (m : Maquette) (fromB : Bool) (ra rb : Nat) : Core :=
  inState .run
    [ fun c => (entryCodes c).foldl (latchAtRun b) c, fun c => if b.keyTestOk then c else fault c 0x1A02 0, startBlocks
    , fun c => modeStep c b.iPack, watchdogAtRun, burnsAtRun, recordsAtRun
    , fun c => if c.life.rstCause != 0 then attend c 0 else c ]
    (configure c b m fromB ra rb)

/-- RUN_ENTRY: Boot ends with a copy that passes every check (R86, R103). -/
def execRunEntry (b : BootRead) (s : State) : Res :=
  let c := s.core
  if c.life.st == .boot && !c.life.tmodeHold then
    match bootSelect c b with
    | (ra, rb, some (m, fromB)) => .next (publish { s with core := afterReset c (runEntry c b m fromB ra rb) })
    | _ => .next s
  else .next s

/-! ### Safe Hold entry (R86, R100, R124, Table 04-4) -/

/-- Safe Hold as it is entered: fixed settings, GBT fully on, the SHED lines under R59, t_WDS under WDT_HW. -/
def safeHoldEntry (c : Core) (b : BootRead) (ra rb : Nat) : Core :=
  let c := { c with
    otp := otpRead c b
    mqs := { resA := ra, resB := rb, bothFail := true, jedec := b.jedec }
    life := { c.life with
      st := .safeHold, us := BitVec.ofNat 32 b.us, pwmLock := true, sysLock := true, imgNo := 0 }
    path := { c.path with batfet := .full, floorSet := 36000 }
    gdr := { c.gdr with dtIn := 512, dtOut := 512 }
    meas := { c.meas with vsys := b.vsys }
    ord := { c.ord with attnNew := 0 } }
  let c := if c.pins.twPres then c
    else { c with plb := { c.plb with p := vmap (fun _ g => { g with bySafe := true, shed := true }) c.plb.p } }
  let c := if c.pins.twTrip || c.thm.tripped then pathGatesOff c .off else c
  if c.otp.wdtHw then
    { c with wdg := { c.wdg with run := true, bootTmo := false, tWds := true, period := 100, num := 0, missing := 0x3F } }
  else c

/-- SAFE_HOLD_ENTRY: both copies fail. -/
def execSafeHoldEntry (b : BootRead) (s : State) : Res :=
  let c := s.core
  if c.life.st == .boot && !c.life.tmodeHold then
    match bootSelect c b with
    | (ra, rb, none) => .next (publish { s with core := safeHoldEntry c b ra rb })
    | _ => .next s
  else .next s

/-! ### Clock and lockstep monitors (R37, R38, R291) -/

/-- A state in which the monitors of Run act. -/
def monitored (c : Core) : Bool := inRun c || inSafeHold c || c.life.st == .dormant

/-- KLN_LOSS (R37): class A wherever CORE is clocked, and the converter stays stopped until the next start. -/
def execKlnLoss (s : State) : Res :=
  onCoreIf s (fun c => (monitored c || c.life.st == .boot) && !c.life.klnLost) fun c =>
    fault { c with life := { c.life with klnLost := true } } 0x1802 0

/-- PWM_PLL_LOSS_OF_LOCK (R38, Table 08-6 row 8): Chisel Off of every phase with its own cause. -/
def execPwmPllLossOfLock (s : State) : Res :=
  onCoreIf s stageLive fun c =>
    faultWith { c with life := { c.life with pwmLock := false } } 0x0A08 0 .a .pending true 6 0

/-- SYSTEM_PLL_LOSS_OF_LOCK (R38): a reset of kind Clock. -/
def execSystemPllLossOfLock (s : State) : Res :=
  onCoreIf s (fun c => stageLive c || (c.life.st == .boot && !c.life.tmodeHold)) fun c => resetEntry c .clock 6 0

/-- LOCKSTEP_MISMATCH (R291, Table 11-4): class D. -/
def execLockstepMismatch (s : State) : Res :=
  onCoreIf s monitored fun c => resetEntry c .fault 4 0x1801

/-! ### The watchdog (R119–R129) -/

/-- Task constants, by mask bit (Table 04-6). -/
def taskKeys : List Nat := [0xA1, 0xB2, 0xC3, 0xD4, 0xE5, 0xF6]

/-- The task whose constant a key carries. -/
def taskOf (key : BitVec 16) : Option Nat :=
  let i := taskKeys.findIdx (· == key.toNat / 256)
  if i < taskKeys.length then some i else none

/-- The watchdog expires (R126): a reset of kind Watchdog with its cause bit. -/
def watchdogExpire (c : Core) (bit : Nat) : Core := resetEntry c .watchdog bit 0

/-- The timebase as an event on it reads it (R127). -/
def atUs (c : Core) (us : Nat) : Core := { c with life := { c.life with us := BitVec.ofNat 32 us } }

/-- A key written while the watchdog runs (R121). -/
def keyRunning (c : Core) (key : BitVec 16) (us : Nat) : Core :=
  let lo := key.toNat % 256
  match taskOf key with
  | some i =>
    if lo = c.wdg.num.toNat % 256 then
      if c.wdg.missing.getLsbD i then { c with wdg := checkIn c.wdg i us } else c
    else if c.wdg.num != 0 && decide (lo = (c.wdg.num - 1).toNat % 256) then c
    else watchdogExpire c 3
  | none => watchdogExpire c 3

/-- A key written while it is off (R123): the first valid key of Run starts it where WDOG flag [0] is set. -/
def keyStarting (c : Core) (key : BitVec 16) (us : Nat) : Core :=
  match taskOf key with
  | some i =>
    if key.toNat % 256 = 0 && inRun c && c.maq.wdog.start then
      let w := { c.wdg with run := true, period := c.maq.wdog.period, num := 0, missing := 0x3F }
      { c with wdg := checkIn w i us }
    else c
  | none => c

/-- WATCHDOG_KEY_WRITE (R121–R123). -/
def execWatchdogKeyWrite (key : BitVec 16) (us : Nat) (s : State) : Res :=
  onCoreIf s monitored fun c =>
    let c := atUs c us
    if c.wdg.run then keyRunning c key us else keyStarting c key us

/-- WATCHDOG_PERIOD_BOUNDARY (R120). -/
def execWatchdogPeriodBoundary (us : Nat) (s : State) : Res :=
  onCoreIf s (fun c => c.wdg.run && !c.wdg.bootTmo) fun c =>
    let c := atUs c us
    if c.wdg.missing != 0 then watchdogExpire c 3
    else { c with wdg := { c.wdg with num := c.wdg.num + 1, missing := 0x3F } }

/-- WATCHDOG_BOOT_TIMEOUT (R124, R125). -/
def execWatchdogBootTimeout (s : State) : Res :=
  onCoreIf s (fun c => c.life.st == .boot && c.wdg.bootTmo) fun c => watchdogExpire c 8

/-! ### Dormant (R112–R118, R132, R133) -/

/-- The conditions of R112 other than the idle time; and no handover is in progress (R531). -/
def dormantMay (c : Core) : Bool :=
  inRun c && merged c 21 == 0 && (!c.wdg.run || decide (5 ≤ c.wdg.period))
    && (c.path.inputs.toList.all fun i => !i.qual) && c.path.export_.isNone && c.path.exportWait.isNone
    && decide (c.meas.iss.natAbs ≤ c.maq.path.iDorm * 10)
    && (c.vlt.recs.all fun r => r.2.burst.isNone) && (c.lsw.ch.toList.all fun x => !x.on)
    && (c.pd.toList.all fun g => g.contract.isNone) && !c.pins.twPres
    && !c.mqs.open_ && stagingReady c && c.otp.burnTo.isNone && c.otp.burnRevoke == 0 && c.own.step == 0
    && c.life.scanOwed == 0

/-- A sink port presents Rd in Dormant (R114); one that is Damp, isolated or out of service keeps its CC open (R53, R397). -/
def dormantPd (m : MqPd) (g : PdG) : PdG :=
  let out := g.att == .outOfService || g.att == .isolated || g.att == .damp
  { g.clear with
    cc := if m.present && m.sink && !out then .rd else .open_, att := if out then g.att else .unattached
    toggling := false, ready := false }

/-- The Dormant notice (R113, R332): flag [1] in the BEACON that slot 0 of the next cycle carries on each present port,
driven while the entry is not complete. -/
def dormantNotice (c : Core) : Core :=
  { c with plb := { c.plb with dormNotice := true, cycle := BitVec.ofNat 32 (c.life.tick.toNat / 100 + 1) } }

/-- Dormant entered (R113, R114): checkpoint and notice, both PLLs stopped, stage Stopped, GBT fully on, the SHED
lines deasserted.  A reset that its ledger close takes ends the entry. -/
def dormantEnter (c : Core) : Core :=
  if !inRun (closeLedger c) then closeLedger c else
  let c := dormantNotice (nvmKick (queueCheckpoint (noteClose (closeLedger c)) false c.own.afterClosing))
  let m := c.maq
  let c := batfetFull (allPairsOff c)
  { c with
    life := { c.life with
      st := .dormant, mode := .none, modePend := none, due := [], late := [], entering := true, waking := false
      wakeWd := false, dormReq := false
      dormTick := some c.life.tick, pwmLock := false, sysLock := false }
    ldg := { c.ldg with dormOpen := true, dormAt := c.life.tick, dormStack := c.cel.stack }
    gdr := { c.gdr with
      st := .stopped, starting := false, parkAsk := false, sw := vmap (fun _ s => s.park) c.gdr.sw
      ph := vmap (fun _ p => { p with st := .off }) c.gdr.ph }
    loop := { c.loop with runs := [] }
    path := { c.path with xfer := none }
    pd := vmap (fun i g => dormantPd (vget m.pd i {}) g) c.pd
    plb := { c.plb with p := vmap (fun _ g => { g with shed := false, shedMin := false }) c.plb.p }
    cel := { c.cel with started := false, balancing := false, balSw := 0, diag := 0, tests := [], testNow := none } }

/-- DORMANT_ENTRY (R112, R113): a request order waives the idle time alone. -/
def execDormantEntry (s : State) : Res :=
  onCoreIf s (fun c => dormantMay c && (c.maq.path.tIdle != 0 || c.life.dormReq)) dormantEnter

/-- DORMANT_REENTRY (R117): after a wake by the watchdog alone, once the six tasks have checked in. -/
def execDormantReentry (s : State) : Res :=
  onCoreIf s (fun c => dormantMay c && c.life.wakeWd && c.wdg.missing == 0) dormantEnter

/-- DORMANT_WAKE (R115, Table 04-5). -/
def execDormantWake (src : WakeSource) (s : State) : Res := onCore s fun c => wakeBegin c (src == .watchdog)

/-- WATCHDOG_WAKE (R125). -/
def execWatchdogWake (s : State) : Res := onCoreIf s (fun c => c.wdg.run) fun c => wakeBegin c true

/-- DORMANT_BACKSTOP (R118). -/
def execDormantBackstop (s : State) : Res :=
  onCoreIf s (fun c => c.life.st == .dormant) fun c =>
    wakeBegin { c with life := { c.life with bksWake := true, scanOwed := 3 } } false

/-- BACKSTOP_WAKE_TIMEOUT (R118). -/
def execBackstopWakeTimeout (s : State) : Res :=
  onCoreIf s (fun c => c.life.st == .dormant && c.life.bksWake) fun c => resetEntry c .clock 7 0

/-- Run entered again (R115, R118, R263): the residual windows restart, the next decision sets the mode without dwell, and
a cell scan t_BKS or more ago owes a scan and a thermal sample.  A PWM PLL that did not lock stays unlocked (R133). -/
def wakeEnter (c : Core) (iPack : Int) (vsys : Nat) : Core :=
  let owed := decide (c.maq.wdog.backstop * 100000 ≤ (c.life.tick - c.cel.scanTick).toNat)
  let c := { c with
    life := { c.life with
      st := .run, waking := false, entering := false, bksWake := false, pwmLock := !faultActive c 0x0A08 0
      sysLock := true, modeNow := true
      scanOwed := if owed then 3 else c.life.scanOwed }
    ldg := { c.ldg with vPrev := some vsys, wins := [], restarted := true }
    meas := { c.meas with vsys := vsys }
    thm := { c.thm with s := vmap (fun _ (x : SensorG) => { x with hist := [], rate := none, ovr := 0 }) c.thm.s }
    plb := { c.plb with dormNotice := false } }
  let c := modeStep (pdTerm (pdTerm c .a) .b) iPack
  { c with life := { c.life with modeNow := true } }

/-- WAKE_PLL_LOCK (R33, R115). -/
def execWakePllLock (iPack : Int) (vsys : Nat) (s : State) : Res :=
  if s.core.life.st == .dormant && s.core.life.waking then
    .next (publish { s with core := wakeEnter s.core iPack vsys })
  else .next s

/-- PLL_LOCK_TIMEOUT (R133): R38 applies, so a system PLL that has not locked is a reset, and a PWM PLL that alone has not
locked is latched with its class A reaction, and Run follows without it. -/
def execPllLockTimeout (sysLocked : Bool) (s : State) : Res :=
  onCoreIf s (fun c => c.life.st == .dormant && c.life.waking) fun c =>
    if sysLocked then
      faultWith { c with life := { c.life with sysLock := true } } 0x0A08 0 .a .pending true 6 0
    else resetEntry c .clock 6 0

end Sys2Proof.Machine
end

