-- ==== Sys2Proof/Machine/Dispatch.lean ====
section
/-! DEFINITION. The meaning of every command: one arm per constructor, one direct call each. -/

namespace Sys2Proof.Machine

def exec (i : Instr) (s : State) : Host.Outcome State Fault Refusal :=
  match i with
  | .startSourceQualifies vmain vpack vsys tmodeHigh => Sys2Proof.Machine.execStartSourceQualifies vmain vpack vsys tmodeHigh s
  | .vauxLoss => Sys2Proof.Machine.execVauxLoss s
  | .runEntry b => Sys2Proof.Machine.execRunEntry b s
  | .safeHoldEntry b => Sys2Proof.Machine.execSafeHoldEntry b s
  | .rstNAsserted => Sys2Proof.Machine.execRstNAsserted s
  | .resetRelease tmodeHigh => Sys2Proof.Machine.execResetRelease tmodeHigh s
  | .moscLoss => Sys2Proof.Machine.execMoscLoss s
  | .klnLoss => Sys2Proof.Machine.execKlnLoss s
  | .pwmPllLossOfLock => Sys2Proof.Machine.execPwmPllLossOfLock s
  | .systemPllLossOfLock => Sys2Proof.Machine.execSystemPllLossOfLock s
  | .lockstepMismatch => Sys2Proof.Machine.execLockstepMismatch s
  | .watchdogKeyWrite key us => Sys2Proof.Machine.execWatchdogKeyWrite key us s
  | .watchdogPeriodBoundary us => Sys2Proof.Machine.execWatchdogPeriodBoundary us s
  | .watchdogBootTimeout => Sys2Proof.Machine.execWatchdogBootTimeout s
  | .watchdogWake => Sys2Proof.Machine.execWatchdogWake s
  | .dormantEntry => Sys2Proof.Machine.execDormantEntry s
  | .dormantWake src => Sys2Proof.Machine.execDormantWake src s
  | .dormantBackstop => Sys2Proof.Machine.execDormantBackstop s
  | .backstopWakeTimeout => Sys2Proof.Machine.execBackstopWakeTimeout s
  | .wakePllLock iPack vsys => Sys2Proof.Machine.execWakePllLock iPack vsys s
  | .pllLockTimeout sysLocked => Sys2Proof.Machine.execPllLockTimeout sysLocked s
  | .dormantReentry => Sys2Proof.Machine.execDormantReentry s
  | .otpBurnComplete readBackOk => Sys2Proof.Machine.execOtpBurnComplete readBackOk s
  | .mergeTick pc twShed lswBad => Sys2Proof.Machine.execMergeTick pc twShed lswBad s
  | .modeDecision iPackAvg => Sys2Proof.Machine.execModeDecision iPackAvg s
  | .ledgerClose memoryOk => Sys2Proof.Machine.execLedgerClose memoryOk s
  | .vaultAudit badCopies copyLost => Sys2Proof.Machine.execVaultAudit badCopies copyLost s
  | .plinthCycleStart => Sys2Proof.Machine.execPlinthCycleStart s
  | .pollSlotStart p slot bad repBad => Sys2Proof.Machine.execPollSlotStart p slot bad repBad s
  | .burstReq p f => Sys2Proof.Machine.execBurstReq p f s
  | .release p f => Sys2Proof.Machine.execRelease p f s
  | .request p f => Sys2Proof.Machine.execRequest p f s
  | .returnReq p f => Sys2Proof.Machine.execReturnReq p f s
  | .order p f => Sys2Proof.Machine.execOrder p f s
  | .enrol p f => Sys2Proof.Machine.execEnrol p f s
  | .status p f => Sys2Proof.Machine.execStatus p f s
  | .responseMiss p addr corrupted => Sys2Proof.Machine.execResponseMiss p addr corrupted s
  | .collisionReinvite p addr => Sys2Proof.Machine.execCollisionReinvite p addr s
  | .restrictedRecallRepeat p => Sys2Proof.Machine.execRestrictedRecallRepeat p s
  | .shedMinimumExpiry p => Sys2Proof.Machine.execShedMinimumExpiry p s
  | .shedLineReadbackMismatch p => Sys2Proof.Machine.execShedLineReadbackMismatch p s
  | .shedLineUncommanded p => Sys2Proof.Machine.execShedLineUncommanded p s
  | .leaseEnd acct col => Sys2Proof.Machine.execLeaseEnd acct col s
  | .loweringTimeout acct col => Sys2Proof.Machine.execLoweringTimeout acct col s
  | .grantUndeliveredTimeout acct col => Sys2Proof.Machine.execGrantUndeliveredTimeout acct col s
  | .requestWaitLimit acct col => Sys2Proof.Machine.execRequestWaitLimit acct col s
  | .deficitCarryExpiry col => Sys2Proof.Machine.execDeficitCarryExpiry col s
  | .dischargeOverrun => Sys2Proof.Machine.execDischargeOverrun s
  | .burstWindowEnd acct => Sys2Proof.Machine.execBurstWindowEnd acct s
  | .burstPauseEnd acct => Sys2Proof.Machine.execBurstPauseEnd acct s
  | .throttleGraceEnd => Sys2Proof.Machine.execThrottleGraceEnd s
  | .enforcementOverdraw issPair => Sys2Proof.Machine.execEnforcementOverdraw issPair s
  | .enforcementRelease => Sys2Proof.Machine.execEnforcementRelease s
  | .inputPriorityOrder m v => Sys2Proof.Machine.execInputPriorityOrder m v s
  | .sysFloorOrder m v => Sys2Proof.Machine.execSysFloorOrder m v s
  | .mainInputCurrentLimitOrder m v => Sys2Proof.Machine.execMainInputCurrentLimitOrder m v s
  | .chargeCurrentCeilingOrder m v => Sys2Proof.Machine.execChargeCurrentCeilingOrder m v s
  | .chargeVoltageCeilingOrder m v => Sys2Proof.Machine.execChargeVoltageCeilingOrder m v s
  | .chargeInhibitOrder m v => Sys2Proof.Machine.execChargeInhibitOrder m v s
  | .loadSwitchOrder m ch v => Sys2Proof.Machine.execLoadSwitchOrder m ch v s
  | .pdSourceEnableOrder m port v => Sys2Proof.Machine.execPdSourceEnableOrder m port v s
  | .tokenPoolCapOrder m v => Sys2Proof.Machine.execTokenPoolCapOrder m v s
  | .shedOrder m p v => Sys2Proof.Machine.execShedOrder m p v s
  | .dormantInhibitOrder m v => Sys2Proof.Machine.execDormantInhibitOrder m v s
  | .mainExportOrder v => Sys2Proof.Machine.execMainExportOrder v s
  | .resetOrder v => Sys2Proof.Machine.execResetOrder v s
  | .resetOrderExecute => Sys2Proof.Machine.execResetOrderExecute s
  | .restartOrder m v => Sys2Proof.Machine.execRestartOrder m v s
  | .dormantRequestOrder v => Sys2Proof.Machine.execDormantRequestOrder v s
  | .roleHandoverOrder v => Sys2Proof.Machine.execRoleHandoverOrder v s
  | .plannedDetachOrder v => Sys2Proof.Machine.execPlannedDetachOrder v s
  | .reattachOrder v => Sys2Proof.Machine.execReattachOrder v s
  | .ownerHandoverOrder v => Sys2Proof.Machine.execOwnerHandoverOrder v s
  | .clearSupervisorOrders v => Sys2Proof.Machine.execClearSupervisorOrders v s
  | .provisioningOrder cmd hashes => Sys2Proof.Machine.execProvisioningOrder cmd hashes s
  | .snapshotRead f => Sys2Proof.Machine.execSnapshotRead f s
  | .identity f => Sys2Proof.Machine.execIdentity f s
  | .orderWrite f => Sys2Proof.Machine.execOrderWrite f s
  | .w1cAcknowledgeWrite f => Sys2Proof.Machine.execW1cAcknowledgeWrite f s
  | .newmapAcknowledge mask => Sys2Proof.Machine.execNewmapAcknowledge mask s
  | .stagingBegin len => Sys2Proof.Machine.execStagingBegin len s
  | .stagingData addr data => Sys2Proof.Machine.execStagingData addr data s
  | .stagingEnd => Sys2Proof.Machine.execStagingEnd s
  | .stagingAbort => Sys2Proof.Machine.execStagingAbort s
  | .nvmOperationComplete ok => Sys2Proof.Machine.execNvmOperationComplete ok s
  | .accsel v => Sys2Proof.Machine.execAccsel v s
  | .decryptCommand v => Sys2Proof.Machine.execDecryptCommand v s
  | .decryptComplete => Sys2Proof.Machine.execDecryptComplete s
  | .mainQualified => Sys2Proof.Machine.execMainQualified s
  | .mainDisqualified => Sys2Proof.Machine.execMainDisqualified s
  | .fastInputOvervoltageTrip => Sys2Proof.Machine.execFastInputOvervoltageTrip s
  | .pdInputQualified port => Sys2Proof.Machine.execPdInputQualified port s
  | .pdInputDisqualified port => Sys2Proof.Machine.execPdInputDisqualified port s
  | .requalificationDelayEnd i1 => Sys2Proof.Machine.execRequalificationDelayEnd i1 s
  | .pairConfirmedOff => Sys2Proof.Machine.execPairConfirmedOff s
  | .vcinDrainEnd => Sys2Proof.Machine.execVcinDrainEnd s
  | .pairConfirmedOn => Sys2Proof.Machine.execPairConfirmedOn s
  | .transferComplete => Sys2Proof.Machine.execTransferComplete s
  | .transferBoundExpiry => Sys2Proof.Machine.execTransferBoundExpiry s
  | .pairNotConfirmedOff => Sys2Proof.Machine.execPairNotConfirmedOff s
  | .reverseCurrentTrip => Sys2Proof.Machine.execReverseCurrentTrip s
  | .batfetLinearEntry => Sys2Proof.Machine.execBatfetLinearEntry s
  | .batfetFullyOn => Sys2Proof.Machine.execBatfetFullyOn s
  | .sysCollapse => Sys2Proof.Machine.execSysCollapse s
  | .collapseRecovery => Sys2Proof.Machine.execCollapseRecovery s
  | .batfetUndervoltageOpening => Sys2Proof.Machine.execBatfetUndervoltageOpening s
  | .batfetNotOff => Sys2Proof.Machine.execBatfetNotOff s
  | .batfetDropFault => Sys2Proof.Machine.execBatfetDropFault s
  | .linearDissipationFault => Sys2Proof.Machine.execLinearDissipationFault s
  | .vcpUndervoltage => Sys2Proof.Machine.execVcpUndervoltage s
  | .exportVcinReached => Sys2Proof.Machine.execExportVcinReached s
  | .exportPairConfirmedOn => Sys2Proof.Machine.execExportPairConfirmedOn s
  | .exportPairNotConfirmedOn => Sys2Proof.Machine.execExportPairNotConfirmedOn s
  | .exportFloorTimeout => Sys2Proof.Machine.execExportFloorTimeout s
  | .safeHoldMainQualified => Sys2Proof.Machine.execSafeHoldMainQualified s
  | .safeHoldMainLost => Sys2Proof.Machine.execSafeHoldMainLost s
  | .safeHoldBatfetTrip => Sys2Proof.Machine.execSafeHoldBatfetTrip s
  | .twPresNChange asserted => Sys2Proof.Machine.execTwPresNChange asserted s
  | .chargeEvaluation iPackAvg => Sys2Proof.Machine.execChargeEvaluation iPackAvg s
  | .chargeTimerExpiry => Sys2Proof.Machine.execChargeTimerExpiry s
  | .restPatternEdge => Sys2Proof.Machine.execRestPatternEdge s
  | .heaterTimeLimit => Sys2Proof.Machine.execHeaterTimeLimit s
  | .packCurrentAboveShare => Sys2Proof.Machine.execPackCurrentAboveShare s
  | .conversionWindowEnd cells stack switchDiffers => Sys2Proof.Machine.execConversionWindowEnd cells stack switchDiffers s
  | .diagnosticWindowEnd cells stack => Sys2Proof.Machine.execDiagnosticWindowEnd cells stack s
  | .ocvCorrection => Sys2Proof.Machine.execOcvCorrection s
  | .switchingPeriodStart ph smp => Sys2Proof.Machine.execSwitchingPeriodStart ph smp s
  | .bootstrapRefresh sw bootOkAfter => Sys2Proof.Machine.execBootstrapRefresh sw bootOkAfter s
  | .phaseOvercurrent ph sw uv => Sys2Proof.Machine.execPhaseOvercurrent ph sw uv s
  | .stageOvercurrent iscMa => Sys2Proof.Machine.execStageOvercurrent iscMa s
  | .chiselOffStep2 ph => Sys2Proof.Machine.execChiselOffStep2 ph s
  | .chiselOffComplete ph => Sys2Proof.Machine.execChiselOffComplete ph s
  | .readBackWindowEnd sw edgeOn gateMv => Sys2Proof.Machine.execReadBackWindowEnd sw edgeOn gateMv s
  | .prechargeEnd bootOk => Sys2Proof.Machine.execPrechargeEnd bootOk s
  | .calibrationRunEnd ph vdsUv iscMa => Sys2Proof.Machine.execCalibrationRunEnd ph vdsUv iscMa s
  | .ldi dest imm => Sys2Proof.Machine.execLdi dest imm s
  | .ldc dest idx => Sys2Proof.Machine.execLdc dest idx s
  | .mov dest a => Sys2Proof.Machine.execMov dest a s
  | .add dest a b => Sys2Proof.Machine.execAdd dest a b s
  | .sub dest a b => Sys2Proof.Machine.execSub dest a b s
  | .mul dest a b => Sys2Proof.Machine.execMul dest a b s
  | .min dest a b => Sys2Proof.Machine.execMin dest a b s
  | .max dest a b => Sys2Proof.Machine.execMax dest a b s
  | .asr dest a count => Sys2Proof.Machine.execAsr dest a count s
  | .blt a b skip => Sys2Proof.Machine.execBlt a b skip s
  | .out a => Sys2Proof.Machine.execOut a s
  | .illegalInstruction => Sys2Proof.Machine.execIllegalInstruction s
  | .loopOverrun d cycles => Sys2Proof.Machine.execLoopOverrun d cycles s
  | .ledgerSample smp => Sys2Proof.Machine.execLedgerSample smp s
  | .missingSample ch => Sys2Proof.Machine.execMissingSample ch s
  | .checkpointDue => Sys2Proof.Machine.execCheckpointDue s
  | .logScanEnd => Sys2Proof.Machine.execLogScanEnd s
  | .probeStart code inst => Sys2Proof.Machine.execProbeStart code inst s
  | .probeResult code inst pass klnSec => Sys2Proof.Machine.execProbeResult code inst pass klnSec s
  | .probeTimeout code inst => Sys2Proof.Machine.execProbeTimeout code inst s
  | .holdOffExpiry => Sys2Proof.Machine.execHoldOffExpiry s
  | .rotationItem item inst pass scrub => Sys2Proof.Machine.execRotationItem item inst pass scrub s
  | .rotationPeriodEnd => Sys2Proof.Machine.execRotationPeriodEnd s
  | .recordCoalesceExpiry code inst => Sys2Proof.Machine.execRecordCoalesceExpiry code inst s
  | .ccAttach port asSource cc2 vconnin => Sys2Proof.Machine.execCcAttach port asSource cc2 vconnin s
  | .ccDetach port => Sys2Proof.Machine.execCcDetach port s
  | .drpToggle port => Sys2Proof.Machine.execDrpToggle port s
  | .sourceCapabilities port pdos eprCapable eprList rev2 => Sys2Proof.Machine.execSourceCapabilities port pdos eprCapable eprList rev2 s
  | .eprKeepalive port answered => Sys2Proof.Machine.execEprKeepalive port answered s
  | .pdAccept port => Sys2Proof.Machine.execPdAccept port s
  | .psRdy port => Sys2Proof.Machine.execPsRdy port s
  | .pdRequest port pos maxI10 => Sys2Proof.Machine.execPdRequest port pos maxI10 s
  | .sourceTransitionDelayEnd port => Sys2Proof.Machine.execSourceTransitionDelayEnd port s
  | .vbusTransitionComplete port => Sys2Proof.Machine.execVbusTransitionComplete port s
  | .hardReset port => Sys2Proof.Machine.execHardReset port s
  | .vbusDischargeComplete port => Sys2Proof.Machine.execVbusDischargeComplete port s
  | .errorRecoveryEnd port => Sys2Proof.Machine.execErrorRecoveryEnd port s
  | .sourceRecoveryEnd port => Sys2Proof.Machine.execSourceRecoveryEnd port s
  | .sinktxngWaitEnd port => Sys2Proof.Machine.execSinktxngWaitEnd port s
  | .vconnSwap port vconnin => Sys2Proof.Machine.execVconnSwap port vconnin s
  | .prSwap port => Sys2Proof.Machine.execPrSwap port s
  | .drSwap port => Sys2Proof.Machine.execDrSwap port s
  | .frSwap port => Sys2Proof.Machine.execFrSwap port s
  | .getSinkCap port => Sys2Proof.Machine.execGetSinkCap port s
  | .getSourceCap port => Sys2Proof.Machine.execGetSourceCap port s
  | .discoverIdentity port => Sys2Proof.Machine.execDiscoverIdentity port s
  | .discoverSvids port listed => Sys2Proof.Machine.execDiscoverSvids port listed s
  | .discoverModes port svid => Sys2Proof.Machine.execDiscoverModes port svid s
  | .enterMode port svid => Sys2Proof.Machine.execEnterMode port svid s
  | .exitMode port svid => Sys2Proof.Machine.execExitMode port svid s
  | .unstructuredVdm port => Sys2Proof.Machine.execUnstructuredVdm port s
  | .bist port carrier => Sys2Proof.Machine.execBist port carrier s
  | .cableIdentityReply port fiveAmp => Sys2Proof.Machine.execCableIdentityReply port fiveAmp s
  | .cableDiscoveryTimeout port => Sys2Proof.Machine.execCableDiscoveryTimeout port s
  | .moistureMeasurement port kohm => Sys2Proof.Machine.execMoistureMeasurement port kohm s
  | .corrosionTime port => Sys2Proof.Machine.execCorrosionTime port s
  | .vbusOvervoltage port => Sys2Proof.Machine.execVbusOvervoltage port s
  | .ccSbuOvervoltage port => Sys2Proof.Machine.execCcSbuOvervoltage port s
  | .ccSbuOvervoltageRecovery port => Sys2Proof.Machine.execCcSbuOvervoltageRecovery port s
  | .vconnTrip port => Sys2Proof.Machine.execVconnTrip port s
  | .bmcReadbackMismatch port => Sys2Proof.Machine.execBmcReadbackMismatch port s
  | .currentLimitTimeout ch => Sys2Proof.Machine.execCurrentLimitTimeout ch s
  | .shortCircuitTrip ch => Sys2Proof.Machine.execShortCircuitTrip ch s
  | .thermalTrip ch => Sys2Proof.Machine.execThermalTrip ch s
  | .retryDelayEnd ch => Sys2Proof.Machine.execRetryDelayEnd ch s
  | .tripFreeTime ch => Sys2Proof.Machine.execTripFreeTime ch s
  | .lswinUndervoltage => Sys2Proof.Machine.execLswinUndervoltage s
  | .lswinRecovery => Sys2Proof.Machine.execLswinRecovery s
  | .onStateOpenLoad ch => Sys2Proof.Machine.execOnStateOpenLoad ch s
  | .offStateTest ch outMv => Sys2Proof.Machine.execOffStateTest ch outMv s
  | .missingFreeWheelPath ch => Sys2Proof.Machine.execMissingFreeWheelPath ch s
  | .minimumOffTimeEnd ch => Sys2Proof.Machine.execMinimumOffTimeEnd ch s
  | .channelStartStagger => Sys2Proof.Machine.execChannelStartStagger s
  | .sensorSample i1 r => Sys2Proof.Machine.execSensorSample i1 r s
  | .kilnGuardTrip src => Sys2Proof.Machine.execKilnGuardTrip src s
  | .kilnGuardRelease => Sys2Proof.Machine.execKilnGuardRelease s
  | .heartbeat crcOk agree h => Sys2Proof.Machine.execHeartbeat crcOk agree h s
  | .heartbeatLoss => Sys2Proof.Machine.execHeartbeatLoss s
  | .linkTrained => Sys2Proof.Machine.execLinkTrained s
  | .ident hdr m => Sys2Proof.Machine.execIdent hdr m s
  | .identRepeat => Sys2Proof.Machine.execIdentRepeat s
  | .cells hdr m => Sys2Proof.Machine.execCells hdr m s
  | .ledger hdr m => Sys2Proof.Machine.execLedger hdr m s
  | .pooldata hdr m => Sys2Proof.Machine.execPooldata hdr m s
  | .mirror hdr m => Sys2Proof.Machine.execMirror hdr m s
  | .policy hdr m => Sys2Proof.Machine.execPolicy hdr m s
  | .orders hdr m => Sys2Proof.Machine.execOrders hdr m s
  | .control hdr m => Sys2Proof.Machine.execControl hdr m s
  | .controlEffective => Sys2Proof.Machine.execControlEffective s
  | .nak hdr type seq => Sys2Proof.Machine.execNak hdr type seq s
  | .fencingDelayEnd => Sys2Proof.Machine.execFencingDelayEnd s
  | .fencingGapSample lineAsserted => Sys2Proof.Machine.execFencingGapSample lineAsserted s
  | .contestSlot lineLow => Sys2Proof.Machine.execContestSlot lineLow s
  | .twTripNAsserted => Sys2Proof.Machine.execTwTripNAsserted s
  | .tripReadbackMismatch => Sys2Proof.Machine.execTripReadbackMismatch s
  | .attachTimeout => Sys2Proof.Machine.execAttachTimeout s
  | .promotionComplete => Sys2Proof.Machine.execPromotionComplete s
  | .shareRampEnd => Sys2Proof.Machine.execShareRampEnd s
  | .shareError => Sys2Proof.Machine.execShareError s
  | .twRefclkLoss => Sys2Proof.Machine.execTwRefclkLoss s
  | .epochFuseProgrammed readBackOk => Sys2Proof.Machine.execEpochFuseProgrammed readBackOk s
  | .eraseCreditAccrual => Sys2Proof.Machine.execEraseCreditAccrual s
  | .patinaRecordDue => Sys2Proof.Machine.execPatinaRecordDue s
  | .rstNReleased tmodeHigh => Sys2Proof.Machine.execRstNReleased tmodeHigh s
  | .moscRestored tmodeHigh => Sys2Proof.Machine.execMoscRestored tmodeHigh s
  | .shedLineUncommandedCleared p => Sys2Proof.Machine.execShedLineUncommandedCleared p s
  | .channelCooled ch => Sys2Proof.Machine.execChannelCooled ch s
  | .vauxSourceChange vmain vpack vsys => Sys2Proof.Machine.execVauxSourceChange vmain vpack vsys s
  | .twTripNReleased => Sys2Proof.Machine.execTwTripNReleased s

end Sys2Proof.Machine
end

