-- ==== Sys2Proof/Machine/Pins.lean ====
section
/-! DEFINITION. The pin states outside Run (Table 02-5, R55). -/

namespace Sys2Proof.Machine

/-- How the device holds a pin (Table 02-5). -/
inductive PinSt where
  /-- held at its reference by an internal path that needs no supply -/
  | passiveOff
  | low
  | high
  | off
  | on
  /-- neither Rp nor Rd -/
  | open_
  | highZ
  | notDriven
  | asserted
  | deasserted
  | driven
  /-- switching to hold SYS at the fixed floor -/
  | switching
  /-- internal equalizers connected, no other current -/
  | equalizers
  /-- driven in identity transactions only -/
  | identityOnly
  /-- as in Run -/
  | served
  deriving DecidableEq, Repr

/-- One column of Table 02-5. -/
structure PinTable where
  gates : PinSt
  gpm : PinSt
  gpab : PinSt
  gbt : PinSt
  lsw : PinSt
  vc : PinSt
  cc : PinSt
  sbuPl : PinSt
  shed : List PinSt
  tw : PinSt
  sdo : PinSt
  attn : PinSt
  faultN : PinSt
  nvCs : PinSt
  nvSck : PinSt
  nvIo : PinSt
  bias : PinSt
  deriving DecidableEq, Repr

/-- On or off. -/
def PinSt.ofOn (b : Bool) : PinSt := if b then .on else .off

/-- Asserted or not. -/
def PinSt.ofAsserted (b : Bool) : PinSt := if b then .asserted else .deasserted

/-- The column of Off. -/
def pinsOff : PinTable :=
  { gates := .passiveOff, gpm := .passiveOff, gpab := .passiveOff, gbt := .passiveOff, lsw := .passiveOff
    vc := .equalizers, cc := .open_, sbuPl := .highZ, shed := List.replicate 4 .highZ, tw := .highZ, sdo := .highZ
    attn := .notDriven, faultN := .highZ, nvCs := .notDriven, nvSck := .notDriven, nvIo := .notDriven, bias := .off }

/-- The column of Boot. -/
def pinsBoot : PinTable :=
  { pinsOff with
    gates := .low, gpm := .off, gpab := .off, gbt := .off, lsw := .off, sdo := .identityOnly, attn := .deasserted
    faultN := .asserted, nvCs := .driven, nvSck := .driven, nvIo := .driven, bias := .on }

/-- The column of Reset. -/
def pinsReset : PinTable :=
  { pinsBoot with sdo := .highZ, nvCs := .high, nvSck := .low, nvIo := .highZ }

/-- The outputs have come to the Reset column (R57). -/
def ResetOuts.settled (o : ResetOuts) : Bool :=
  (o.ph.toList.all fun p => p == .off) && (o.pairs.toList.all fun b => !b) && o.batfet == .off && o.lsw == 0

/-- The column of Safe Hold, whose gates, path gates and SHED lines follow the state (R58, R59). -/
def pinsSafeHold (c : Core) : PinTable :=
  { pinsBoot with
    gates := if c.path.shConv then .switching else .low
    gpm := PinSt.ofOn (c.path.inp .main).pair
    gbt := PinSt.ofOn (c.path.batfet == .full)
    shed := c.plb.p.toList.map fun g => if g.shed then .asserted else .highZ
    sdo := .served, attn := .asserted }

/-- Pin states outside Run and Dormant (Table 02-5): TMODE holds Boot with NV_CS_N high (R62), and the Reset column applies
once Chisel Off has ended and the path gates and load switches are off (R57). -/
def pinTable (c : Core) : Option PinTable :=
  match c.life.st with
  | .off => some pinsOff
  | .boot => some (if c.life.tmodeHold then { pinsBoot with nvCs := .high } else pinsBoot)
  | .safeHold => some (pinsSafeHold c)
  | .reset => if c.outs.settled then some pinsReset else none
  | .run | .dormant => none

end Sys2Proof.Machine
end

