-- ==== Sys2Proof/Safety.lean ====
section
/-! DEFINITION. What counts as a safe state and a safe step: the terms that the claims use. -/

namespace Sys2Proof.Machine

/-- A step that goes on: the block stops on no command. -/
def goesOn (r : Res) : Bool :=
  match r with
  | .next _ => true
  | _ => false

/-- The image shows the attention and fault pins as its own status bits make them (R299, R508, Table 02-5). -/
def pinsAgree (c : Core) : Bool := c.pins.attn == attnPin c && c.pins.faultN == faultPin c

/-- The published image agrees with its pins. -/
def State.imageOk (s : State) : Bool := pinsAgree s.img

/-- The bytes of the NVM are in canonical form. -/
def State.nvmOk (s : State) : Bool := Memory.wf s.core.nvm.cells

/-- A column's totals account for its whole pool: free, granted and in transit (R339). -/
def ColTot.balanced (t : ColTot) : Bool := decide (t.f + t.g + t.t = t.pool)

/-- What every reset leaves of the controller `c` in `d`, whose cause sets this bit (R105, R107, Table 02-5): the cause bit is
set and the others stand, no image is in force, and latches, orders, vault, twin and loop state are cleared; NVM work has
ended, and the transient history and the trip count stand. -/
structure ResetTaken (c d : Core) (bit : Nat) : Prop where
  st : d.life.st = .reset
  cause : d.life.rstCause = putBit c.life.rstCause bit true
  image : d.mq = none
  latches : ∀ l ∈ d.flt.l.toList, l = none
  cleared : d.ord = {} ∧ d.vlt = {} ∧ d.twn = {} ∧ d.loop = {} ∧ d.gdr = {} ∧ d.path = {} ∧ d.lsw = {} ∧ d.plb = {} ∧
    d.cel = {} ∧ d.chg = {} ∧ d.ldg = {}
  mode : d.life.mode = .none
  nvm : d.nvm.op = none ∧ d.nvm.queue = []
  kept : d.flt.hist = c.flt.hist ∧ d.thm.trips = c.thm.trips ∧ d.otp.serial = c.otp.serial ∧ d.otp.epoch = c.otp.epoch
  idle : c.nvm.op = none → d.nvm.cells = c.nvm.cells ∧ d.nvm.sectors = c.nvm.sectors
  pins : d.pins.faultN = true ∧ d.pins.attn = false

/-- Boot as it begins from `c` (Table 04-2 step 2, R62, R124, R127). -/
structure BootBegun (c d : Core) (tmodeHigh : Bool) : Prop where
  st : d.life.st = .boot
  clock : d.life.us = 0
  tmode : d.life.tmode = tmodeHigh ∧ d.life.tmodeHold = (tmodeHigh && !c.otp.testLock)
  watchdog : d.wdg.run = c.otp.wdtHw ∧ d.wdg.bootTmo = c.otp.wdtHw
  pins : d.pins.faultN = true ∧ d.pins.attn = false
  kept : d.otp = c.otp ∧ d.nvm = c.nvm ∧ d.cel = c.cel ∧ d.chg = c.chg

/-- A fault stands latched with its reaction, or the latch table has overflowed and says so (R288). -/
def latched (c : Core) (code : BitVec 16) (inst : BitVec 8) : Prop :=
  faultActive c code inst = true ∨ c.flt.ovfNew = true ∨ c.flt.ovf = true

/-- No FLTR entry of the image in force raises a fault to class D (R81). -/
def noResetRaised (c : Core) : Prop := ∀ e ∈ c.maq.fltr.entries, FCls.ofCode e.cls ≠ some .d

/-- The stage is Stopped and every phase off or in Chisel Off (R214, R232). -/
def stageDown (c : Core) : Prop :=
  c.gdr.st = .stopped ∧ ∀ p ∈ c.gdr.ph.toList, p.st = .off ∨ p.st = .chisel1 ∨ p.st = .chisel2

/-- An order that waits for the next merge tick, behind those that came before it (R480); the host's wakes Dormant (Table
04-5). -/
def State.queued (s : State) (m : Master) (slot : Nat) (v : BitVec 32) : State :=
  { s with core := { s.core with
    life := if m == .host then (wakeBegin s.core false).life else s.core.life
    ord := { s.core.ord with arrived := s.core.ord.arrived ++ [{ m := m, slot := slot, v := v }] } } }

/-- A response frame of port `p` that the awaited message `m` asked for (R317, R318): from its partner to the master, of this
type and of its length, and on a port whose confinement state a good response leaves free of recalls. -/
structure Answers (c : Core) (p : Fin 4) (f : Frame) (m : PlbMsg) (type : Byte) (len : Nat) : Prop where
  run : c.life.st = .run
  awaited : (c.plbPort p.val).await = some m
  src : f.src = m.dest
  dest : f.dest = 0
  type : f.type = type
  length : f.payload.length = len
  calm : (c.plbPort p.val).st = .active ∨ (c.plbPort p.val).st = .warned
  tec : (c.plbPort p.val).tec ≤ 128

/-- Only the Plinth Bus, the vault, the queued orders and the records waiting to be written differ. -/
def busOnly (s t : State) : Prop :=
  t = { s with core := { s.core with
    plb := t.core.plb, vlt := t.core.vlt, own := t.core.own, free := t.core.free
    ord := { s.core.ord with arrived := t.core.ord.arrived } } }

/-- The same state with another power path. -/
def State.withPath (s : State) (p : PathG) : State := { s with core := { s.core with path := p } }

/-- The same state with one input of the power path changed. -/
def State.withInput (s : State) (i : Inp) (f : InputG → InputG) : State := s.withPath (s.core.path.updInp i f)

/-- The NVM has its clock: not in Dormant once its entry is complete (R33, R113). -/
def nvmClocked (c : Core) : Prop := c.life.st ≠ .dormant ∨ c.life.entering = true

/-- Every pulse ledger accounts for its counts since the last close (R268, R269). -/
def State.pulsesBalance (s : State) : Bool := s.core.gdr.sw.toList.all SwG.balanced

/-- The microcode word that the run at the head of the engine executes next, in Run (R244), and the run ends within its
worst-case cycles (R251). -/
structure HeadAt (c : Core) (r : LoopRun) (w : Word) : Prop where
  run : c.life.st = .run
  head : c.loop.runs.head? = some r
  word : c.maq.loop.code[r.pc]? = some w
  within : pastWorst c r (r.cycles + 2) = false

/-- The state after the head run has gone on to `pc` in `cyc` engine cycles with these working registers and descriptors. -/
def State.ran (s : State) (r : LoopRun) (x : Vector Word 16) (d : Vector DescG 8) (pc cyc : Nat) : State :=
  { s with core := { s.core with loop := { s.core.loop with
      d := d, cyc := s.core.loop.cyc + cyc
      cycMax := max s.core.loop.cycMax (min (s.core.loop.cyc + cyc) 65535)
      runs := { r with x := x, pc := pc, cycles := r.cycles + cyc } :: s.core.loop.runs.tail } } }

/-- The state after an instruction has written a value to one of the registers X0–X15 (R245). -/
def State.wroteX (s : State) (r : LoopRun) (k : BitVec 6) (v : Word) (cyc : Nat) : State :=
  s.ran r (vupd r.x k.toNat fun _ => v) s.core.loop.d (r.pc + 1) cyc

/-- The state after an instruction has written a value to one of the state registers S0–S7 (R245). -/
def State.wroteS (s : State) (r : LoopRun) (k : BitVec 6) (v : Word) (cyc : Nat) : State :=
  s.ran r r.x (vupd s.core.loop.d r.desc.val fun g => { g with s := vupd g.s (k.toNat - 16) fun _ => v }) (r.pc + 1) cyc

/-- The same state with another Type-C port. -/
def State.withPort (s : State) (p : PdId) (g : PdG) : State :=
  { s with core := { s.core with pd := vupd s.core.pd (pdIx p) fun _ => g } }

/-- A Type-C port that has received one message more. -/
def PdG.heard (g : PdG) : PdG := { g with nRecv := g.nRecv + 1 }

/-- A Type-C port that has sent one message more, neither a Reject nor a Hard Reset. -/
def PdG.says (g : PdG) (m : PdMsg) : PdG := { g with sent := g.sent ++ [m], nSent := g.nSent + 1 }

/-- A Type-C port that has sent a Reject more. -/
def PdG.rejected (g : PdG) : PdG := { g.says .reject with rejects := satNat 8 (g.rejects + 1) }

/-- A Type-C port that has received a swap it does not support (Table 14-2). -/
def PdG.refusesSwap (g : PdG) : PdG := { g.heard.says .notSupported with swapsRef := satNat 8 (g.swapsRef + 1) }

/-- A port in its partner's company, as sink or as source. -/
def PdG.attached (g : PdG) : Prop := g.att = .sink ∨ g.att = .source

/-- A port without contract, VCONN, mode and backing. -/
def PdG.quiet (g : PdG) : Prop :=
  g.contract = none ∧ g.want = none ∧ g.trans = none ∧ g.reqWait = none ∧ g.vconn = false ∧ g.alt = false ∧ g.backing = 0

/-- The same state with another load switch channel. -/
def State.withChannel (s : State) (n : Fin 8) (x : LswCh) : State :=
  { s with core := { s.core with lsw := { s.core.lsw with ch := vupd s.core.lsw.ch n.val fun _ => x } } }

/-- A twin frame whose CRC is good and whose sequence follows the last one of its type (R453). -/
structure InOrder (c : Core) (h : LinkHdr) (type : Nat) : Prop where
  run : c.life.st = .run
  expected : c.maq.twin.expected = true
  crc : h.crcOk = true
  seq : (∀ x ∈ c.twn.rxSeq, x.1 ≠ type) ∨ h.seq = kget 0 type c.twn.rxSeq + 1

/-- The same state with another state of the twin link. -/
def State.withTwin (s : State) (g : TwnG) : State := { s with core := { s.core with twn := g } }

/-- The twin link once a frame of the type has been received. -/
def TwnG.took (g : TwnG) (h : LinkHdr) (type : Nat) : TwnG := { g with rxSeq := kset type h.seq g.rxSeq }

/-- Every path gate is low: no input pair is on, the BATFET is off, and nothing may switch them on (R58, R438). -/
def pathDown (c : Core) : Prop :=
  (∀ x ∈ c.path.inputs.toList, x.pair = false) ∧ c.path.batfet = .off ∧ c.path.held = true ∧ c.path.active = none

/-- Commands that publish an image or restart the port: the merge tick, the grid events that end one, and the commands
that start or stop CORE (R499, R506). -/
def publishes : Instr → Bool
  | .mergeTick _ _ _ | .modeDecision _ | .ledgerClose _ | .vaultAudit _ _ | .plinthCycleStart => true
  | .startSourceQualifies _ _ _ _ | .vauxLoss | .resetRelease _ | .rstNReleased _ | .moscRestored _ => true
  | .runEntry _ | .safeHoldEntry _ | .wakePllLock _ _ => true
  | _ => false

/-- Commands that are Window Port transactions, or the commands of one that the port may refuse. -/
def touchesPort : Instr → Bool
  | .snapshotRead _ | .identity _ | .orderWrite _ | .w1cAcknowledgeWrite _ => true
  | .provisioningOrder _ _ | .accsel _ | .decryptCommand _ => true
  | .stagingBegin _ | .stagingData _ _ | .stagingEnd | .stagingAbort => true
  | _ => false

end Sys2Proof.Machine
end

