-- ==== Sys2Proof/Certificates/Slice0/Obligations.lean ====
section
/-! DEFINITION. The statements for the provers. -/

open Sys2Proof Sys2Proof.Machine

/-! ### The queue, the image and the port -/

/-- A step carries out the command at the front of the queue on the state with the queue's rest; on an empty queue the
block idles (the model's own choice, log entry 1). -/
def Obligations.StepRunsTheFrontCommand : Prop :=
  (∀ (i : Instr) (rest : List Instr) (s : State), step { s with pending := i :: rest } = exec i { s with pending := rest })
    ∧ ∀ s : State, s.pending = [] → step s = .next s

/-- No command stops the block, and none touches the queue of the commands that wait behind it. -/
def Obligations.EveryCommandGoesOnAndKeepsTheQueue : Prop :=
  ∀ (i : Instr) (s : State), ∃ t, exec i s = .next t ∧ t.pending = s.pending

/-- CORE publishes an image at a merge tick alone (R499): every command that neither ends a merge tick nor starts or
stops CORE leaves the published image as it is. -/
def Obligations.ImageChangesOnlyWhenPublished : Prop :=
  ∀ (i : Instr) (s t : State), publishes i = false → exec i s = .next t → t.img = s.img

/-- In every image that is published, ATTN_N and FAULT_N agree with the latches, the attention causes and the lifecycle
state of the same image (R299, R508): every step keeps it. -/
def Obligations.PublishedPinsAgreeWithStatus : Prop :=
  ∀ s t : State, s.imageOk = true → step s = .next t → t.imageOk = true

/-- The machine right after reset meets the invariants that every step keeps: it is in Off with no mode, its image agrees with
its pins, both token columns and every pulse ledger are in balance, and the NVM is in its canonical form. -/
def Obligations.ResetMeetsTheInvariants : Prop :=
  State.reset.imageOk = true ∧ State.reset.core.life.st = .off ∧ State.reset.core.life.mode = .none ∧
    State.reset.core.vlt.sup.balanced = true ∧ State.reset.core.vlt.ret.balanced = true ∧
    State.reset.pulsesBalance = true ∧ State.reset.nvmOk = true ∧ State.reset.pending = []

/-- What a read returns on WIN_SDO depends on the published image, the port and the lifecycle state alone (R499): two
controllers that differ in nothing else answer every transaction alike. -/
def Obligations.ReadsSeeOnlyTheImage : Prop :=
  ∀ (f : WinFrame) (s u s' u' : State), s.img = u.img → s.win = u.win → s.core.life.st = u.core.life.st →
    exec (.snapshotRead f) s = .next s' → exec (.snapshotRead f) u = .next u' → s'.win.sdo = u'.win.sdo

/-! ### Start, Reset and Off (chapter 04) -/

/-- A qualified start source takes the controller from Off to Boot, or to Reset while RST_N is asserted (R61); with no
source it stays in Off (R97). -/
def Obligations.StartSourceBeginsBoot : Prop :=
  ∀ (vmain vpack vsys : Nat) (tm : Bool) (s : State), s.core.life.st = .off →
    ((16000 ≤ vmain ∨ 18000 ≤ vpack ∨ (s.core.pins.twPres = true ∧ 18000 ≤ vsys)) →
        s.core.pins.rstN = false →
        ∃ t, exec (.startSourceQualifies vmain vpack vsys tm) s = .next t ∧ BootBegun s.core t.core tm ∧
          t.core.life.rstCause = 1 ∧ t.core.pins.vaux ≠ .none ∧ t.pending = s.pending)
      ∧ ((16000 ≤ vmain ∨ 18000 ≤ vpack ∨ (s.core.pins.twPres = true ∧ 18000 ≤ vsys)) →
        s.core.pins.rstN = true →
        ∃ t, exec (.startSourceQualifies vmain vpack vsys tm) s = .next t ∧ t.core.life.st = .reset ∧
          t.pending = s.pending)
      ∧ (vmain < 16000 → vpack < 18000 → (s.core.pins.twPres = false ∨ vsys < 18000) →
        exec (.startSourceQualifies vmain vpack vsys tm) s = .next s)

/-- VAUX draws from the highest of its three supplies, and prefers SYS, then the pack, within half a volt of it (R564). Its loss
turns every state but Off into Off: no register outside OTP and NVM keeps its value, and the pins drive nothing (R30, R563). -/
def Obligations.VauxKeepsTheControllerAlive : Prop :=
  ∀ s : State, s.core.life.st ≠ .off →
    (∃ t, exec .vauxLoss s = .next t ∧ t.core.life = {} ∧ t.core.mq = none ∧ t.core.flt = {} ∧ t.core.thm = {} ∧
        t.core.wdg = {} ∧ t.core.ldg = {} ∧ t.core.ord = {} ∧ t.core.nvm.op = none ∧ t.core.nvm.queue = [] ∧
        t.core.otp.epoch = s.core.otp.epoch ∧ t.core.otp.serial = s.core.otp.serial ∧
        t.core.otp.retired = s.core.otp.retired ∧ t.core.pins.faultN = false ∧ t.core.pins.attn = false ∧
        t.core.pins.vaux = .none ∧ pinTable t.core = some pinsOff ∧ t.win = {} ∧ t.pending = s.pending)
      ∧ ∀ vmain vpack vsys : Nat,
        ∃ t, exec (.vauxSourceChange vmain vpack vsys) s = .next t ∧
          t = { s with core := { s.core with pins := { s.core.pins with vaux := t.core.pins.vaux } } } ∧
          (t.core.pins.vaux = .vsys → vmain ≤ vsys + 500 ∧ vpack ≤ vsys + 500) ∧
          (t.core.pins.vaux = .vpack → vmain ≤ vpack + 500 ∧ vsys ≤ vpack + 500) ∧
          (t.core.pins.vaux = .vmain → vsys < vmain ∧ vpack < vmain) ∧ t.core.pins.vaux ≠ .none

/-- Each reset source takes the controller into Reset with its own cause bit, from every state in which it acts, the accepted
reset order among them; in Reset a further cause adds its bit alone. -/
def Obligations.ResetSourcesTakeReset : Prop :=
  ∀ s : State,
    (s.core.life.st ≠ .off → s.core.life.st ≠ .reset →
        (∃ t, exec .rstNAsserted s = .next t ∧ ResetTaken s.core t.core 1 ∧ t.core.pins.rstN = true ∧ t.win = s.win) ∧
        (∃ t, exec .moscLoss s = .next t ∧ ResetTaken s.core t.core 5 ∧ t.core.life.mosc = false ∧ t.win = s.win))
      ∧ (s.core.life.st = .run ∨ s.core.life.st = .safeHold ∨ s.core.life.st = .boot →
        ∃ t, exec .systemPllLossOfLock s = .next t ∧ ResetTaken s.core t.core 6)
      ∧ (s.core.life.st = .run ∨ s.core.life.st = .safeHold ∨ s.core.life.st = .dormant →
        ∃ t, exec .lockstepMismatch s = .next t ∧ ResetTaken s.core t.core 4)
      ∧ (s.core.life.st = .boot → s.core.wdg.bootTmo = true →
        ∃ t, exec .watchdogBootTimeout s = .next t ∧ ResetTaken s.core t.core 8)
      ∧ (s.core.life.st = .dormant → s.core.life.bksWake = true →
        ∃ t, exec .backstopWakeTimeout s = .next t ∧ ResetTaken s.core t.core 7)
      ∧ (s.core.life.st = .dormant → s.core.life.waking = true →
        (∃ t, exec (.pllLockTimeout false) s = .next t ∧ ResetTaken s.core t.core 6) ∧
        (noResetRaised s.core →
          ∃ t, exec (.pllLockTimeout true) s = .next t ∧ t.core.life.st = .dormant ∧ t.core.life.sysLock = true ∧
            stageDown t.core ∧ latched t.core 0x0A08 0))
      ∧ (s.core.life.resetOrder = true → s.core.life.st ≠ .off → s.core.life.st ≠ .reset →
        ∃ t, exec .resetOrderExecute s = .next t ∧ ResetTaken s.core t.core 2 ∧ t.core.wdg.cap = s.core.wdg.cap)
      ∧ (s.core.life.st = .reset →
        (∃ t, exec .moscLoss s = .next t ∧ t.core.life.st = .reset ∧ t.core.life.mosc = false ∧
          t.core.life.rstCause = putBit s.core.life.rstCause 5 true ∧
          (s.core.outs.entry = false → t.core.wdg = s.core.wdg) ∧ t.core.otp = s.core.otp) ∧
        ∃ t, exec .rstNAsserted s = .next t ∧ t.core.life.st = .reset ∧
          t.core.life.rstCause = putBit s.core.life.rstCause 1 true ∧ t.core.wdg = s.core.wdg ∧
          t.core.otp = s.core.otp)

/-- A capture-taking reset leaves a capture that is held as it is and counts itself as lost; where none is held it freezes
the shadow, with the kind of the reset. A reset by RST_N takes none. -/
def Obligations.CaptureIsTakenOnce : Prop :=
  ∀ s : State, s.core.life.st = .run →
    (s.core.wdg.cap.valid = true →
        (∃ t, exec .lockstepMismatch s = .next t ∧
          t.core.wdg.cap = { s.core.wdg.cap with lost := min 255 (s.core.wdg.cap.lost + 1) }) ∧
        (∃ t, exec .moscLoss s = .next t ∧
          t.core.wdg.cap = { s.core.wdg.cap with lost := min 255 (s.core.wdg.cap.lost + 1) }))
      ∧ (s.core.wdg.cap.valid = false →
        (∃ t, exec .lockstepMismatch s = .next t ∧ t.core.wdg.cap.valid = true ∧ t.core.wdg.cap.kind = 2 ∧
          t.core.wdg.cap.pc = s.core.wdg.shPc ∧ t.core.wdg.cap.last = s.core.wdg.shLast ∧
          t.core.wdg.cap.code = 0x1801 ∧ t.core.wdg.cap.st = .run ∧ t.core.wdg.cap.time = s.core.life.us) ∧
        (∃ t, exec .moscLoss s = .next t ∧ t.core.wdg.cap.valid = true ∧ t.core.wdg.cap.kind = 3 ∧
          t.core.wdg.cap.pc = s.core.wdg.shPc ∧ t.core.wdg.cap.missing = s.core.wdg.missing))
      ∧ ∃ t, exec .rstNAsserted s = .next t ∧ t.core.wdg.cap = s.core.wdg.cap

/-- Reset is left for Boot once its hold is over and no cause remains, and not before: RST_N asserted or MOSC absent hold
it, and so does the hold time. -/
def Obligations.ResetEndsInBoot : Prop :=
  ∀ (tm : Bool) (s : State), s.core.life.st = .reset →
    (s.core.pins.rstN = false → s.core.life.mosc = true →
        ∃ t, exec (.resetRelease tm) s = .next t ∧ BootBegun s.core t.core tm ∧
          t.core.life.rstCause = s.core.life.rstCause ∧ t.win = {} ∧ t.pending = s.pending)
      ∧ (s.core.pins.rstN = true ∨ s.core.life.mosc = false →
        exec (.resetRelease tm) s = .next { s with core := { s.core with
          life := { s.core.life with holdDone := true }, outs := {} } })
      ∧ (s.core.life.holdDone = true → s.core.life.mosc = true →
        ∃ t, exec (.rstNReleased tm) s = .next t ∧ BootBegun s.core t.core tm ∧ t.core.pins.rstN = false)
      ∧ (s.core.life.holdDone = false ∨ s.core.life.mosc = false →
        exec (.rstNReleased tm) s = .next { s with core := { s.core with pins := { s.core.pins with rstN := false } } })
      ∧ (s.core.life.holdDone = true → s.core.pins.rstN = false →
        ∃ t, exec (.moscRestored tm) s = .next t ∧ BootBegun s.core t.core tm)
      ∧ (s.core.life.holdDone = false ∨ s.core.pins.rstN = true →
        exec (.moscRestored tm) s = .next { s with core := { s.core with life := { s.core.life with mosc := true } } })

/-- Boot ends in Run where a copy passes its checks, with that copy in force and the configuration it carries; where both
fail it ends in Safe Hold. While TMODE holds Boot it ends in neither (R62). Every Boot finds the cell monitor and the charger
cleared (R105). -/
def Obligations.BootEndsInRunOrSafeHold : Prop :=
  ∀ (b : BootRead) (s : State), s.core.life.st = .boot →
    (∀ (ra rb : Nat) (m : Maquette) (fromB : Bool), bootSelect s.core b = (ra, rb, some (m, fromB)) →
        s.core.life.tmodeHold = false → b.keyTestOk = true → s.core.pins.twPres = false →
        s.core.cel = {} → s.core.chg = {} →
        ∃ t, exec (.runEntry b) s = .next t ∧ t.core.life.st = .run ∧ t.core.mq = some m ∧ t.core.life.tick = 0 ∧
          t.core.mqs.resA = ra ∧ t.core.mqs.resB = rb ∧ t.core.mqs.fromB = fromB ∧ t.core.mqs.bothFail = false ∧
          t.core.twn.role = .lead ∧ t.core.path.floorSet = m.path.floor ∧
          t.core.life.rstCause = s.core.life.rstCause ∧ t.pending = s.pending)
      ∧ (∀ ra rb : Nat, bootSelect s.core b = (ra, rb, none) → s.core.life.tmodeHold = false →
        ∃ t, exec (.safeHoldEntry b) s = .next t ∧ t.core.life.st = .safeHold ∧ t.core.mq = s.core.mq ∧
          t.core.mqs.resA = ra ∧ t.core.mqs.resB = rb ∧ t.core.mqs.bothFail = true ∧ t.core.path.floorSet = 36000 ∧
          t.core.pins.attn = true ∧ t.core.pins.faultN = true ∧
          (t.core.wdg.run = true ↔ (s.core.wdg.run = true ∨ s.core.otp.wdtHw = true)) ∧
          (s.core.otp.wdtHw = true → t.core.wdg.period = 100 ∧ t.core.wdg.num = 0 ∧ t.core.wdg.missing = 0x3F) ∧
          (s.core.pins.twPres = false → ∀ g ∈ t.core.plb.p.toList, g.shed = true ∧ g.bySafe = true) ∧
          t.pending = s.pending)
      ∧ (s.core.life.tmodeHold = true →
        exec (.runEntry b) s = .next s ∧ exec (.safeHoldEntry b) s = .next s)

/-! ### Clock monitors -/

/-- The loss of KLN or of the PWM PLL stops the stage at once, is latched, and bars a new start; where FLTR raises the fault
to class D it is a reset. -/
def Obligations.ClockFaultsStopTheStage : Prop :=
  ∀ s : State, s.core.life.st = .run →
    (s.core.life.klnLost = false → classInForce s.core 0x1802 .a = .a →
        ∃ t, exec .klnLoss s = .next t ∧ stageDown t.core ∧ latched t.core 0x1802 0 ∧ stageMayStart t.core = false ∧
          t.core.life = { s.core.life with klnLost := true, pathDriven := t.core.life.pathDriven } ∧
          (∀ r ∈ t.core.vlt.recs, r.2.burst = none) ∧ t.core.path.export_ = none)
      ∧ (s.core.life.klnLost = false → classInForce s.core 0x1802 .a = .d →
        ∃ t, exec .klnLoss s = .next t ∧ t.core.life.st = .reset ∧
          t.core.life.rstCause = putBit s.core.life.rstCause 4 true)
      ∧ (classInForce s.core 0x0A08 .a = .a →
        ∃ t, exec .pwmPllLossOfLock s = .next t ∧ stageDown t.core ∧ latched t.core 0x0A08 0 ∧
          stageMayStart t.core = false ∧ t.core.life.pwmLock = false ∧ t.core.gdr.cause = 6 ∧ t.core.gdr.causePh = 0)
      ∧ (classInForce s.core 0x0A08 .a = .d →
        ∃ t, exec .pwmPllLossOfLock s = .next t ∧ t.core.life.st = .reset)

/-! ### The watchdog (R119–R129) -/

/-- What a key written to the running watchdog does (R121); `n` is the number of the present period. -/
def Obligations.WatchdogTakesKeys : Prop :=
  ∀ (i : Nat) (key : BitVec 16) (us : Nat) (s : State),
    (s.core.life.st = .run ∨ s.core.life.st = .safeHold ∨ s.core.life.st = .dormant) → s.core.wdg.run = true →
    ([0xA1, 0xB2, 0xC3, 0xD4, 0xE5, 0xF6][i]? = some (key.toNat / 256) →
        (key.toNat % 256 = s.core.wdg.num.toNat % 256 →
          (s.core.wdg.missing.getLsbD i = true →
            exec (.watchdogKeyWrite key us) s = .next { s with core := { s.core with
              life := { s.core.life with us := BitVec.ofNat 32 us }
              wdg := { s.core.wdg with
                missing := putBit s.core.wdg.missing i false
                last := vupd s.core.wdg.last i fun _ => BitVec.ofNat 32 us } } }) ∧
          (s.core.wdg.missing.getLsbD i = false →
            exec (.watchdogKeyWrite key us) s = .next { s with core := { s.core with
              life := { s.core.life with us := BitVec.ofNat 32 us } } })) ∧
        (s.core.wdg.num ≠ 0 → key.toNat % 256 = (s.core.wdg.num - 1).toNat % 256 →
          exec (.watchdogKeyWrite key us) s = .next { s with core := { s.core with
            life := { s.core.life with us := BitVec.ofNat 32 us } } }))
      ∧ ((key.toNat / 256 ∉ [0xA1, 0xB2, 0xC3, 0xD4, 0xE5, 0xF6]) ∨
          (key.toNat % 256 ≠ s.core.wdg.num.toNat % 256 ∧
            (s.core.wdg.num ≠ 0 → key.toNat % 256 ≠ (s.core.wdg.num - 1).toNat % 256)) →
        ∃ t, exec (.watchdogKeyWrite key us) s = .next t ∧ ResetTaken s.core t.core 3)

/-- While it is off, the first valid key of Run starts the watchdog where WDOG flag [0] is set, and any other write is
ignored (R123). At a period boundary a missing task makes it expire; otherwise the next period begins (R120). -/
def Obligations.WatchdogStartsAndCountsPeriods : Prop :=
  ∀ (us : Nat) (s : State),
    (∀ (i : Nat) (key : BitVec 16), s.core.life.st = .run → s.core.wdg.run = false →
        ([0xA1, 0xB2, 0xC3, 0xD4, 0xE5, 0xF6][i]? = some (key.toNat / 256) → key.toNat % 256 = 0 →
          s.core.maq.wdog.start = true →
          exec (.watchdogKeyWrite key us) s = .next { s with core := { s.core with
            life := { s.core.life with us := BitVec.ofNat 32 us }
            wdg := { s.core.wdg with
              run := true, period := s.core.maq.wdog.period, num := 0, missing := putBit 0x3F i false
              last := vupd s.core.wdg.last i fun _ => BitVec.ofNat 32 us } } }) ∧
        (key.toNat / 256 ∉ [0xA1, 0xB2, 0xC3, 0xD4, 0xE5, 0xF6] ∨ key.toNat % 256 ≠ 0 ∨
            s.core.maq.wdog.start = false →
          exec (.watchdogKeyWrite key us) s = .next { s with core := { s.core with
            life := { s.core.life with us := BitVec.ofNat 32 us } } }))
      ∧ (s.core.life.st ≠ .off → s.core.life.st ≠ .reset → s.core.wdg.run = true → s.core.wdg.bootTmo = false →
        (s.core.wdg.missing ≠ 0 →
          ∃ t, exec (.watchdogPeriodBoundary us) s = .next t ∧ ResetTaken s.core t.core 3) ∧
        (s.core.wdg.missing = 0 →
          exec (.watchdogPeriodBoundary us) s = .next { s with core := { s.core with
            life := { s.core.life with us := BitVec.ofNat 32 us }
            wdg := { s.core.wdg with num := s.core.wdg.num + 1, missing := 0x3F } } }))

/-! ### Dormant (R112–R118) -/

/-- Dormant is entered once its conditions have held for the idle time, or at once on a request, and again after a wake by
the watchdog alone: both PLLs stop, the stage is Stopped with every phase off, no input pair is on, no SHED line is
asserted, and the idle tick and the notice are set. A standing Dormant inhibit keeps the controller in Run. -/
def Obligations.DormantIsEntered : Prop :=
  ∀ (i : Instr) (s : State),
    (i = .dormantEntry ∧ (s.core.maq.path.tIdle ≠ 0 ∨ s.core.life.dormReq = true)) ∨
      (i = .dormantReentry ∧ s.core.life.wakeWd = true ∧ s.core.wdg.missing = 0) →
    (dormantMay s.core = true → noResetRaised s.core →
        ∃ t, exec i s = .next t ∧ t.core.life.st = .dormant ∧ t.core.life.mode = .none ∧
          t.core.life.dormTick = some s.core.life.tick ∧ t.core.life.pwmLock = false ∧ t.core.life.sysLock = false ∧
          t.core.gdr.st = .stopped ∧ (∀ p ∈ t.core.gdr.ph.toList, p.st = .off) ∧
          (∀ x ∈ t.core.path.inputs.toList, x.pair = false) ∧ (∀ g ∈ t.core.plb.p.toList, g.shed = false) ∧
          t.core.plb.dormNotice = true ∧ t.core.life.due = [] ∧ t.core.wdg = s.core.wdg ∧ t.core.thm = s.core.thm ∧
          t.img = s.img ∧ t.win = s.win ∧ t.pending = s.pending)
      ∧ (merged s.core 21 ≠ 0 ∨ s.core.life.st ≠ .run → exec i s = .next s)

/-- A wake source starts the PLLs, and Run is entered only at their lock: the next decision sets the mode without dwell and
the residual windows restart; a PWM PLL that has not locked stays out (R133). A watchdog wake marks itself while no other
source has fired and the entry was complete (R117, R132). -/
def Obligations.DormantIsLeftByWakeAndLock : Prop :=
  ∀ s : State, s.core.life.st = .dormant →
    (∀ src : WakeSource, src ≠ .watchdog →
        exec (.dormantWake src) s = .next { s with core := { s.core with
          life := { s.core.life with waking := true, wakeWd := false } } })
      ∧ exec (.dormantWake .watchdog) s = .next { s with core := { s.core with
          life := { s.core.life with
            waking := true, wakeWd := !s.core.life.entering && (s.core.life.wakeWd || !s.core.life.waking) } } }
      ∧ (s.core.wdg.run = true →
        exec .watchdogWake s = .next { s with core := { s.core with
          life := { s.core.life with
            waking := true, wakeWd := !s.core.life.entering && (s.core.life.wakeWd || !s.core.life.waking) } } })
      ∧ exec .dormantBackstop s = .next { s with core := { s.core with
          life := { s.core.life with waking := true, wakeWd := false, bksWake := true, scanOwed := 3 } } }
      ∧ (∀ (iPack : Int) (vsys : Nat),
        (s.core.life.waking = false → exec (.wakePllLock iPack vsys) s = .next s) ∧
        (s.core.life.waking = true →
          ∃ t, exec (.wakePllLock iPack vsys) s = .next t ∧ t.core.life.st = .run ∧ t.core.life.waking = false ∧
            t.core.life.pwmLock = !faultActive s.core 0x0A08 0 ∧ t.core.life.sysLock = true ∧ t.core.life.modeNow = true ∧
            t.core.life.bksWake = false ∧ t.core.ldg.vPrev = some vsys ∧ t.core.ldg.wins = [] ∧
            t.core.life.tick = s.core.life.tick ∧ t.core.mq = s.core.mq ∧ t.img = t.core ∧ t.pending = s.pending))

/-! ### Modes and lifecycle (chapter 01) -/

/-- A change driven by the pack current alone takes effect at the 51st consecutive decision that names the same new
candidate (R22): before it, the mode stands and the decisions after the first are counted; a decision that names the standing
mode clears the candidate, and one that names a third mode makes that one pending. -/
def Obligations.ModeChangesAtThe51stDecision : Prop :=
  ∀ (l : LifeG) (m : Mode), l.modeNow = false → l.pathDriven = false → l.mode ≠ m → l.modePend ≠ some m →
    (∀ k : Nat, 1 ≤ k → k ≤ 50 →
        ((fun x => decideMode x m)^[k] l).mode = l.mode ∧ ((fun x => decideMode x m)^[k] l).modePend = some m ∧
        ((fun x => decideMode x m)^[k] l).dwell = k - 1)
      ∧ ((fun x => decideMode x m)^[51] l).mode = m ∧ ((fun x => decideMode x m)^[51] l).modePend = none
      ∧ (decideMode l l.mode).modePend = none ∧ (decideMode l l.mode).mode = l.mode
      ∧ (∀ n : Mode, n ≠ l.mode → l.modePend ≠ some n →
          (decideMode l n).modePend = some n ∧ (decideMode l n).dwell = 0 ∧ (decideMode l n).mode = l.mode)

/-- What a decision names (Table 01-1, R21): Return while the converter exports, else Reservoir with no input active, else by
the pack current, and with an invalid pack current or in the hysteresis band the economy that stands. -/
def Obligations.DecisionsFollowTheModeTable : Prop :=
  ∀ (i : Int) (s : State), s.core.life.st = .run → s.core.life.modeNow = true →
    (takeTurn s.core.life .decision).isSome = true →
    ∃ t, exec (.modeDecision i) s = .next t ∧ t.core.life.st = .run ∧ t.core.meas.ispDec = i ∧
      t.core.life.modeNow = false ∧ t.core.life.modePend = none ∧
      ((∃ e, s.core.path.export_ = some e ∧ e.step ≠ .outOff) → t.core.life.mode = .return_) ∧
      (s.core.path.export_ = none → s.core.path.active = none → t.core.life.mode = .reservoir) ∧
      (s.core.path.export_ = none → s.core.path.active ≠ none → ispValid s.core = true → 0 ≤ i →
        t.core.life.mode = .charge) ∧
      (s.core.path.export_ = none → s.core.path.active ≠ none → ispValid s.core = true → i ≤ -200 →
        t.core.life.mode = .reservoir) ∧
      (s.core.path.export_ = none → s.core.path.active ≠ none → (ispValid s.core = false ∨ (-200 < i ∧ i < 0)) →
        t.core.life.mode = if s.core.life.mode = .reservoir then .reservoir else .charge) ∧
      t.core.path = s.core.path ∧ t.core.gdr = s.core.gdr ∧ t.core.ldg = s.core.ldg ∧ t.core.vlt.recs = s.core.vlt.recs ∧
      t.core.vlt.sup = s.core.vlt.sup ∧ t.core.vlt.ret = s.core.vlt.ret ∧ t.core.plb = s.core.plb ∧ t.core.otp = s.core.otp ∧ t.core.nvm = s.core.nvm ∧ t.win = s.win ∧ t.pending = s.pending

/-- While in Run the controller is in one of the three modes, and outside Run in none (R20): every step keeps it. -/
def Obligations.AModeExactlyInRun : Prop :=
  ∀ s t : State, (s.core.life.st = .run ↔ s.core.life.mode ≠ .none) → step s = .next t →
    (t.core.life.st = .run ↔ t.core.life.mode ≠ .none)

/-- Safe Hold is left only through Reset or Off, whatever is commanded (R31). -/
def Obligations.SafeHoldIsLeftByResetOrOff : Prop :=
  ∀ s t : State, s.core.life.st = .safeHold → step s = .next t →
    t.core.life.st = .safeHold ∨ t.core.life.st = .reset ∨ t.core.life.st = .off

/-! ### The grid (chapter 01) -/

/-- A merge tick counts the grid: one tick on and 10 µs on, the waiting write and the waiting orders taken, the events of the
new tick due in their order and each event that the tick before left unfinished an overrun that is still to be performed. In
Dormant the count goes on alone, and in Safe Hold there is none. A grid event whose turn it is not changes nothing. The ledger
close, the vault audit and the Plinth cycle start number themselves in their turn, leave the list they stood in, and the one
that ends its own tick publishes the image. -/
def Obligations.TheGridCountsAndPublishes : Prop :=
  (∀ (pc : BitVec 32) (tw : BitVec 4) (bad : BitVec 8) (s : State), s.core.flt.noProbe = [] → noResetRaised s.core →
      (s.core.life.st = .run → ∃ t, exec (.mergeTick pc tw bad) s = .next t ∧ t.core.life.st = .run ∧
          t.core.life.tick = s.core.life.tick + 1 ∧ t.core.life.us = s.core.life.us + 10 ∧ t.win.pend = none ∧
          t.core.ord.arrived = [] ∧ t.core.wdg.shPc = pc ∧
          t.core.life.due = dueAt (s.core.life.tick + 1).toNat ∧
          t.core.life.late = s.core.life.late ++ s.core.life.due ∧
          t.core.life.overruns = (leaveLate s.core.life).overruns ∧ t.core.pins.twShed = tw ∧ t.pending = s.pending)
        ∧ (s.core.life.st = .dormant → ∃ t, exec (.mergeTick pc tw bad) s = .next t ∧ t.core.life.st = .dormant ∧
          t.core.life.tick = s.core.life.tick + 1 ∧ t.core.life.us = s.core.life.us + 10 ∧ t.win.pend = none ∧
          t.core.ord.arrived = [] ∧ t.core.wdg.shPc = pc ∧ t.core.life.due = s.core.life.due ∧
          t.core.ldg.ch = s.core.ldg.ch ∧ t.core.ldg.closeNo = s.core.ldg.closeNo ∧ t.img = t.core)
        ∧ (s.core.life.st = .safeHold → ∃ t, exec (.mergeTick pc tw bad) s = .next t ∧ t.core.life.st = .safeHold ∧
          t.core.life.tick = s.core.life.tick ∧ t.core.life.us = s.core.life.us + 10 ∧ t.win.pend = none ∧
          t.core.wdg.shPc = pc ∧ t.img = t.core))
      ∧ (∀ (s : State) (l : LifeG) (now : Bool), s.core.life.st = .run →
        (takeTurn s.core.life .close = none → ∀ ok, exec (.ledgerClose ok) s = .next s)
          ∧ (takeTurn s.core.life .close = some (l, now) → noResetRaised s.core →
            ∃ t, exec (.ledgerClose true) s = .next t ∧ t.core.life.st = .run ∧
            t.core.ldg.closeNo = s.core.ldg.closeNo + 1 ∧
            (∀ x ∈ t.core.ldg.ch.toList, x.inPrev = x.inQ ∧ x.outPrev = x.outQ) ∧ t.core.cel.balSw = 0 ∧
            t.core.cel.started = true ∧ t.core.life.due = l.due ∧ t.core.life.late = l.late ∧
            (now = true → l.due = [] → t.img = t.core) ∧ (now = false ∨ l.due ≠ [] → t.img = s.img) ∧
            t.pending = s.pending)
          ∧ (∀ (bad : List Nat) (lost : Bool),
            (takeTurn s.core.life .audit = none → exec (.vaultAudit bad lost) s = .next s) ∧
            (takeTurn s.core.life .audit = some (l, now) → noResetRaised s.core →
              ∃ t, exec (.vaultAudit bad lost) s = .next t ∧ t.core.life.st = .run ∧
              t.core.vlt.auditNo = s.core.vlt.auditNo + 1 ∧ t.core.life.due = l.due ∧ t.core.life.late = l.late ∧
              (s.core.twn.role = .lead → bad ≠ [] → t.core.vlt.pass = false ∧ t.core.vlt.failed = 2 ∧
                t.core.vlt.noRaise = 10 ∧ latched t.core 0x1301 0) ∧ (lost = true → latched t.core 0x1302 0) ∧
              (now = true → l.due = [] → t.img = t.core) ∧ (now = false ∨ l.due ≠ [] → t.img = s.img) ∧
              t.pending = s.pending))
          ∧ (takeTurn s.core.life .plinth = none → exec .plinthCycleStart s = .next s)
          ∧ (takeTurn s.core.life .plinth = some (l, now) → ∃ t, exec .plinthCycleStart s = .next t ∧
            t.core.plb.cycle = BitVec.ofNat 32 (s.core.life.tick.toNat / 100) ∧
            (∀ p ∈ t.core.plb.p.toList, p.used = 0 ∧ p.morePolls = 0 ∧ p.slotNow = 0) ∧
            t.core.life.due = l.due ∧ t.core.life.late = l.late ∧
            (now = true → l.due = [] → t.img = t.core) ∧ (now = false ∨ l.due ≠ [] → t.img = s.img) ∧
            t.core.vlt.recs = s.core.vlt.recs ∧ t.core.vlt.sup = s.core.vlt.sup ∧ t.core.path = s.core.path ∧ t.core.ord.s = s.core.ord.s ∧ t.pending = s.pending))

/-! ### The Window Port (chapter 19) -/

/-- A write frame spells its words: the header, the length and the CRC check, and the data words come back as they went in
(Table 19-2, R494, R495; 64 words have the count byte 0). -/
def Obligations.WriteFramesCarryTheirWords : Prop :=
  ∀ (op : Byte) (addr : Nat) (ws : List (BitVec 32)), op = 0x02 ∨ op = 0x06 → addr % 4 = 0 → 1 ≤ ws.length →
    ws.length ≤ 64 → addr + 4 * ws.length ≤ 0x8000 →
    winHead (writeFrame op addr ws).bytes = some { op := op, addr := addr, n := 4 * ws.length } ∧
      winMalformed (writeFrame op addr ws) = false ∧ winHeaderFails (writeFrame op addr ws) = false ∧
      winWriteFails (writeFrame op addr ws) = false ∧ winWords (writeFrame op addr ws) = ws

/-- A read and an identity transaction that are well formed answer from the image and change nothing of the controller: only
the port notes the status it will show, the bytes it drove, and the image it froze. A malformed transaction and one whose
header CRC fails are reported: status bit, count and attention cause [2]. In Boot identity alone is answered, and in Off and
Reset nothing is driven (R493, R496, R498, R506). -/
def Obligations.ReadsAnswerFromTheImage : Prop :=
  ∀ (f : WinFrame) (s : State),
    (∀ h : WinHead, winHead f.bytes = some h → winMalformed f = false → winHeaderFails f = false →
        s.core.life.st = .run ∨ s.core.life.st = .dormant ∨ s.core.life.st = .safeHold →
        (h.op = 0x0B →
          exec (.snapshotRead f) s = .next { s with win := { s.win with
            sdo := sdoBytes s.img (s.win.status.zeroExtend 8) f, status := (if s.img.pins.attn then 0x10 else 0)
            frozen := s.img.life.imgNo } }) ∧
        (h.op = 0x9F →
          exec (.identity f) s = .next { s with win := { s.win with
            sdo := sdoBytes s.img (s.win.status.zeroExtend 8) f
            status := (if s.img.pins.attn then 0x10 else 0) } }))
      ∧ (s.core.life.st = .run → winMalformed f = true → winHeaderFails f = false →
        ∃ t, exec (.snapshotRead f) s = .next t ∧ t.win.status.getLsbD 1 = true ∧ t.win.pend = s.win.pend ∧
          t.core.ord.attnNew = putBit s.core.ord.attnNew 2 true ∧
          t.core = { s.core with ord := { s.core.ord with err := t.core.ord.err, attnNew := t.core.ord.attnNew } })
      ∧ (s.core.life.st = .run → winMalformed f = false → winHeaderFails f = true →
        ∃ t, exec (.identity f) s = .next t ∧ t.win.status.getLsbD 3 = true ∧ t.win.frozen = s.win.frozen ∧
          t.core.ord.attnNew = putBit s.core.ord.attnNew 2 true)
      ∧ (s.core.life.st = .boot → f.bytes.head? ≠ some 0x9F →
        exec (.snapshotRead f) s = .next { s with win := { s.win with sdo := [], status := 0 } })
      ∧ (s.core.life.st = .off ∨ s.core.life.st = .reset →
        exec (.snapshotRead f) s = .next { s with win := { s.win with sdo := [] } })

/-- A write that is well formed and whose CRC passes waits for the next merge tick; one that finds another waiting is
discarded with OVR, and one whose CRC fails with WCRC (R501, R507, R510). -/
def Obligations.WritesWaitForTheMergeTick : Prop :=
  ∀ (f : WinFrame) (h : WinHead) (s : State), winHead f.bytes = some h → winMalformed f = false →
    winHeaderFails f = false → s.core.life.st = .run →
    (winWriteFails f = false → s.win.pend = none →
        (h.op = 0x06 → ∃ t, exec (.w1cAcknowledgeWrite f) s = .next t ∧ t.core = s.core ∧
          t.win.pend = some { w1c := true, addr := h.addr, words := winWords f, tick := s.win.frozen } ∧
          t.img = s.img ∧ t.pending = s.pending) ∧
        (h.op = 0x02 → (∀ i, i < h.n / 4 → wordRefused s.core (h.addr + 4 * i) = false) →
          ∃ t, exec (.orderWrite f) s = .next t ∧ t.core = s.core ∧
          t.win.pend = some { w1c := false, addr := h.addr, words := winWords f, tick := s.win.frozen } ∧
          t.img = s.img ∧ t.pending = s.pending))
      ∧ (winWriteFails f = false → s.win.pend.isSome = true → h.op = 0x02 →
        ∃ t, exec (.orderWrite f) s = .next t ∧ t.win.pend = s.win.pend ∧ t.win.status.getLsbD 5 = true ∧
          t.core.ord.attnNew = putBit s.core.ord.attnNew 2 true)
      ∧ (winWriteFails f = true → h.op = 0x06 →
        ∃ t, exec (.w1cAcknowledgeWrite f) s = .next t ∧ t.win.pend = s.win.pend ∧ t.win.status.getLsbD 0 = true ∧
          t.core.ord.attnNew = putBit s.core.ord.attnNew 2 true)

/-- An acknowledge waits for the next merge tick as the one pending write (R34, R501), and what it carries clears the New
bits it names, and none of a latch struck after the image the host last read (R552); nothing else of a latch changes, and an acknowledge word of the cause registers clears only the bits written as 1. -/
def Obligations.AcknowledgeClearsWhatWasSeen : Prop :=
  ∀ (mask : BitVec 64) (s : State), portOpen s.core = true →
    (s.win.pend = none →
        ∃ t, exec (.newmapAcknowledge mask) s = .next t ∧
          t = { s with win := { s.win with pend := t.win.pend }, core := wakeBegin s.core false } ∧
          ∀ w, t.win.pend = some w → w.tick = s.win.frozen ∧ w.w1c = true ∧
            ∀ e : Fin 64, ((writeWords w).foldl (fun c x => ackWord c x.1 x.2 w.tick) s.core).flt.l[e] =
              (s.core.flt.l[e]).map fun x =>
                { x with new_ := x.new_ && !(mask.getLsbD e && decide (x.tick ≤ s.win.frozen)) })
      ∧ (s.win.pend.isSome = true → ∃ t, exec (.newmapAcknowledge mask) s = .next t ∧ t.win.pend = s.win.pend ∧
        t.win.status.getLsbD 5 = true ∧ t.core.flt = s.core.flt)
      ∧ ∀ (a : Nat) (v : BitVec 32) (n : BitVec 64),
        (regKind a = .w1cReset → ackWord s.core a v n = { s.core with
          life := { s.core.life with rstCause := s.core.life.rstCause &&& ~~~(v.truncate 9) } }) ∧
        (regKind a = .w1cAttn → ackWord s.core a v n = { s.core with
          ord := { s.core.ord with attn := s.core.ord.attn &&& ~~~(v.truncate 7) } }) ∧
        (regKind a = .ro → ackWord s.core a v n = s.core)

/-! ### Orders (chapter 18) -/

/-- Every order waits for the next merge tick in Run and Dormant, behind the orders before it, with the slot of Table 18-2 and
its whole value: nothing else changes until the merge. In Safe Hold the reset order alone is taken; another host order is
refused with REFUSED (R110, R490). In Boot and Reset no order is. -/
def Obligations.OrdersWaitForTheMerge : Prop :=
  ∀ (m : Master) (v : BitVec 32) (s : State),
    (s.core.life.st = .run ∨ s.core.life.st = .dormant →
      exec (.inputPriorityOrder m v) s = .next (s.queued m 0 v) ∧
      exec (.sysFloorOrder m v) s = .next (s.queued m 1 v) ∧
      exec (.mainInputCurrentLimitOrder m v) s = .next (s.queued m 2 v) ∧
      exec (.chargeCurrentCeilingOrder m v) s = .next (s.queued m 3 v) ∧
      exec (.chargeVoltageCeilingOrder m v) s = .next (s.queued m 4 v) ∧
      exec (.chargeInhibitOrder m v) s = .next (s.queued m 5 v) ∧
      (∀ ch : Fin 8, exec (.loadSwitchOrder m ch v) s = .next (s.queued m (6 + ch.val) v)) ∧
      exec (.pdSourceEnableOrder m .a v) s = .next (s.queued m 14 v) ∧
      exec (.pdSourceEnableOrder m .b v) s = .next (s.queued m 15 v) ∧
      exec (.tokenPoolCapOrder m v) s = .next (s.queued m 16 v) ∧
      (∀ p : Fin 4, exec (.shedOrder m p v) s = .next (s.queued m (17 + p.val) v)) ∧
      exec (.dormantInhibitOrder m v) s = .next (s.queued m 21 v) ∧
      exec (.mainExportOrder v) s = .next (s.queued .host 22 v) ∧
      exec (.resetOrder v) s = .next (s.queued .host 23 v) ∧
      exec (.restartOrder m v) s = .next (s.queued m 24 v) ∧
      exec (.dormantRequestOrder v) s = .next (s.queued .host 25 v) ∧
      exec (.roleHandoverOrder v) s = .next (s.queued .host 26 v) ∧
      exec (.plannedDetachOrder v) s = .next (s.queued .host 27 v) ∧
      exec (.reattachOrder v) s = .next (s.queued .host 28 v) ∧
      exec (.ownerHandoverOrder v) s = .next (s.queued .host 29 v) ∧
      exec (.clearSupervisorOrders v) s = .next (s.queued .host 30 v))
      ∧ (s.core.life.st = .safeHold →
        exec (.resetOrder v) s = .next (s.queued .host 23 v) ∧
        (∃ t, exec (.chargeInhibitOrder .host v) s = .next t ∧ t.win.status.getLsbD 2 = true ∧
          t.core.ord.arrived = s.core.ord.arrived ∧ t.core.ord.s = s.core.ord.s ∧
          t.core.ord.attnNew = putBit s.core.ord.attnNew 2 true))
      ∧ (s.core.life.st = .boot ∨ s.core.life.st = .reset → exec (.resetOrder v) s = .next s)

/-- The merge makes a host order that is in range and not locked the host's standing order, accepts it, and forms the merged
value; a locked slot stays at its Maquette value and the order is answered "locked" (R477, R479, R483, R484). -/
def Obligations.MergeTakesAHostOrder : Prop :=
  ∀ (k : Nat) (v : BitVec 32) (c : Core), k < 23 → c.life.st = .run → c.twn.role ≠ .follow → v ≠ withdrawValue →
    c.ord.arrived = [{ m := .host, slot := k, v := v }] → valueOk c k v = true →
    (slotLocked c k = false →
        (slotOf (orderMerge c) k).host = some v ∧ (slotOf (orderMerge c) k).res = some .accepted ∧
        (slotOf (orderMerge c) k).merged = mergeValue c k (slotOf (orderMerge c) k) ∧
        (orderMerge c).ord.arrived = [] ∧ (orderMerge c).path = c.path)
      ∧ (slotLocked c k = true →
        (slotOf (orderMerge c) k).host = (slotOf c k).host ∧ (slotOf (orderMerge c) k).res = some .locked ∧
        (orderMerge c).ord.attnNew.getLsbD 1 = true)

/-- How standing orders meet in a slot: the lowest ceiling, off above on, inhibit above none, the host above the supervisor
in a ranked slot; a locked slot takes no order (R477, R480, R488). No merged value of a ceiling slot exceeds its Maquette
cap: an order above it is accepted, is flagged as clamped, and has no effect beyond the cap (R481). -/
def Obligations.StandingOrdersMeetByKind : Prop :=
  ∀ (k : Nat) (c : Core) (x : SlotG),
    (slotKind k = .onOff → slotLocked c k = false → x.host = some 0 ∨ x.sup = some 0 → mergeValue c k x = 0) ∧
    (slotKind k = .onOff → slotLocked c k = false → x.host = some 1 → x.sup ≠ some 0 → mergeValue c k x = 1) ∧
    (slotKind k = .inhibit → slotLocked c k = false → x.host = some 1 ∨ x.sup = some 1 → mergeValue c k x = 1) ∧
    (slotKind k = .ranked → slotLocked c k = false → ∀ v, x.host = some v → mergeValue c k x = v) ∧
    (slotKind k = .ranked → slotLocked c k = false → x.host = none → ∀ v, x.sup = some v → mergeValue c k x = v) ∧
    (slotKind k = .ceiling → slotLocked c k = false → ∀ v w, x.host = some v → x.sup = some w →
      v.toNat ≤ slotMaquette c k → mergeValue c k x = if v.toNat ≤ w.toNat then v else w) ∧
    (slotLocked c k = true → mergeValue c k x = mergeValue c k {}) ∧
    (slotKind k = .ceiling → c.life.st = .run → c.twn.role ≠ .follow → slotMaquette c k < 2 ^ 32 →
      (slotOf (formMerged c) k).merged.toNat ≤ slotMaquette c k ∧
      (∀ v : BitVec 32, (slotOf c k).host = some v → slotMaquette c k < v.toNat →
        (slotOf (formMerged c) k).clamped = true) ∧
      ∀ v : BitVec 32, mergedResult c [{ m := .host, slot := k, v := v }] { m := .host, slot := k, v := v } = .accepted)

/-! ### The vault (chapter 13) -/

/-- In each column, F + G + T is the pool (R339): every step keeps it. -/
def Obligations.VaultColumnsBalance : Prop :=
  ∀ s t : State, s.core.vlt.sup.balanced = true → s.core.vlt.ret.balanced = true → step s = .next t →
    t.core.vlt.sup.balanced = true ∧ t.core.vlt.ret.balanced = true

/-- Tokens move as Table 13-2 gives: a lease that ends returns the level to F, a delivered lowering that times out returns its tokens in
transit, an Isolated port all of them, a raising GRANT that was never delivered gives its tokens back, and no other account moves. A request that has waited
its limit is deferred with reason 1 and leaves the account; a deficit that has been carried for its second is recalled by the
next audit; a discharge overrun sheds exactly the ports that hold an outstanding recall. Bursts, throttling and enforcement:
the end of a burst's window ends that burst and begins its pause, the end of the pause ends it, the grace ends with a recall of
what stands above the throttled levels, and enforcement sheds and releases ports. -/
def Obligations.TokensReturnAndWaitsEnd : Prop :=
  (∀ (a : Nat) (k : Column) (s : State), s.core.life.st = .run →
      (∃ t, exec (.leaseEnd a k) s = .next t ∧ t = { s with core := { s.core with vlt := t.core.vlt } } ∧
          ((t.core.vlt.acct a).col k).level = 0 ∧ ((t.core.vlt.acct a).col k).leaseEnd = none ∧
          (t.core.vlt.tot k).g = (s.core.vlt.tot k).g - ((s.core.vlt.acct a).col k).level ∧
          (∀ b, b ≠ a → t.core.vlt.acct b = s.core.vlt.acct b))
        ∧ (∀ (n : Nat) (r : List Nat), ((s.core.vlt.acct a).col k).done = n :: r → n ≤ ((s.core.vlt.acct a).col k).lower →
          ∃ t, exec (.loweringTimeout a k) s = .next t ∧ t = { s with core := { s.core with vlt := t.core.vlt } } ∧
          ((t.core.vlt.acct a).col k).lower = ((s.core.vlt.acct a).col k).lower - n ∧
          ((t.core.vlt.acct a).col k).done = r ∧
          ((t.core.vlt.acct a).col k).level = ((s.core.vlt.acct a).col k).level ∧
          (t.core.vlt.tot k).f = (s.core.vlt.tot k).f + n ∧ (t.core.vlt.tot k).t = (s.core.vlt.tot k).t - n ∧
          (t.core.vlt.tot k).g = (s.core.vlt.tot k).g ∧ (∀ b, b ≠ a → t.core.vlt.acct b = s.core.vlt.acct b))
        ∧ (((s.core.vlt.acct a).col k).done = [] →
          ∃ t, exec (.loweringTimeout a k) s = .next t ∧ t = { s with core := { s.core with vlt := t.core.vlt } } ∧
          ((t.core.vlt.acct a).col k).lower =
            (if (s.core.plbPort (acctPort a)).st = .isolated then 0 else ((s.core.vlt.acct a).col k).lower) ∧
          ((t.core.vlt.acct a).col k).level = ((s.core.vlt.acct a).col k).level ∧
          (t.core.vlt.tot k).g = (s.core.vlt.tot k).g ∧ (∀ b, b ≠ a → t.core.vlt.acct b = s.core.vlt.acct b))
        ∧ (raiseWaiting s.core a k = false →
          ∃ t, exec (.grantUndeliveredTimeout a k) s = .next t ∧
          t = { s with core := { s.core with vlt := t.core.vlt } } ∧
          ((t.core.vlt.acct a).col k) = { (s.core.vlt.acct a).col k with raise := 0 } ∧
          (t.core.vlt.tot k).f = (s.core.vlt.tot k).f + ((s.core.vlt.acct a).col k).raise ∧
          (∀ b, b ≠ a → t.core.vlt.acct b = s.core.vlt.acct b))
        ∧ (∀ r, ((s.core.vlt.acct a).col k).req = some r →
          ∃ t, exec (.requestWaitLimit a k) s = .next t ∧ ((t.core.vlt.acct a).col k).req = none ∧
            t.core.vlt.nDefer = s.core.vlt.nDefer + 1 ∧ ((t.core.vlt.acct a).col k).level = ((s.core.vlt.acct a).col k).level ∧
            t.core.vlt.tot k = s.core.vlt.tot k ∧ busOnly s t)
        ∧ ((s.core.vlt.tot k).carrySince.isSome = true →
          ∃ t, exec (.deficitCarryExpiry k) s = .next t ∧ t = { s with core := { s.core with vlt := t.core.vlt } } ∧
            t.core.vlt.tot k = { s.core.vlt.tot k with carryOut := true } ∧ t.core.vlt.recs = s.core.vlt.recs)
        ∧ (∃ t, exec .dischargeOverrun s = .next t ∧
            t = { s with core := { s.core with plb := { s.core.plb with p := t.core.plb.p } } } ∧
            ∀ p : Fin 4, t.core.plb.p[p] = { s.core.plb.p[p] with
              byVault := s.core.plb.p[p].byVault || recallOutstanding s.core p.val }))
      ∧ (∀ (a : Nat) (s : State), s.core.life.st = .run →
        (∃ t, exec (.burstWindowEnd a) s = .next t ∧ t = { s with core := { s.core with vlt := t.core.vlt } } ∧
            (∀ r, (a, r) ∈ t.core.vlt.recs → r.burst = none) ∧
            (∀ r, (a, r) ∈ s.core.vlt.recs → r.burst.isSome = true →
              (a, { r with burst := none, pause := true }) ∈ t.core.vlt.recs) ∧
            (∀ b r, b ≠ a → ((b, r) ∈ t.core.vlt.recs ↔ (b, r) ∈ s.core.vlt.recs)))
          ∧ (∃ t, exec (.burstPauseEnd a) s = .next t ∧ t = { s with core := { s.core with vlt := t.core.vlt } } ∧
            t.core.vlt.acct a = { s.core.vlt.acct a with pause := false } ∧
            (∀ b, b ≠ a → t.core.vlt.acct b = s.core.vlt.acct b))
          ∧ (s.core.vlt.throt = true →
            ∃ t, exec .throttleGraceEnd s = .next t ∧ t.core.vlt.grace = false ∧ t.core.vlt.throt = true ∧
              t.core.vlt.graceEnd = some s.core.life.tick.toNat ∧
              ((∀ r ∈ s.core.vlt.recs, r.1 < 4064) → busOnly s t))
          ∧ (∀ iss : Int, enforces s.core = true → (105 * enforceTarget s.core : Nat) < 100 * iss →
            ∃ t, exec (.enforcementOverdraw iss) s = .next t ∧ t.core.vlt.enforce = true ∧
              (∀ p : Fin 4, (∀ q : Fin 4, overdrawing s.core q.val = false) → portPresent s.core p.val = true →
                t.core.plb.p[p].byThrot = true) ∧
              (∀ p : Fin 4, overdrawing s.core p.val = true → t.core.plb.p[p].byThrot = true) ∧ busOnly s t)
          ∧ (∃ t, exec .enforcementRelease s = .next t ∧ t.core.vlt.enforce = false ∧
              (∀ p : Fin 4, t.core.plb.p[p] = { s.core.plb.p[p] with byThrot := false }) ∧ busOnly s t))

/-! ### The Plinth Bus (chapter 12) -/

/-- A frame that can stand on the line is read back as it was sent: SOF, length, source and CRC hold, and no bit of it is
dropped (Table 12-2, R313). -/
def Obligations.PlinthFramesRoundTrip : Prop :=
  ∀ f : Frame, f.fits = true → frameOf (frameBytes f) = some f

/-- What an enrolled partner's answer to a poll does: its request or return request waits for the audit, its burst request
too, its release lowers the level at once, its status is kept, and the supervisor's order waits for the merge. -/
def Obligations.PartnersMessagesAreTaken : Prop :=
  ∀ (p : Fin 4) (f : Frame) (m : PlbMsg) (s : State), m.type = 0x02 →
    (partnerOf s.core p.val m.dest.toNat).enrolled = true → m.seq = some (f.ctl.truncate 4) →
    (Answers s.core p f m 0x23 4 → acctActive s.core (respAcct p m.dest.toNat f) = true →
        (s.core.vlt.acct (respAcct p m.dest.toNat f)).supSeq ≠ some (f.payload.getD 2 0) →
        ∃ t, exec (.request p f) s = .next t ∧ busOnly s t ∧
          (∃ q, (t.core.vlt.acct (respAcct p m.dest.toNat f)).sup.req = some q ∧
            q.tokens = Nat.min (fieldAt f.payload 0 2) (acctHead s.core (respAcct p m.dest.toNat f)) ∧
            q.seq = f.payload.getD 2 0 ∧ q.age = 0) ∧
          (t.core.vlt.acct (respAcct p m.dest.toNat f)).sup.level =
            (s.core.vlt.acct (respAcct p m.dest.toNat f)).sup.level)
      ∧ (Answers s.core p f m 0x25 4 → acctActive s.core (respAcct p m.dest.toNat f) = true →
        (s.core.vlt.acct (respAcct p m.dest.toNat f)).retSeq ≠ some (f.payload.getD 2 0) →
        ∃ t, exec (.returnReq p f) s = .next t ∧ busOnly s t ∧
          (∃ q, (t.core.vlt.acct (respAcct p m.dest.toNat f)).ret.req = some q ∧
            q.tokens = Nat.min (fieldAt f.payload 0 2) (acctHead s.core (respAcct p m.dest.toNat f))))
      ∧ (Answers s.core p f m 0x24 8 → acctActive s.core (respAcct p m.dest.toNat f) = true →
        (s.core.vlt.acct (respAcct p m.dest.toNat f)).supSeq ≠ some (f.payload.getD 6 0) →
        ∃ t, exec (.burstReq p f) s = .next t ∧ busOnly s t ∧
          (t.core.vlt.acct (respAcct p m.dest.toNat f)).burstReq =
            some { e := fieldAt f.payload 0 4, d := fieldAt f.payload 4 2, seq := f.payload.getD 6 0 })
      ∧ (Answers s.core p f m 0x26 4 → acctActive s.core (respAcct p m.dest.toNat f) = true →
        ∃ t, exec (.release p f) s = .next t ∧ busOnly s t ∧
          (t.core.vlt.acct (respAcct p m.dest.toNat f)).sup.level =
            Nat.min (s.core.vlt.acct (respAcct p m.dest.toNat f)).sup.level (fieldAt f.payload 0 2))
      ∧ (Answers s.core p f m 0x21 8 → disobeys s.core p.val m.dest.toNat (fieldAt f.payload 0 2) (fieldAt f.payload 2 2) = false →
        ∃ t, exec (.status p f) s = .next t ∧ busOnly s t ∧ t.core.vlt.recs = s.core.vlt.recs ∧
          (partnerOf t.core p.val m.dest.toNat).draw = some (fieldAt f.payload 0 2, fieldAt f.payload 2 2) ∧
          (partnerOf t.core p.val m.dest.toNat).misses = 0)
      ∧ (Answers s.core p f m 0x27 8 → s.core.maq.plbs.superv = some (respAcct p m.dest.toNat f) →
        ∀ k, slotIx (fieldAt f.payload 0 2) = some k →
        ∃ t, exec (.order p f) s = .next t ∧ busOnly s t ∧
          ∃ src, t.core.ord.arrived = s.core.ord.arrived ++ [{ m := .supervisor, slot := k
                                                               v := BitVec.ofNat 32 (fieldAt f.payload 4 4), src := src }])

/-- An ENROL that answers an INVITE is welcomed where nothing refuses it and refused otherwise; a missed response counts, and
the eighth makes an enrolled partner Absent with its levels in transit; a collided address is invited again. A Restricted port
repeats its recall, a SHED line ends its minimum and goes only once no cause stands, and a line that does not read as commanded
is faulted with the port's accounts recalled. -/
def Obligations.EnrolmentAbsenceAndShedding : Prop :=
  (∀ (p : Fin 4) (f : Frame) (m : PlbMsg) (s : State),
      (Answers s.core p f m 0x22 12 → m.type = 0x03 →
          ∃ t, exec (.enrol p f) s = .next t ∧ busOnly s t ∧
            (partnerOf t.core p.val m.dest.toNat).kind = (f.payload.getD 2 0).toNat ∧
            (partnerOf t.core p.val m.dest.toNat).serial = (f.payload.drop 4).take 8 ∧
            ∃ x ∈ (t.core.plbPort p.val).queue, x.dest = m.dest ∧
              x.type = (if refuseReason s.core p.val m.dest.toNat f = 0 then 0x04 else 0x05))
        ∧ (∀ addr : Byte, s.core.life.st = .run → (s.core.plbPort p.val).await = some m →
          (s.core.plbPort p.val).slotAddr = some addr →
          ∃ t, exec (.responseMiss p addr false) s = .next t ∧ busOnly s t ∧
            (t.core.plbPort p.val).await = none ∧ (t.core.plbPort p.val).misses = (s.core.plbPort p.val).misses + 1 ∧
            (partnerOf t.core p.val addr.toNat).misses = min 255 ((partnerOf s.core p.val addr.toNat).misses + 1) ∧
            ((partnerOf s.core p.val addr.toNat).enrolled = true → 7 ≤ (partnerOf s.core p.val addr.toNat).misses →
              (partnerOf t.core p.val addr.toNat).absent = true ∧ (partnerOf t.core p.val addr.toNat).enrolled = false))
        ∧ (∀ addr : Byte, s.core.life.st = .run →
          ∃ t, exec (.collisionReinvite p addr) s = .next t ∧ busOnly s t ∧
            partnerOf t.core p.val addr.toNat =
              { partnerOf s.core p.val addr.toNat with collision := false, corrupt := 0 } ∧
            t.core.vlt = s.core.vlt))
      ∧ (∀ (p : Fin 4) (s : State), s.core.life.st = .run → (s.core.plbPort p.val).st ≠ .isolated →
        ((s.core.plbPort p.val).st = .restricted →
            ∃ t, exec (.restrictedRecallRepeat p) s = .next t ∧ busOnly s t ∧
              (∃ x ∈ (t.core.plbPort p.val).queue, x.dest = 0xFF ∧ x.type = 0x09) ∧
              ∀ a ∈ portAccts s.core p.val, (t.core.vlt.acct a).sup.level = 0 ∧ (t.core.vlt.acct a).ret.level = 0)
          ∧ (∃ t, exec (.shedMinimumExpiry p) s = .next t ∧
              t = { s with core := { s.core with plb := { s.core.plb with p := t.core.plb.p } } } ∧
              t.core.plbPort p.val = { s.core.plbPort p.val with
                shedMin := false, shed := (s.core.plbPort p.val).shed && (s.core.plbPort p.val).shedCause } ∧
              ∀ q : Fin 4, q ≠ p → t.core.plbPort q.val = s.core.plbPort q.val)
          ∧ ((s.core.plbPort p.val).shed = true → noResetRaised s.core →
            ∃ t, exec (.shedLineReadbackMismatch p) s = .next t ∧ (t.core.plbPort p.val).lineFault = true ∧
              latched t.core 0x1202 (BitVec.ofNat 8 (p.val + 1)) ∧
              ∀ a ∈ portAccts s.core p.val, (t.core.vlt.acct a).sup.level = 0)
          ∧ ((s.core.plbPort p.val).shed = false → s.core.pins.twShed.getLsbD p.val = true →
            exec (.shedLineUncommanded p) s = .next s)
          ∧ ((s.core.plbPort p.val).shed = false → s.core.pins.twShed.getLsbD p.val = false → noResetRaised s.core →
            ∃ t, exec (.shedLineUncommanded p) s = .next t ∧ (t.core.plbPort p.val).uncommanded = true ∧
              latched t.core 0x1203 (BitVec.ofNat 8 (p.val + 1)) ∧
              ∀ a ∈ portAccts s.core p.val, (t.core.vlt.acct a).sup.level = 0)
          ∧ ((s.core.plbPort p.val).uncommanded = true →
            ∃ t, exec (.shedLineUncommandedCleared p) s = .next t ∧ (t.core.plbPort p.val).uncommanded = false ∧
              faultActive t.core 0x1203 (BitVec.ofNat 8 (p.val + 1)) = false ∧ t.core.vlt = s.core.vlt ∧
              t.core.path = s.core.path))

/-- A slot: the BEACON opens the cycle on a port of a Lead with a medium, in slot 15 an expected address is invited, an
enrolled partner is polled where no message waits, and an Isolated port, a port without a medium or a controller that is not
Lead drives nothing (R315, R316, R329, R331). -/
def Obligations.SlotsDriveFrames : Prop :=
  ∀ (p : Fin 4) (s : State), s.core.life.st = .run →
    (s.core.twn.role = .lead → hasMedium s.core p.val = true → (s.core.plbPort p.val).st = .active →
        (s.core.plbPort p.val).tec ≤ 95 →
        (∀ bad rep : Bool, ∃ t, exec (.pollSlotStart p 0 bad rep) s = .next t ∧ busOnly s t ∧
          (t.core.plbPort p.val).sent = [beacon s.core p.val] ∧ (t.core.plbPort p.val).await = none ∧
          (t.core.plbPort p.val).tec =
            (if bad then (s.core.plbPort p.val).tec + 8 else (s.core.plbPort p.val).tec - 1)) ∧
        (∀ a, nextInvite s.core p.val = some a →
          ∃ t, exec (.pollSlotStart p 15 false false) s = .next t ∧ busOnly s t ∧
            ∃ x, (t.core.plbPort p.val).sent = [x] ∧ x.type = 0x03 ∧ x.dest = BitVec.ofNat 8 a ∧ x.src = 0) ∧
        (∀ (n : Fin 16) (a : Nat), n ≠ 0 → n ≠ 15 → (s.core.plbPort p.val).queue = [] →
          nextMore (s.core.plbPort p.val) = none → nextPoll (s.core.plbPort p.val) = some a →
          ∃ t, exec (.pollSlotStart p n false false) s = .next t ∧ busOnly s t ∧
            (t.core.plbPort p.val).pollAt = a ∧
            ∃ x, (t.core.plbPort p.val).sent = [x] ∧ x.type = 0x02 ∧ x.dest = BitVec.ofNat 8 a))
      ∧ (s.core.twn.role ≠ .lead ∨ hasMedium s.core p.val = false ∨ (s.core.plbPort p.val).st = .isolated →
        ∀ (n : Fin 16) (bad rep : Bool), ∃ t, exec (.pollSlotStart p n bad rep) s = .next t ∧ busOnly s t ∧
          (t.core.plbPort p.val).sent = [] ∧ (t.core.plbPort p.val).tec = (s.core.plbPort p.val).tec)

/-! ### The power path (chapter 05) -/

/-- An input that may qualify does, and nothing else changes; its requalification delay ends. An input that is lost while
active, with no other to follow, leaves no active input: its pair is off, the converter is not switching, and the change is
path-driven. The fast overvoltage trip opens the MAIN pair at once and starts its delay (R135–R137, R161). Each fault of Table
05-5 is latched with its instance, and its reaction stands: gates off and the stage down where the row is class A, the input
disconnected for t_RQ at a reverse current, discharge or linear charging stopped where it says so. -/
def Obligations.InputsAndPathFaults : Prop :=
  (∀ (p : PdId) (i : Inp) (s : State), s.core.life.st = .run →
      (mayQualify s.core .main = true →
          exec .mainQualified s = .next (s.withInput .main fun x => { x with qual := true }))
        ∧ (mayQualify s.core (pdInp p) = true →
          exec (.pdInputQualified p) s = .next (s.withInput (pdInp p) fun x => { x with qual := true }))
        ∧ exec (.requalificationDelayEnd i) s = .next (s.withInput i fun x => { x with trq := false })
        ∧ (s.core.path.xfer = none → s.core.path.export_ = none → s.core.path.exOff = none →
          (s.core.path.active ≠ some .main →
            exec .mainDisqualified s = .next (s.withInput .main fun x => { x with qual := false })) ∧
          (s.core.path.active ≠ some (pdInp p) →
            exec (.pdInputDisqualified p) s = .next (s.withInput (pdInp p) fun x => { x with qual := false })) ∧
          (s.core.path.active = some .main → pathFree s.core = true → (∀ j, j ≠ .main → selectable s.core j = false) →
            ∃ t, exec .mainDisqualified s = .next t ∧ t.core.path.active = none ∧ t.core.path.xfer = none ∧
              (t.core.path.inp .main).qual = false ∧ (t.core.path.inp .main).pair = false ∧
              t.core.gdr.st ≠ .switching ∧ t.core.life.pathDriven = true ∧ t.core.vlt = s.core.vlt ∧
              t.core.ldg = s.core.ldg ∧ t.core.otp = s.core.otp) ∧
          (s.core.path.active = some (pdInp p) → pathFree s.core = true →
            (∀ j, j ≠ pdInp p → selectable s.core j = false) →
            ∃ t, exec (.pdInputDisqualified p) s = .next t ∧ t.core.path.active = none ∧
              (t.core.path.inp (pdInp p)).qual = false ∧ (t.core.path.inp (pdInp p)).pair = false))
        ∧ (∃ t, exec .fastInputOvervoltageTrip s = .next t ∧ (t.core.path.inp .main).trq = true ∧
            (t.core.path.inp .main).qual = false ∧
            (s.core.path.export_ = none → (t.core.path.inp .main).pair = false) ∧
            ∀ e, s.core.path.export_ = some e → e.port = .main → t.core.path.export_ = none))
      ∧ (∀ s : State, s.core.life.st = .run → noResetRaised s.core →
        (∀ i, pairWaiting s.core = some i →
            ∃ t, exec .pairNotConfirmedOff s = .next t ∧ latched t.core 0x0203 (BitVec.ofNat 8 (inpIx i + 1)) ∧
              stageDown t.core ∧ t.core.path.held = true ∧ t.core.path.active = none ∧ t.core.path.batfet = .full ∧
              ∀ x ∈ t.core.path.inputs.toList, x.pair = false)
          ∧ (∀ i, s.core.path.active = some i → s.core.path.xfer = none → s.core.path.export_ = none →
            ∃ t, exec .reverseCurrentTrip s = .next t ∧ latched t.core 0x0201 (BitVec.ofNat 8 (inpIx i + 1)) ∧
              (t.core.path.inp i).pair = false ∧ (t.core.path.inp i).trq = true ∧ (t.core.path.inp i).qual = false)
          ∧ (s.core.path.batfet = .off →
            ∃ t, exec .batfetNotOff s = .next t ∧ latched t.core 0x0205 0 ∧ stageDown t.core ∧
              t.core.path.held = true ∧ ∀ x ∈ t.core.path.inputs.toList, x.pair = false)
          ∧ (s.core.path.batfet = .full →
            ∃ t, exec .batfetDropFault s = .next t ∧ latched t.core 0x0206 0 ∧ t.core.path.dropFault = true)
          ∧ (s.core.path.batfet = .linear →
            ∃ t, exec .linearDissipationFault s = .next t ∧ latched t.core 0x0207 0 ∧ t.core.path.linFault = true ∧
              t.core.path.batfet = .off)
          ∧ ∃ t, exec .vcpUndervoltage s = .next t ∧ latched t.core 0x0208 0 ∧ stageDown t.core ∧
              t.core.path.held = true ∧ t.core.path.batfet = .off ∧ ∀ x ∈ t.core.path.inputs.toList, x.pair = false)

/-- A transfer breaks before it makes (Table 05-2): once the outgoing pair is confirmed off the incoming pair turns on if the
node has drained, else it waits for the drain; confirmed on, the incoming input is active with its limit from 0; complete, the
full limit stands and the transfer is counted; at the bound it is given up with its input disqualified. -/
def Obligations.TransfersBreakBeforeMake : Prop :=
  ∀ (x : Xfer) (s : State), s.core.life.st = .run → s.core.path.xfer = some x → s.core.path.export_ = none →
    s.core.path.exOff = none → s.core.path.exportWait = none →
    (x.step = .outOff → drained s.core x.inc = false →
        exec .pairConfirmedOff s = .next (s.withPath { s.core.path with
          xfer := some { x with step := .drain }, offWait := none }))
      ∧ (x.step = .outOff → drained s.core x.inc = true →
        ∃ t, exec .pairConfirmedOff s = .next t ∧ t.core.path.xfer = some { x with step := .inOn } ∧
          (t.core.path.inp x.inc).pair = true ∧ (t.core.path.inp x.inc).pairInClose = true ∧
          t.core.gdr.st ≠ .switching ∧ t.core.path.active = s.core.path.active)
      ∧ (x.step = .drain →
        ∃ t, exec .vcinDrainEnd s = .next t ∧ t.core.path.xfer = some { x with step := .inOn } ∧
          (t.core.path.inp x.inc).pair = true ∧ t.core.gdr.st ≠ .switching)
      ∧ (x.step = .inOn → (x.out = none → noResetRaised s.core) →
        ∃ t, exec .pairConfirmedOn s = .next t ∧ t.core.path.active = some x.inc ∧ t.core.path.iLim = 0 ∧
          t.core.path.xfer = some { x with step := .ramp } ∧ t.core.path.inputs = s.core.path.inputs ∧
          (x.out = none → t.core.life.pathDriven = true))
      ∧ (x.step = .ramp →
        ∃ t, exec .transferComplete s = .next t ∧ t.core.path.xfer = none ∧
          t.core.path.iLim = inputLimit s.core x.inc ∧ t.core.path.floorSusp = false ∧
          (x.out ≠ none → t.core.path.xferCnt = min 65535 (s.core.path.xferCnt + 1) ∧ t.core.chg.iTgt = 0) ∧
          (x.out = none → t.core.path.xferCnt = s.core.path.xferCnt ∧ t.core.chg = s.core.chg))
      ∧ (x.step ≠ .ramp → noResetRaised s.core →
        ∃ t, exec .transferBoundExpiry s = .next t ∧ t.core.path.active = none ∧ t.core.path.xfer = none ∧
          (t.core.path.inp x.inc).pair = false ∧ (t.core.path.inp x.inc).qual = false ∧
          (t.core.path.inp x.inc).trq = true ∧ t.core.path.xferAbt = min 65535 (s.core.path.xferAbt + 1) ∧
          latched t.core 0x0204 (BitVec.ofNat 8 (inpIx x.inc + 1)))

/-- An export starts with its pair on only once VCIN has reached its voltage, is active once the pair is confirmed on, and is
abandoned, with the pair off, the converter parked and its tokens in transit, where it cannot hold (Table 05-4, R156). -/
def Obligations.ExportsStartAndEnd : Prop :=
  ∀ (e : Export) (s : State), s.core.life.st = .run → s.core.path.export_ = some e →
    (e.step = .ramp →
        ∃ t, exec .exportVcinReached s = .next t ∧ t.core.path.export_ = some { e with step := .pairOn } ∧
          (t.core.path.inp e.port.inp).pair = true ∧ t.core = { s.core with path := t.core.path })
      ∧ (e.step = .pairOn → e.port = .main →
        exec .exportPairConfirmedOn s = .next { s with core := { s.core with
          path := { s.core.path with export_ := some { e with step := .active } }
          life := { s.core.life with pathDriven := true } } })
      ∧ (e.step = .pairOn → e.port ≠ .main →
        ∃ t, exec .exportPairConfirmedOn s = .next t ∧ t.core.path = { s.core.path with
          export_ := some { e with step := .active } } ∧ t.core.life.pathDriven = true)
      ∧ (∀ p, e.step = .pairOn → e.port.pd = some p → noResetRaised s.core →
        ∃ t, exec .exportPairNotConfirmedOn s = .next t ∧ t.core.path.export_ = none ∧
          latched t.core (pdFaultCode p 5) 0 ∧ (t.core.port p).att = .errorRecovery)
      ∧ (e.step = .pairOn → e.port = .main →
        ∃ t, exec .exportPairNotConfirmedOn s = .next t ∧ t.core.path.export_ = none ∧
          (t.core.path.inp .main).pair = false ∧ t.core.gdr.st ≠ .switching)
      ∧ ∃ t, exec .exportFloorTimeout s = .next t ∧ t.core.path.export_ = none ∧ t.core.path.exportWait = none ∧
          (t.core.path.inp e.port.inp).pair = false ∧ t.core.gdr.st ≠ .switching ∧
          t.core.path.exOff = some e.port ∧ (t.core.vlt.acct e.port.acct).sup.level = 0 ∧
          (t.core.vlt.acct e.port.acct).sup.lower =
            (s.core.vlt.acct e.port.acct).sup.lower + (s.core.vlt.acct e.port.acct).sup.level ∧
          t.core.life.pathDriven = true

/-- The BATFET follows Table 05-3 in Run and Table 04-4 in Safe Hold: each of these commands changes the path alone. -/
def Obligations.BatfetFollowsItsTable : Prop :=
  ∀ s : State,
    (s.core.life.st = .run → s.core.path.active ≠ none → s.core.path.xfer = none → s.core.path.batfet = .full →
        s.core.path.held = false → s.core.path.collapsed = false →
        exec .batfetLinearEntry s = .next (s.withPath { s.core.path with
          batfet := if s.core.path.linFault then .off else .linear }))
      ∧ (s.core.life.st = .run → s.core.path.batfet = .full → s.core.path.collapsed = true →
        exec .batfetFullyOn s = .next (s.withPath { s.core.path with collapsed := false }))
      ∧ (s.core.life.st = .run → s.core.path.batfet = .linear → s.core.path.uvOpen = false →
        s.core.path.linFault = false → s.core.path.held = false →
        exec .batfetFullyOn s = .next (s.withPath { s.core.path with batfet := .full, collapsed := false }) ∧
        (s.core.path.active ≠ none →
          exec .sysCollapse s = .next (s.withPath { s.core.path with
            batfet := .full, collapsed := true, collapse := min 65535 (s.core.path.collapse + 1) })))
      ∧ (s.core.life.st = .run → s.core.path.active ≠ none → s.core.path.batfet = .off →
        exec .sysCollapse s = .next (s.withPath { s.core.path with
          floorSusp := true, collapse := min 65535 (s.core.path.collapse + 1) }))
      ∧ (s.core.life.st = .run → s.core.path.active ≠ none → s.core.path.batfet = .full →
        s.core.path.collapsed = true →
        exec .collapseRecovery s = .next (s.withPath { s.core.path with batfet := .linear, collapsed := false }))
      ∧ (s.core.life.st = .run ∨ s.core.life.st = .dormant → s.core.path.active = none → s.core.path.batfet = .full →
        undervoltage s.core = true →
        exec .batfetUndervoltageOpening s = .next (s.withPath { s.core.path with batfet := .off, uvOpen := true }))
      ∧ (s.core.life.st = .safeHold →
        ((s.core.path.inp .main).qual = false →
          (s.core.path.held = false → exec .safeHoldMainQualified s = .next (s.withPath
            { s.core.path.updInp .main (fun x => { x with qual := true }) with
              gbtWait := true, shGpmWait := false, batfet := .off })) ∧
          (s.core.path.held = true → exec .safeHoldMainQualified s = .next (s.withInput .main fun x =>
            { x with qual := true }))) ∧
        exec .safeHoldBatfetTrip s = .next (s.withPath { s.core.path with batfet := .off, shTrip := true }) ∧
        (s.core.path.held = true → exec .pairConfirmedOff s = .next s) ∧
        (s.core.path.gbtWait = true → s.core.path.held = false →
          ∃ t, exec .pairConfirmedOff s = .next t ∧ t.core.path.active = some .main ∧
            (t.core.path.inp .main).pair = true ∧
            (s.core.life.klnLost = false → s.core.life.pwmLock = true → inChisel s.core.gdr = false →
              t.core.path.shConv = true ∧ t.core.gdr.st = .switching ∧
              t.core.path.shSoft = min s.core.meas.vsys 36000) ∧
            (s.core.life.klnLost = true ∨ s.core.life.pwmLock = false →
              t.core.path.shConv = false ∧ t.core.gdr = s.core.gdr)) ∧
        ((s.core.path.inp .main).qual = true →
          ∃ t, exec .safeHoldMainLost s = .next t ∧ t.core.path.shConv = false ∧
            t.core.path.shGpmWait = !s.core.path.held ∧
            (t.core.path.inp .main).qual = false ∧ (t.core.path.inp .main).pair = false ∧
            t.core.path.active = none ∧ t.core.gdr.st = .stopped))

/-! ### The converter stage (chapter 08) -/

/-- The pulse ledger of every switch accounts for every count: what was commanded since the last close is what was emitted,
cancelled and clamped, and what stands in the residue (R268, R269). Every step keeps it. -/
def Obligations.PulseLedgersBalance : Prop :=
  ∀ s t : State, s.pulsesBalance = true → step s = .next t → t.pulsesBalance = true

/-- A period of a running or calibrating phase carries out the commands of its four switches: each pulse command adds its
width to the commanded count, no switch emits more than the period, each residue stays within one period, the other phases'
switches stand, and the phase current is the sensed voltage over the on-resistance estimate of its switch (R215–R218, R227,
R241). A phase due for Backstop enters it, its residues cancelled (R236, R252). Samples that have not arrived are counted
(R256). -/
def Obligations.PeriodsCarryOutTheirCommands : Prop :=
  ∀ (n : Fin 4) (smp : LoopSample) (s : State), s.core.life.st = .run → s.core.gdr.st = .switching →
    (s.core.gdr.ph[n].st = .run ∨ s.core.gdr.ph[n].st = .calibrating) → s.core.loop.runs = [] →
    (noResetRaised s.core → ∃ t, exec (.switchingPeriodStart n smp) s = .next t ∧
      t.core.loop.adcMiss = min 4294967295
        (s.core.loop.adcMiss + missing (firstPhase s.core == some n.val) smp)) ∧
    (missing true smp = 0 → s.core.gdr.ph[n].bsNext = true →
      ∃ t, exec (.switchingPeriodStart n smp) s = .next t ∧ t.core.gdr.ph[n].backstop = true ∧
        t.core.gdr.ph[n].bsNext = false ∧ ∀ e : Fin 16, e.val / 4 = n.val → t.core.gdr.sw[e].residue = 0) ∧
    (missing true smp = 0 → s.core.gdr.ph[n].bsNext = false →
    ∃ t, exec (.switchingPeriodStart n smp) s = .next t ∧ t.core.life.st = .run ∧
      (∀ uv, smp.vds = some uv → t.core.gdr.ph[n].i = senseCurrent t.core n.val uv) ∧
      t.core.gdr.st = .switching ∧
      (∀ e : Fin 16, e.val / 4 = n.val →
        vget t.core.gdr.sw[e].cnt 0 0 = vget s.core.gdr.sw[e].cnt 0 0 +
          (if s.core.gdr.sw[e].resolve.kind = .pulse then (s.core.gdr.sw[e].resolve.w : Int) else 0) ∧
        t.core.gdr.sw[e].cmd = s.core.gdr.sw[e].resolve ∧
        t.core.gdr.sw[e].emitted ≤ s.core.maq.stag.period ∧
        t.core.gdr.sw[e].residue.natAbs ≤ s.core.maq.stag.period ∧
        (t.core.gdr.sw[e].on = true → s.core.gdr.sw[e].resolve.kind = .on)) ∧
      (∀ e : Fin 16, e.val / 4 ≠ n.val → t.core.gdr.sw[e] = s.core.gdr.sw[e]) ∧
      t.core.vlt = s.core.vlt ∧ t.core.path = s.core.path ∧ t.core.ldg = s.core.ldg)

/-- Overcurrent and a gate stuck on take the whole stage through Chisel Off with their cause, a gate stuck off and a bootstrap
that stays low take their phase; the first stuck period only counts (R225, R228, Table 08-6). A loop that overruns, and one
that meets an illegal word or operand, is stopped with its result held and counted; the fourth overrun in a row latches
Backstop, which a phase loop's phase enters at its next period start (R251, R252, R254, R255). -/
def Obligations.StageAndLoopFaultsTurnOff : Prop :=
  (∀ (n : Fin 4) (e : Fin 16) (v : Nat) (s : State), s.core.life.st = .run → noResetRaised s.core →
      (∀ k : Fin 4, s.core.maq.stag.iOc * (vget s.core.gdr.sw (4 * n.val + k.val) {}).rEst < 10 * v →
          ∃ t, exec (.phaseOvercurrent n k v) s = .next t ∧ stageDown t.core ∧ t.core.gdr.cause = 1 ∧
          t.core.gdr.causePh = n.val + 1 ∧ latched t.core 0x0A01 (BitVec.ofNat 8 (n.val + 1)))
        ∧ (nPresent s.core * s.core.maq.stag.iOc * 110 < v → (∀ p ∈ s.core.gdr.ph.toList, p.st ≠ .calibrating) →
          ∃ t, exec (.stageOvercurrent v) s = .next t ∧ stageDown t.core ∧ t.core.gdr.cause = 2 ∧
          t.core.gdr.causePh = 0 ∧ latched t.core 0x0A02 0)
        ∧ (s.core.maq.stag.iOc * 110 < v → (∃ p ∈ s.core.gdr.ph.toList, p.st = .calibrating) →
          ∃ t, exec (.stageOvercurrent v) s = .next t ∧ stageDown t.core ∧ t.core.gdr.cause = 2)
        ∧ ((vget s.core.gdr.ph (e.val / 4) {}).live = true → 1500 < v →
          (s.core.gdr.sw[e].stuckOn = 0 →
            ∃ t, exec (.readBackWindowEnd e false v) s = .next t ∧ t.core.gdr.sw[e].stuckOn = 1 ∧
              t.core.gdr.sw[e].stuck = true ∧ t.core.gdr.st = s.core.gdr.st ∧ t.core.flt = s.core.flt) ∧
          (1 ≤ s.core.gdr.sw[e].stuckOn →
            ∃ t, exec (.readBackWindowEnd e false v) s = .next t ∧ stageDown t.core ∧ t.core.gdr.cause = 3 ∧
              t.core.gdr.causePh = e.val / 4 + 1 ∧ latched t.core 0x0A03 (BitVec.ofNat 8 (e.val / 4 + 1))))
        ∧ (s.core.gdr.st = .switching → e.val % 4 = 0 ∨ e.val % 4 = 3 →
          (vget s.core.gdr.ph (e.val / 4) {}).st = .run ∨ (vget s.core.gdr.ph (e.val / 4) {}).st = .calibrating →
          (∃ t, exec (.bootstrapRefresh e true) s = .next t ∧
            t = { s with core := { s.core with gdr := { s.core.gdr with
              sw := t.core.gdr.sw, boot := t.core.gdr.boot } } } ∧
            t.core.gdr.sw[e] = { s.core.gdr.sw[e] with refDue := true } ∧
            ∀ k : Fin 16, k ≠ e → t.core.gdr.sw[k] = s.core.gdr.sw[k]) ∧
          ∃ t, exec (.bootstrapRefresh e false) s = .next t ∧
            latched t.core 0x0A05 (BitVec.ofNat 8 (e.val / 4 + 1)) ∧ (vget t.core.gdr.ph (e.val / 4) {}).live = false))
      ∧ (∀ (r : LoopRun) (s : State), s.core.life.st = .run → s.core.loop.runs.head? = some r → noResetRaised s.core →
        (∀ n : Nat, pastWorst s.core r (max r.cycles n) = true →
          ∃ t, exec (.loopOverrun r.desc n) s = .next t ∧ (∀ x ∈ t.core.loop.runs, x.desc ≠ r.desc) ∧
            t.core.loop.d[r.desc].ovr = min (s.core.loop.d[r.desc].ovr + 1) 16777215 ∧
            t.core.loop.d[r.desc].consec = min 4 (s.core.loop.d[r.desc].consec + 1) ∧
            t.core.loop.d[r.desc].out = s.core.loop.d[r.desc].out ∧
            (s.core.loop.d[r.desc].consec = 3 → r.desc.val < 4 →
              (vget s.core.gdr.ph r.desc.val {}).backstop = false → (vget s.core.gdr.ph r.desc.val {}).bsNext = false →
              t.core.loop.latched = true ∧ (vget t.core.gdr.ph r.desc.val {}).bsNext = true ∧
              latched t.core 0x0B02 (BitVec.ofNat 8 (r.desc.val + 1))))
          ∧ (∃ t, exec .illegalInstruction s = .next t ∧ (∀ x ∈ t.core.loop.runs, x.desc ≠ r.desc) ∧
            t.core.loop.d[r.desc].ovr = min (s.core.loop.d[r.desc].ovr + 1) 16777215 ∧
            latched t.core 0x0B03 (BitVec.ofNat 8 r.desc.val)))

/-- Chisel Off runs its two steps and ends with the gates off, on the way into Reset too, where the path gates and load
switches follow once no phase is left in step 1 (R57, R129); a precharge sends each phase whose bootstraps stand on to its
calibration or its run and faults the others; a calibration run that measures within its bounds sets the estimates of its
phase (Tables 08-4 and 08-5, R229, R230). -/
def Obligations.PhasesStartAndStop : Prop :=
  ∀ (n : Fin 4) (s : State),
    (s.core.life.st = .reset →
        (∃ t, exec (.chiselOffStep2 n) s = .next t ∧ t = { s with core := { s.core with outs := t.core.outs } } ∧
          t.core.outs.ph[n] = (if s.core.outs.ph[n] = .chisel1 then .chisel2 else s.core.outs.ph[n]) ∧
          ((∀ p ∈ t.core.outs.ph.toList, p ≠ .chisel1) → t.core.outs.batfet = .off ∧ t.core.outs.lsw = 0 ∧
            ∀ x ∈ t.core.outs.pairs.toList, x = false)) ∧
        ∃ t, exec (.chiselOffComplete n) s = .next t ∧ t = { s with core := { s.core with outs := t.core.outs } } ∧
          t.core.outs.ph[n] = (if s.core.outs.ph[n] = .chisel2 then .off else s.core.outs.ph[n]))
      ∧ (s.core.life.st ≠ .reset → ∃ t, exec (.chiselOffStep2 n) s = .next t ∧
        t = { s with core := { s.core with gdr := { s.core.gdr with ph := t.core.gdr.ph } } } ∧
        t.core.gdr.ph[n] = { s.core.gdr.ph[n] with
          st := if s.core.gdr.ph[n].st = .chisel1 then .chisel2 else s.core.gdr.ph[n].st } ∧
        ∀ k, k ≠ n → t.core.gdr.ph[k] = s.core.gdr.ph[k])
      ∧ (s.core.life.st ≠ .reset → s.core.gdr.ph[n].st = .chisel2 →
        ∃ t, exec (.chiselOffComplete n) s = .next t ∧ t.core.gdr.ph[n].st = .off ∧
          (∀ e : Fin 16, e.val / 4 = n.val → t.core.gdr.sw[e].on = false ∧ t.core.gdr.sw[e].readOn = false) ∧
          (∀ e : Fin 16, e.val / 4 ≠ n.val → t.core.gdr.sw[e] = s.core.gdr.sw[e]) ∧
          t.core.gdr.st = s.core.gdr.st ∧ t.core.path = s.core.path)
      ∧ (s.core.life.st = .run → (∀ k : Fin 4, s.core.gdr.ph[k].st = .precharge) →
        s.core.gdr.starting = true →
        (s.core.gdr.parkAsk = false → (∀ k : Fin 4, s.core.gdr.ph[k].cal = true) →
          ∃ t, exec (.prechargeEnd 0xFF) s = .next t ∧ t.core.gdr.st = .switching ∧ t.core.gdr.boot = 0xFF ∧
            (∀ k : Fin 4, t.core.gdr.ph[k].st = .run) ∧ t.core.flt = s.core.flt ∧
            ∀ e : Fin 16, e.val % 4 = 1 ∨ e.val % 4 = 2 → t.core.gdr.sw[e].on = false) ∧
        (s.core.gdr.parkAsk = false → (∀ k : Fin 4, s.core.gdr.ph[k].cal = false) →
          ∃ t, exec (.prechargeEnd 0xFF) s = .next t ∧ t.core.gdr.st = .switching ∧
            t.core.gdr.ph[(0 : Fin 4)].st = .calibrating ∧
            (∀ k : Fin 4, k ≠ 0 → t.core.gdr.ph[k].st = .waitCal)) ∧
        (s.core.gdr.parkAsk = true →
          ∃ t, exec (.prechargeEnd 0xFF) s = .next t ∧ t.core.gdr.st = .parked ∧
            ∀ k : Fin 4, t.core.gdr.ph[k].st = .waitCal))
      ∧ (∀ (i : Nat) (v : Vector Nat 4), s.core.life.st = .run → s.core.gdr.ph[n].st = .calibrating → 0 < i →
        (∀ j : Fin 4, 200 ≤ v[j] * 1000 / i ∧ v[j] * 1000 / i ≤ 20000) →
        ∃ t, exec (.calibrationRunEnd n v i) s = .next t ∧ t.core.gdr.ph[n].cal = true ∧ t.core.flt = s.core.flt ∧
          ∀ (e : Fin 16) (j : Fin 4), e.val = 4 * n.val + j.val → t.core.gdr.sw[e].rEst = v[j] * 1000 / i)

/-! ### The loop engine (chapter 09) -/

/-- The arithmetic of the microcode (Table 09-2): each instruction, fetched by the run at the head with operands that exist,
writes its result to an X register in its engine cycles and goes on to the next word; nothing else changes. Sums, differences
and products saturate at both ends. Loads, moves, shifts, branches and the end of a run (Table 09-2, R245): immediates scale by
2^8, constants come from the microcode, a state register takes a move as well, a taken branch skips its words, and OUT gives
the loop its output. -/
def Obligations.MicrocodeComputes : Prop :=
  (∀ (dest a b : BitVec 6) (r : LoopRun) (w x y : Word) (s : State), HeadAt s.core r w →
      operand s.core r a = some x → operand s.core r b = some y → dest.toNat < 16 →
      (∀ n : Int, (Word.ofSat n).toInt = max (-2147483648) (min n 2147483647))
        ∧ (isWord2 4 dest a b w = true →
          exec (.add dest a b) s = .next (s.wroteX r dest (Word.ofSat (x.toInt + y.toInt)) 1))
        ∧ (isWord2 5 dest a b w = true →
          exec (.sub dest a b) s = .next (s.wroteX r dest (Word.ofSat (x.toInt - y.toInt)) 1))
        ∧ (isWord2 6 dest a b w = true →
          exec (.mul dest a b) s = .next (s.wroteX r dest (Word.ofSat (x.toInt * y.toInt / 65536)) 2))
        ∧ (isWord2 7 dest a b w = true → ∃ v : Word, v.toInt = min x.toInt y.toInt ∧
          exec (.min dest a b) s = .next (s.wroteX r dest v 1))
        ∧ (isWord2 8 dest a b w = true → ∃ v : Word, v.toInt = max x.toInt y.toInt ∧
          exec (.max dest a b) s = .next (s.wroteX r dest v 1)))
      ∧ (∀ (dest a b : BitVec 6) (r : LoopRun) (w x y : Word) (s : State), HeadAt s.core r w →
        operand s.core r a = some x → operand s.core r b = some y →
        (∀ imm : BitVec 16, dest.toNat < 16 → wordField w 26 6 = (1 : BitVec 6) → wordField w 20 6 = dest →
            wordField w 0 16 = imm →
            ∃ v : Word, v.toInt = imm.toInt * 256 ∧ exec (.ldi dest imm) s = .next (s.wroteX r dest v 1))
          ∧ (∀ (idx : BitVec 12) (k : Word), dest.toNat < 16 → wordField w 26 6 = (2 : BitVec 6) → wordField w 20 6 = dest →
            wordField w 0 12 = idx → s.core.maq.loop.code[idx.toNat]? = some k →
            exec (.ldc dest idx) s = .next (s.wroteX r dest k 2))
          ∧ (isWord 3 dest a w = true →
            (dest.toNat < 16 → exec (.mov dest a) s = .next (s.wroteX r dest x 1)) ∧
            (16 ≤ dest.toNat → dest.toNat < 24 → exec (.mov dest a) s = .next (s.wroteS r dest x 1)))
          ∧ (∀ n : BitVec 6, dest.toNat < 16 → isWord2 9 dest a n w = true →
            ∃ v : Word, v.toInt = x.toInt / 2 ^ n.toNat ∧ exec (.asr dest a n) s = .next (s.wroteX r dest v 1))
          ∧ (∀ skip : BitVec 8, wordField w 26 6 = (10 : BitVec 6) → wordField w 14 6 = a → wordField w 8 6 = b →
            wordField w 0 8 = skip →
            (y.toInt ≤ x.toInt → exec (.blt a b skip) s = .next (s.ran r r.x s.core.loop.d (r.pc + 1) 1)) ∧
            (x.toInt < y.toInt → r.pc + 1 + skip.toNat < s.core.maq.loop.n →
              exec (.blt a b skip) s = .next (s.ran r r.x s.core.loop.d (r.pc + 1 + skip.toNat) 1)))
          ∧ (wordField w 26 6 = (11 : BitVec 6) → wordField w 14 6 = a →
            ∃ t, exec (.out a) s = .next t ∧ t.core.loop.runs = s.core.loop.runs.tail ∧
              t.core.loop.d[r.desc].out = x ∧ t.core.loop.d[r.desc].consec = 0 ∧
              t.core.loop.d[r.desc].s = s.core.loop.d[r.desc].s ∧ t.core.loop.cyc = s.core.loop.cyc + 1 ∧
              t.core.vlt = s.core.vlt ∧ t.core.path = s.core.path))

/-! ### Charger (chapter 06) -/

/-- What the charger's commands do: an evaluation takes the mean pack current and holds the phase while charging is suspended
or a transfer is in progress (R177, R183); otherwise a phase goes on at its qualification count, the 101st evaluation for Cond
and Pre and the 3001st for the end of CV, and a count starts anew where its condition breaks, held or not (Table 06-2, R171,
R173). The timer, the heater limit and a current above the
share are latched with their reactions, and the rest pattern alternates (R176, R178, R181, Table 06-4). -/
def Obligations.ChargerFollowsItsPhases : Prop :=
  ∀ (i : Int) (s : State), s.core.life.st = .run →
    (chargerDecides s.core = true → s.core.chg.newCycle = false → s.core.chg.noWarm = false →
        (phaseHeld s.core = true →
          ∃ t, exec (.chargeEvaluation i) s = .next t ∧
            t = { s with core := { s.core with meas := { s.core.meas with ispAvg := i }, chg := t.core.chg } } ∧
            t.core.chg.phase = s.core.chg.phase ∧
            (suspended s.core = true → t.core.chg.tPre = s.core.chg.tPre ∧ t.core.chg.tBulk = s.core.chg.tBulk) ∧
            t.core.chg.qTerm = (if termHolds s.core i then s.core.chg.qTerm else 0)) ∧
        (phaseHeld s.core = false → s.core.chg.phase = .cond →
          ∃ t, exec (.chargeEvaluation i) s = .next t ∧
            t = { s with core := { s.core with meas := { s.core.meas with ispAvg := i }, chg := t.core.chg } } ∧
            (lowCell s.core < s.core.maq.pack.vCond * 10 → t.core.chg.phase = .cond ∧ t.core.chg.qPh = 0) ∧
            (s.core.maq.pack.vCond * 10 ≤ lowCell s.core → s.core.chg.qPh < 100 →
              t.core.chg.phase = .cond ∧ t.core.chg.qPh = s.core.chg.qPh + 1) ∧
            (s.core.maq.pack.vCond * 10 ≤ lowCell s.core → 100 ≤ s.core.chg.qPh →
              t.core.chg.phase = .pre ∧ t.core.chg.qPh = 0)) ∧
        (phaseHeld s.core = false → s.core.chg.phase = .cv → s.core.life.mode = .charge →
          s.core.maq.pack.vPre * 10 < lowCell s.core + 1000 →
          ∃ t, exec (.chargeEvaluation i) s = .next t ∧
            (termCurrent s.core i < (s.core.maq.pack.iTerm * 10 : Nat) → s.core.chg.qTerm = 3000 →
              t.core.chg.phase = .term ∨ t.core.chg.phase = .balTop) ∧
            (termCurrent s.core i < (s.core.maq.pack.iTerm * 10 : Nat) → s.core.chg.qTerm < 3000 →
              t.core.chg.phase = .cv ∧ t.core.chg.qTerm = s.core.chg.qTerm + 1) ∧
            ((s.core.maq.pack.iTerm * 10 : Nat) ≤ termCurrent s.core i →
              t.core.chg.phase = .cv ∧ t.core.chg.qTerm = 0)))
      ∧ (chargerDecides s.core = true → s.core.chg.phase = .cond ∨ s.core.chg.phase = .pre ∨
          s.core.chg.phase = .bulk ∨ s.core.chg.phase = .cv → noResetRaised s.core →
        ∃ t, exec .chargeTimerExpiry s = .next t ∧ t.core.chg = { s.core.chg with timerFault := true } ∧
          latched t.core 0x0404 0 ∧ t.core.cel = s.core.cel ∧ t.core.ldg = s.core.ldg)
      ∧ (chargerDecides s.core = true → s.core.chg.phase = .bulk → (packEntry s.core).restOn ≠ 0 →
        exec .restPatternEdge s = .next { s with core := { s.core with
          chg := { s.core.chg with restOff := !s.core.chg.restOff } } })
      ∧ (chargerDecides s.core = true → s.core.chg.heater = true → noResetRaised s.core →
        ∃ t, exec .heaterTimeLimit s = .next t ∧
          t.core.chg = { s.core.chg with heater := false, noWarm := true } ∧ latched t.core 0x0406 0)
      ∧ (noResetRaised s.core →
        ∃ t, exec .packCurrentAboveShare s = .next t ∧ t.core.chg = s.core.chg ∧ latched t.core 0x0405 0)

/-! ### Ledger and cell monitor (chapters 07 and 10) -/

/-- Every sample books its charge on its own channel and on no other: the net of a channel that is not isolated moves by the
sample, a missing sample books the one before and is counted (R258, R262, R276); a checkpoint falls due with the next close. -/
def Obligations.SamplesAreBookedOnTheirChannels : Prop :=
  ∀ s : State, s.core.life.st = .run →
    (∀ smp : Sample, ∃ t, exec (.ledgerSample smp) s = .next t ∧
        t = { s with core := { s.core with meas := t.core.meas, lsw := t.core.lsw, ldg := t.core.ldg } } ∧
        t.core.ldg.accN = s.core.ldg.accN + 1 ∧ t.core.meas.vsys = smp.vsys ∧ t.core.meas.vpack = smp.vpack ∧
        ∀ k : Fin 8,
          (smp.got.getLsbD k.val = false → t.core.ldg.ch[k] = s.core.ldg.ch[k]) ∧
          (smp.got.getLsbD k.val = true → s.core.ldg.ch[k].iso = false →
            t.core.ldg.ch[k].net = s.core.ldg.ch[k].net + (sampleCharges s.core smp).getD k.val 0 ∧
            t.core.ldg.ch[k].last = (sampleCharges s.core smp).getD k.val 0 ∧ t.core.ldg.ch[k].missed = false) ∧
          (s.core.ldg.ch[k].iso = true → t.core.ldg.ch[k].net = s.core.ldg.ch[k].net))
      ∧ (∀ k : Fin 8, ∃ t, exec (.missingSample k) s = .next t ∧
        t.core.ldg.ch[k].missed = true ∧
        t.core.ldg.ch[k].missing = min 255 (s.core.ldg.ch[k].missing + 1) ∧
        (s.core.ldg.ch[k].iso = false → t.core.ldg.ch[k].net = s.core.ldg.ch[k].net + s.core.ldg.ch[k].last) ∧
        (∀ j : Fin 8, j ≠ k → t.core.ldg.ch[j] = s.core.ldg.ch[j]) ∧
        (s.core.ldg.ch[k].missed = true → s.core.flt.q.length < 16 →
          blockProbed s.core (probeBlock s.core 0x0803 (BitVec.ofNat 8 k.val)) = false →
          ∃ q ∈ t.core.flt.q, q.code = 0x0803 ∧ q.inst = BitVec.ofNat 8 k.val) ∧
        (s.core.ldg.ch[k].missed = false → t.core.flt = s.core.flt) ∧
        t.core.cel = s.core.cel ∧ t.core.vlt = s.core.vlt)
      ∧ exec .checkpointDue s = .next { s with core := { s.core with ldg := { s.core.ldg with cpWant := true } } }

/-- The two windows of a conversion cycle: the first keeps its conversions and publishes every cell, latches a switch that does
not read as commanded and the overvoltage of a cell; the second judges the diagnostic of its cycle, an open wire by a move
above 500 mV and a channel by its reference injection (Table 07-2, R190, R194, R196, Table 06-4). A correction by the OCV
curve begins where its conditions hold (R203). -/
def Obligations.CellMonitorJudgesItsWindows : Prop :=
  ∀ (cells : List Nat) (stack : Nat) (s : State), s.core.life.st = .run → noResetRaised s.core →
    (∀ d : BitVec 16, ∃ t, exec (.conversionWindowEnd cells stack d) s = .next t ∧ t.core.life.st = .run ∧
        t.core.cel.raw = cells ∧ t.core.cel.rawStack = stack ∧
        (s.core.cel.adopted = 0 → t.core.cel.hist.tail = s.core.cel.hist.take 99 ∧
          t.core.cel.hist.head? = some (cells, stack)) ∧
        t.core.cel.cells.length = s.core.maq.pack.n ∧ t.core.life.scanOwed.getLsbD 0 = false ∧
        (d ≠ 0 → s.core.cel.balFault = false → t.core.cel.balFault = true ∧ latched t.core 0x0607 0) ∧
        (s.core.maq.pack.vOv * 10 < highCell t.core → codeActive t.core 0x0401 = true ∨ t.core.flt.ovfNew = true) ∧
        (t.core.cel.diag ≠ 0 → t.core.cel.balSw = 0) ∧ t.core.ldg.ch = s.core.ldg.ch)
      ∧ (∀ (base : List Nat) (j : Nat), s.core.cel.raw = base →
        s.core.cel.testNow = none → s.core.cel.diag = j + 1 → j ≤ s.core.maq.pack.n → s.core.maq.pack.n ≤ 16 →
        ((∀ k, k + 1 = j ∨ k = j → k < s.core.maq.pack.n → moved base cells k < 50) →
          exec (.diagnosticWindowEnd cells stack) s = .next { s with core := { s.core with
            cel := { s.core.cel with diag := 0, testNow := none, diagPass := true } } }) ∧
        (∀ k, k + 1 = j ∨ k = j → k < s.core.maq.pack.n → 5000 < moved base cells k →
          ∃ t, exec (.diagnosticWindowEnd cells stack) s = .next t ∧ t.core.cel.wireOpen.getLsbD j = true ∧
            t.core.cel.diag = 0 ∧ t.core.cel.diagPass = false ∧ t.core.ldg.ch = s.core.ldg.ch))
      ∧ (∀ k : Fin 16, s.core.cel.testNow = none → s.core.cel.diag = 33 + k.val →
        (cells.getD k.val 0 < 29950 ∨ 30050 < cells.getD k.val 0) →
        ∃ t, exec (.diagnosticWindowEnd cells stack) s = .next t ∧ t.core.cel.chanFlt.getLsbD k.val = true ∧
          t.core.cel.diag = 0 ∧ t.core.cel.diagPass = false)
      ∧ (ocvAllowed s.core = true →
        exec .ocvCorrection s = .next { s with core := { s.core with
          cel := { s.core.cel with ocvMoving := true } } })

/-! ### Records, handover and NVM (chapters 03 and 20) -/

/-- Every step keeps the bytes of the NVM in canonical form. -/
def Obligations.NvmStaysCanonical : Prop :=
  ∀ s t : State, s.nvmOk = true → step s = .next t → t.nvmOk = true

/-- The log and the NVM at work: the scan finds its head sector or a fresh region, a completed operation has changed exactly
what it names, a failed one is latched, a record written stands at the end of its sector with the next number, and the epoch
advances by the fuse of a handover alone (R94, R517, R518, R522, R523, R529, Tables 20-6 and 20-7). In Dormant the NVM has no
clock once the PLLs have stopped (R33). -/
def Obligations.LogAndNvmWorkIsCarriedOut : Prop :=
  ∀ s : State,
    (s.core.life.st = .run → s.core.own.scan = true →
        ∃ t, exec .logScanEnd s = .next t ∧ t.core.own.scan = false ∧ t.core.own.num = 0 ∧
          t.core.own.head = headOf (s.core.nvm.sectors.filter fun x => decide (x.1 < logSectors s.core)) ∧
          (t.core.own.head = none → t.core.own.start = 1) ∧
          (∀ h, t.core.own.head = some h → (sectorOf s.core h).start < t.core.own.start) ∧
          t.core.nvm.cells = s.core.nvm.cells ∧ t.core.nvm.sectors = s.core.nvm.sectors)
      ∧ (s.core.life.st = .dormant → s.core.life.entering = false →
        ∀ ok, exec (.nvmOperationComplete ok) s = .next s)
      ∧ (∀ a, nvmClocked s.core → s.core.nvm.op = some (.erase a) →
        ∃ t, exec (.nvmOperationComplete true) s = .next t ∧ t.core.nvm.sectors = s.core.nvm.sectors ∧
          (∀ x, a ≤ x → x < a + 4096 → nvmByte t.core.nvm.cells x = erased) ∧
          ∀ x, x < a ∨ a + 4096 ≤ x → nvmByte t.core.nvm.cells x = nvmByte s.core.nvm.cells x)
      ∧ (∀ a d, nvmClocked s.core → s.core.nvm.op = some (.program a d) → s.nvmOk = true →
        ∃ t, exec (.nvmOperationComplete true) s = .next t ∧ t.core.nvm.sectors = s.core.nvm.sectors ∧
          (∀ k, k < d.length → nvmByte t.core.nvm.cells (a + k) = d.getD k 0) ∧
          ∀ x, x < a ∨ a + d.length ≤ x → nvmByte t.core.nvm.cells x = nvmByte s.core.nvm.cells x)
      ∧ (∀ (h : Nat) (r : QRec) (q : List QRec), nvmClocked s.core → s.core.nvm.op = some .logRecord → s.core.own.head = some h →
        s.core.own.q = r :: q →
        ∃ t x, exec (.nvmOperationComplete true) s = .next t ∧ t.core.nvm.cells = s.core.nvm.cells ∧
          (sectorOf t.core h).recs = (sectorOf s.core h).recs ++ [x] ∧ x.type = r.type ∧ x.body = r.body ∧
          x.num = s.core.own.num ∧ x.off = (sectorOf s.core h).free ∧ x.torn = false ∧
          (∀ j, j ≠ h → sectorOf t.core j = sectorOf s.core j) ∧ t.core.own.num = s.core.own.num + 1)
      ∧ (∀ o, nvmClocked s.core → s.core.nvm.op = some o → noResetRaised s.core →
        ∃ t, exec (.nvmOperationComplete false) s = .next t ∧ latched t.core 0x1A01 0)
      ∧ (s.core.nvm.op = none → exec (.nvmOperationComplete true) s = .next s)
      ∧ (s.core.own.step = 4 →
        (∃ t, exec (.epochFuseProgrammed true) s = .next t ∧ t.core.own = { s.core.own with step := 5 } ∧
          (s.core.otp.epoch ≠ 2047 → t.core.otp = { s.core.otp with epoch := s.core.otp.epoch + 1 }) ∧
          (s.core.otp.epoch = 2047 → t.core.otp = { s.core.otp with retired := true })) ∧
        (noResetRaised s.core →
          ∃ t, exec (.epochFuseProgrammed false) s = .next t ∧ t.core.own.disabled = true ∧
            t.core.own.step = (if s.core.twn.role = .follow then 6 else 0) ∧ t.core.otp = s.core.otp ∧
            latched t.core 0x1A03 0))
      ∧ (s.core.life.st = .run ∨ s.core.life.st = .dormant →
        exec .eraseCreditAccrual s = .next { s with core := { s.core with
          own := { s.core.own with credit := min 24 (s.core.own.credit + 1) } } })
      ∧ (s.core.life.st = .run →
        ∃ t, exec .patinaRecordDue s = .next t ∧
          t = { s with core := { s.core with own := t.core.own, free := t.core.free } } ∧
          s.core.own.q <+: t.core.own.q ∧
          (s.core.own.keyFault = false → queueUse s.core.own.q + 96 ≤ 16384 →
            ∃ r ∈ t.core.own.q.drop s.core.own.q.length, r.type = .patina))

/-- Staging, provisioning and decryption: a session opens for the copy that is not in use, its chunks are programmed in their
order or discarded and counted, and it ends with the result of its checks or as aborted; fuses are burnt in Safe Hold alone,
and a burn that reads back leaves its fuses blown and none in progress; a decrypt command answers with the record asked for
(R83, R91–R96, R524, R554–R556). -/
def Obligations.StagingAndDecryptionAnswer : Prop :=
  ∀ s : State, s.core.life.st = .run →
    (∀ len : BitVec 32, s.core.mqs.open_ = false →
        ∃ t, exec (.stagingBegin len) s = .next t ∧ t.core.nvm.cells = s.core.nvm.cells ∧
          t.core.mqs.open_ = true ∧ t.core.mqs.len = len.toNat ∧ t.core.mqs.buf = [] ∧
          t.core.mqs.second = s.core.mqs.firstDigest.isSome ∧
          t.core.mqs.targetB = (if s.core.mqs.firstDigest.isSome then s.core.mqs.fromB else !s.core.mqs.fromB) ∧
          t.win = s.win)
      ∧ (∀ (addr : Nat) (data : List Byte),
        (chunkOk s.core addr data.length = true →
          ∃ t, exec (.stagingData addr data) s = .next t ∧ t.core.mqs.buf = s.core.mqs.buf ++ data ∧
            t.core.mqs.discarded = s.core.mqs.discarded ∧
            (t.core.nvm.op = some (.program (copyBase s.core.mqs.targetB + s.core.mqs.buf.length) data) ∨
              .program (copyBase s.core.mqs.targetB + s.core.mqs.buf.length) data ∈ t.core.nvm.queue)) ∧
        (chunkOk s.core addr data.length = false →
          exec (.stagingData addr data) s = .next { s with core := { s.core with
            mqs := { s.core.mqs with discarded := s.core.mqs.discarded + 1 } } }))
      ∧ (s.core.mqs.open_ = true →
        ∃ t, exec .stagingEnd s = .next t ∧ t.core.mqs.open_ = false ∧ t.core.mqs.buf = [] ∧
          (s.core.mqs.second = false →
            t.core.mqs.res1 = passResult s.core ∧
            t.core.mqs.firstDigest =
              (if passResult s.core = 15 then some (imageDigest s.core.mqs.buf) else none)) ∧
          (s.core.mqs.second = true → t.core.mqs.res2 = passResult s.core ∧
            t.core.mqs.res1 = s.core.mqs.res1 ∧ t.core.mqs.firstDigest = none) ∧
          t.core.ord.attnNew.getLsbD 3 = true ∧ t.core.mq = s.core.mq ∧ t.core.nvm = s.core.nvm)
      ∧ (s.core.mqs.open_ = true →
        ∃ t, exec .stagingAbort s = .next t ∧ t.core.mqs.open_ = false ∧ t.core.mqs.buf = [] ∧
          (s.core.mqs.second = false → t.core.mqs.res1 = 14) ∧ (s.core.mqs.second = true → t.core.mqs.res2 = 14) ∧
          t.core.nvm.cells = s.core.nvm.cells ∧ t.core.ord.attnNew.getLsbD 3 = true)
      ∧ (∀ (cmd : BitVec 32) (hs : Vector (BitVec 256) 4), cmd.toNat / 16777216 = 0xC5 → cmd.toNat % 16 ≠ 0 →
        exec (.provisioningOrder cmd hs) s = .next { s with core := { s.core with
          mqs := { s.core.mqs with provRes := 2 } } } ∧
        ∀ u : State, u.core.life.st = .safeHold → u.core.otp.provisioned = false → u.core.otp.burnProv = none →
          (∀ x ∈ u.core.otp.slots.toList, x = none) →
          ∃ t h, exec (.provisioningOrder cmd hs) u = .next t ∧
            t = { u with core := { u.core with otp := { u.core.otp with
              burnProv := some (h, cmd.getLsbD 4, cmd.getLsbD 5) } } } ∧
            ∀ k : Fin 4, h[k] = if cmd.getLsbD k.val then some hs[k] else none)
      ∧ (∀ v : BitVec 32,
        exec (.accsel v) s = .next { s with core := { s.core with
          vlt := { s.core.vlt with dselPend := some (v.toNat % 8192) } } } ∧
        (s.core.own.step = 0 → s.core.own.keyFault = false →
          exec (.decryptCommand v) s = .next { s with core := { s.core with own := { s.core.own with
            dOff := v.toNat % 268435456, dPart := v.toNat / 268435456 % 8, dWin := [], dType := 0, dLen := 0
            dStat := 1 } } }))
      ∧ (s.core.own.dStat = 1 → s.core.own.scan = false → s.core.own.step = 0 →
        ∃ t, exec .decryptComplete s = .next t ∧
          t = { s with core := { s.core with own := { s.core.own with
            dStat := t.core.own.dStat, dType := t.core.own.dType, dLen := t.core.own.dLen
            dWin := t.core.own.dWin } } } ∧
          (recordAt s.core s.core.own.dOff = none → t.core.own.dStat = 3 ∧ t.core.own.dWin = []) ∧
          ∀ r, recordAt s.core s.core.own.dOff = some r → t.core.own.dType = r.type.code ∧
            t.core.own.dLen = r.type.len ∧
            (t.core.own.dStat ≠ 2 → t.core.own.dWin = []) ∧
            (t.core.own.dStat = 2 → r.torn = false ∧ (r.key = 1 → r.epoch = s.core.otp.epoch) ∧
              t.core.own.dWin = (r.body.drop (128 * s.core.own.dPart)).take 128))
      ∧ ∀ u : State,
        (u.core.otp.burnProv = none → u.core.own.step ≠ 3 →
          ∃ t, exec (.otpBurnComplete true) u = .next t ∧
            t = { u with core := { u.core with
              free := t.core.free
              otp := { u.core.otp with
                revoked := u.core.otp.revoked ||| u.core.otp.burnRevoke
                rollback := u.core.otp.burnTo.getD u.core.otp.rollback, burnRevoke := 0, burnTo := none } } }) ∧
        (∀ (h : Vector (Option (BitVec 256)) 4) (w l : Bool), u.core.otp.burnProv = some (h, w, l) →
          (∃ t, exec (.otpBurnComplete true) u = .next t ∧ t.core.otp.provisioned = true ∧
            t.core.otp.burnProv = none ∧ t.core.mqs.provRes = 1 ∧ t.core.otp.wdtHw = (u.core.otp.wdtHw || w) ∧
            t.core.otp.testLock = (u.core.otp.testLock || l) ∧
            (∀ k : Fin 4, u.core.otp.slots[k] = none → t.core.otp.slots[k] = h[k])) ∧
          (∃ t, exec (.otpBurnComplete false) u = .next t ∧ t.core.otp.provisioned = true ∧
            t.core.otp.burnProv = none ∧ t.core.mqs.provRes = 4))

/-! ### Faults and Probes (chapter 11) -/

/-- Probes and their results: a Probe of a phase takes the phase out of operation, one of a missing measurement isolates its
channel where it fails or is not run and leaves it where it passes, a transient ends the reaction of its row and a lasting
phase or load switch channel is isolated; the class A hold-off ends; the rotation waits for a block that is held, counts its
items by their instances, latches one that fails and the memory error that a scrub finds, and marks those that did not run as
overdue; further occurrences become one record (R238, R276, R290, R291, R293–R298, R303). -/
def Obligations.ProbesClassifyFaults : Prop :=
  ∀ s : State, s.core.life.st = .run →
    (∀ n : Fin 4, probeFree s.core 0x0A01 (BitVec.ofNat 8 (n.val + 1)) = true →
        solePhase s.core n.val = false → s.core.gdr.ph[n].st = .off →
        ∃ t, exec (.probeStart 0x0A01 (BitVec.ofNat 8 (n.val + 1))) s = .next t ∧
          t = { s with core := { s.core with flt := { s.core.flt with q := t.core.flt.q }, gdr := t.core.gdr } } ∧
          t.core.gdr.ph[n].st = .probe ∧ (∀ k : Fin 4, k ≠ n → t.core.gdr.ph[k] = s.core.gdr.ph[k]) ∧
          (∀ x ∈ t.core.flt.q, x.code = 0x0A01 → x.inst = BitVec.ofNat 8 (n.val + 1) → x.running = true) ∧
          t.core.flt.q.length = s.core.flt.q.length)
      ∧ (∀ (k : Fin 8) (sec : Nat) (x : ProbeQ), x ∈ s.core.flt.q → x.code = 0x0803 →
        x.inst = BitVec.ofNat 8 k.val → sharing s.core 0x0803 x.inst = [] →
        (x.running = true →
          exec (.probeResult 0x0803 x.inst true sec) s = .next { s with core := dequeue s.core 0x0803 x.inst }) ∧
        (x.running = true → noResetRaised s.core →
          ∃ t, exec (.probeResult 0x0803 x.inst false sec) s = .next t ∧ t.core.ldg.ch[k].iso = true ∧
            t.core.ldg.restarted = true ∧ t.core.ldg.wins = [] ∧ latched t.core 0x0803 x.inst) ∧
        (noResetRaised s.core →
          ∃ t, exec (.probeTimeout 0x0803 x.inst) s = .next t ∧ t.core.ldg.ch[k].iso = true ∧
            latched t.core 0x0803 x.inst))
      ∧ (∀ sec : Nat, (∃ x ∈ s.core.flt.q, x.code = 0x0405 ∧ x.inst = 0 ∧ x.running = true) →
        sharing s.core 0x0405 0 = [] →
        (addTransient (dequeue s.core 0x0405 0) 0x0405 0 sec).2 = false →
        ∃ t, exec (.probeResult 0x0405 0 true sec) s = .next t ∧ faultActive t.core 0x0405 0 = false ∧
          t.core.chg = s.core.chg ∧ ∀ x ∈ t.core.flt.q, x.code ≠ 0x0405 ∨ x.inst ≠ 0)
      ∧ (∀ (n : Fin 4) (sec : Nat),
        (∃ x ∈ s.core.flt.q, x.code = 0x0A04 ∧ x.inst = BitVec.ofNat 8 (n.val + 1) ∧ x.running = true) →
        sharing s.core 0x0A04 (BitVec.ofNat 8 (n.val + 1)) = [] →
        ∃ t, exec (.probeResult 0x0A04 (BitVec.ofNat 8 (n.val + 1)) false sec) s = .next t ∧
          t.core.gdr.ph[n].iso = true ∧ t.core.gdr.reOffset = true ∧
          ∀ k : Fin 4, k ≠ n → t.core.gdr.ph[k] = s.core.gdr.ph[k])
      ∧ (∀ (n : Fin 8) (sec : Nat),
        (∃ x ∈ s.core.flt.q, x.code = 0x0E01 ∧ x.inst = BitVec.ofNat 8 (n.val + 1) ∧ x.running = true) →
        sharing s.core 0x0E01 (BitVec.ofNat 8 (n.val + 1)) = [] →
        ∃ t, exec (.probeResult 0x0E01 (BitVec.ofNat 8 (n.val + 1)) false sec) s = .next t ∧
          t.core.lsw.ch[n] = { s.core.lsw.ch[n] with iso := true })
      ∧ (s.core.gdr.holdOff = true →
        (restartDue { s.core with gdr := { s.core.gdr with holdOff := false } } = false →
          exec .holdOffExpiry s = .next { s with core := { s.core with
            gdr := { s.core.gdr with holdOff := false } } }) ∧
        (restartDue { s.core with gdr := { s.core.gdr with holdOff := false } } = true →
          stageMayStart { s.core with gdr := { s.core.gdr with holdOff := false } } = true →
          ∃ t, exec .holdOffExpiry s = .next t ∧ t.core.gdr.st = .parked ∧ t.core.gdr.holdOff = false ∧
            t.core.gdr.starting = true ∧ t.core.path.held = false ∧
            ∀ n : Fin 4, phasePresent s.core n.val = true → t.core.gdr.ph[n].st = .precharge))
      ∧ (∀ (item : Fin 10) (inst : BitVec 8), s.core.maq.fltr.probes = true →
        (rotationSkips s.core (item.val + 1) inst = false → rotationWaits s.core (item.val + 1) inst = true →
          ∀ (pass : Bool) (scrub : Option (BitVec 8)), exec (.rotationItem item inst pass scrub) s = .next s) ∧
        (rotationSkips s.core (item.val + 1) inst = true →
          ∀ (pass : Bool) (scrub : Option (BitVec 8)),
            exec (.rotationItem item inst pass scrub) s = .next { s with core := rotationRun s.core item inst }) ∧
        (rotationSkips s.core (item.val + 1) inst = false → rotationWaits s.core (item.val + 1) inst = false →
          (∃ t, exec (.rotationItem item inst true none) s = .next t ∧
            t = { s with core := { s.core with
              flt := { s.core.flt with
                rotInst := (item.val + 1, inst) :: s.core.flt.rotInst.filter fun x => x != (item.val + 1, inst)
                rotDone := t.core.flt.rotDone, overdue := t.core.flt.overdue }
              ldg := { s.core.ldg with inject := t.core.ldg.inject }
              gdr := { s.core.gdr with sw := t.core.gdr.sw } } } ∧
            ((∀ i ∈ rotInstances s.core (item.val + 1), i = inst ∨ (item.val + 1, i) ∈ s.core.flt.rotInst) →
              t.core.flt.rotDone = putBit s.core.flt.rotDone item.val true ∧
              t.core.flt.overdue = putBit s.core.flt.overdue item.val false)) ∧
          (classInForce s.core 0x1805 (rotationClass (item.val + 1) inst) ≠ .d → item.val ≠ 9 ∨ noResetRaised s.core →
            ∃ t, exec (.rotationItem item inst false none) s = .next t ∧ (item.val + 1, inst) ∈ t.core.flt.rotInst ∧
              latched t.core 0x1805 (if item.val = 4 then inst else BitVec.ofNat 8 (item.val + 1))) ∧
          (classInForce s.core 0x1805 (rotationClass (item.val + 1) inst) = .d →
            ∃ t, exec (.rotationItem item inst false none) s = .next t ∧ t.core.life.st = .reset) ∧
          (item.val = 4 → noResetRaised s.core → ∀ b : BitVec 8,
            ∃ t, exec (.rotationItem item inst true (some b)) s = .next t ∧
              (b = 1 → latched t.core 0x1804 b) ∧ (b ≠ 1 → t.core.life.st = .reset))))
      ∧ (s.core.maq.fltr.probes = true →
        exec .rotationPeriodEnd s = .next { s with core := { s.core with flt := { s.core.flt with
          overdue := s.core.flt.overdue ||| ~~~ s.core.flt.rotDone, rotDone := 0, rotInst := [], rotStart := s.core.life.us } } })
      ∧ (∀ (code : BitVec 16) (inst : BitVec 8) (n : Nat),
        s.core.flt.coal.find? (fun x => x.1 == code && x.2.1 == inst) = some (code, inst, n) →
        (n = 0 → exec (.recordCoalesceExpiry code inst) s = .next { s with core := { s.core with
          flt := { s.core.flt with coal := s.core.flt.coal.filter fun x => !(x.1 == code && x.2.1 == inst) } } }) ∧
        (n ≠ 0 → ∃ t, exec (.recordCoalesceExpiry code inst) s = .next t ∧ (code, inst, 0) ∈ t.core.flt.coal ∧
          t = { s with core := { s.core with
            flt := { s.core.flt with coal := t.core.flt.coal }, own := t.core.own, free := t.core.free } }))

/-! ### The USB-C ports (chapter 14) -/

/-- Attach and the sink's contract: an unattached port that presents a termination attaches as sink, or as source where it is
ready, with its backing asked for and VCONN and the cable's identity as R391 and R392 give; detach leaves it without contract,
VCONN and mode. A sink requests the first of its objects that the source offers, at the lower of the two currents, or object 1
at 100 mA with Capability Mismatch; Accept and PS_RDY put the contract in force (R375, R377, R378, R380, R384). -/
def Obligations.PortsAttachAndSinksContract : Prop :=
  ∀ (p : PdId) (s : State), s.core.life.st = .run →
    ((s.core.port p).att = .unattached → (s.core.port p).cc ≠ .open_ → ∀ cc2 vin : Bool,
        ((pdCfg s.core p).sink = true →
          exec (.ccAttach p false cc2 vin) s = .next (s.withPort p { s.core.port p with
            att := .sink, cc := .rd, cc2 := cc2, toggling := false })) ∧
        ((s.core.port p).ready = true →
          ∃ t, exec (.ccAttach p true cc2 vin) s = .next t ∧ t = s.withPort p (t.core.port p) ∧
            (t.core.port p).att = .source ∧ (t.core.port p).waitBack = true ∧ (t.core.port p).cc2 = cc2 ∧
            (t.core.port p).asked = tokensFor 5000 (t.core.port p).cc.ma ∧
            (t.core.port p).vconn = mayVconn s.core p vin ∧ (t.core.port p).cableWait = (t.core.port p).vconn ∧
            ((t.core.port p).vconn = true →
              (t.core.port p).sent = (s.core.port p).sent ++ [.discoverIdentitySop1])))
      ∧ ((s.core.port p).attached →
        (∃ t, exec (.ccDetach p) s = .next t ∧ (t.core.port p).att = .unattached ∧ (t.core.port p).quiet ∧
          ∀ e, s.core.path.export_ = some e → e.port = exPort p → t.core.path.export_ = none) ∧
        ∀ b cc2 vin : Bool, exec (.ccAttach p b cc2 vin) s = .next s)
      ∧ ((s.core.port p).toggling = true →
        exec (.drpToggle p) s = .next (s.withPort p { s.core.port p with
          cc := if (s.core.port p).cc = .rd then rpLevel s.core else .rd }))
      ∧ (∀ (ws : List MqPdo) (pdos : List PdoIn) (epr : Bool) (r : PdContract), chooseSink ws pdos epr = some r →
        ∃ w ∈ ws, ∃ q ∈ pdos, q.fixed = true ∧ q.v50 = w.v ∧ r.v50 = w.v ∧ r.i10 = Nat.min w.i q.i10 ∧
          r.epr = epr ∧ r.mismatch = false ∧ 1 ≤ r.pos ∧ r.pos ≤ pdos.length)
      ∧ ((s.core.port p).att = .sink →
        (∀ (pdos : List PdoIn) (eprCap eprList rev2 : Bool),
          ∃ r, exec (.sourceCapabilities p pdos eprCap eprList rev2) s = .next (s.withPort p
              { (s.core.port p).heard.says (.request r.pos r.i10 r.mismatch) with
                caps := pdos, capsEpr := eprCap && !rev2, rev2 := rev2
                epr := eprList && (pdCfg s.core p).epr && !rev2, want := some r }) ∧
            (chooseSink (if eprList && (pdCfg s.core p).epr && !rev2 then (pdCfg s.core p).eprPdo ++ (pdCfg s.core p).spr
                else (pdCfg s.core p).spr) pdos (eprList && (pdCfg s.core p).epr && !rev2) = some r ∨
              (r.pos = 1 ∧ r.i10 = 10 ∧ r.mismatch = true))) ∧
        (∀ r, (s.core.port p).want = some r →
          ((∀ k, (s.core.port p).contract = some k → k.v50 = r.v50) →
            exec (.pdAccept p) s = .next (s.withPort p { (s.core.port p).heard with want := none, trans := some r })) ∧
          (∀ k, (s.core.port p).contract = some k → k.v50 ≠ r.v50 →
            ∃ t, exec (.pdAccept p) s = .next t ∧ (t.core.port p).contract = none ∧
              (t.core.port p).want = none ∧ (t.core.port p).trans = some r ∧
              (t.core.path.inp (pdInp p)).qual = false)) ∧
        (∀ r, (s.core.port p).trans = some r →
          ∃ t, exec (.psRdy p) s = .next t ∧ t = s.withPort p (t.core.port p) ∧
            (t.core.port p).contract = some r ∧ (t.core.port p).trans = none ∧ (t.core.port p).att = .sink) ∧
        ((s.core.port p).epr = true →
          exec (.eprKeepalive p true) s = .next (s.withPort p ((s.core.port p).heard.says .eprKeepAlive)) ∧
          exec (.eprKeepalive p false) s = .next (s.withPort p
            { (s.core.port p).says .eprKeepAlive with epr := false })))

/-- A source's contract, the resets of a port, and its answers to other messages: a request within the offer asks for its
backing and any other is rejected; after t_ST the voltage moves, and at its end PS_RDY puts the contract and its limit in
force; Hard Reset ends contract, export and VCONN; ErrorRecovery ends as unattached; a waiting sequence goes out when t_TX has
passed; swaps but VCONN's are not supported (R373, R381, R386–R388, R390, R391, Table 14-2). -/
def Obligations.SourcesContractAndPortsAnswer : Prop :=
  ∀ (p : PdId) (s : State), s.core.life.st = .run →
    ((s.core.port p).att = .source → pdExporting s.core p = true → ∀ pos i : Nat,
        (∀ v m, 1 ≤ pos → (offerSent (s.core.port p).offer)[pos - 1]? = some (v, m) → i ≤ m →
          (s.core.port p).trans = none →
          ∃ t, exec (.pdRequest p pos i) s = .next t ∧
            (t.core.port p).reqWait = some { v50 := v, i10 := i, pos := pos } ∧
            (pdAcct p, tokensFor (v * 50) (i * 10)) ∈ t.core.vlt.askBack ∧
            (t.core.port p).contract = (s.core.port p).contract ∧ t.core.path = s.core.path ∧
            t.core.vlt.sup = s.core.vlt.sup ∧ t.core.vlt.recs = s.core.vlt.recs) ∧
        (((offerSent (s.core.port p).offer)[pos - 1]? = none ∨ (s.core.port p).trans ≠ none ∨
            ∃ v m, (offerSent (s.core.port p).offer)[pos - 1]? = some (v, m) ∧ m < i) →
          exec (.pdRequest p pos i) s = .next (s.withPort p (s.core.port p).heard.rejected)))
      ∧ (∀ (e : Export) (r : PdContract), s.core.path.export_ = some e → pdExporting s.core p = true →
        (s.core.port p).trans = some r →
        ((s.core.port p).stWait = true →
          exec (.sourceTransitionDelayEnd p) s = .next ((s.withPort p { s.core.port p with stWait := false }).withPath
            { s.core.path with export_ := some { e with volt := r.v50 * 50 } })) ∧
        ((s.core.port p).stWait = false → (s.core.port p).contract ≠ none →
          exec (.vbusTransitionComplete p) s = .next ((s.withPort p { (s.core.port p).says .psRdy with
            contract := some r, trans := none, cc := if (s.core.port p).txWait then .rp15 else .rp30 }).withPath
            { s.core.path with export_ := some { e with limit := r.i10 * 10 } })))
      ∧ ((s.core.port p).att = .sink →
        ∃ t, exec (.hardReset p) s = .next t ∧ (t.core.port p).contract = none ∧ (t.core.port p).att = .sink ∧
          (t.core.port p).alt = false ∧ (t.core.port p).hrRecv = min 255 ((s.core.port p).hrRecv + 1) ∧
          (t.core.path.inp (pdInp p)).qual = false)
      ∧ ((s.core.port p).att = .source →
        ∃ t, exec (.hardReset p) s = .next t ∧ (t.core.port p).quiet ∧ (t.core.port p).att = .source ∧
          (t.core.port p).discharge = true ∧ (t.core.port p).srWait = true ∧
          ∀ e, s.core.path.export_ = some e → e.port = exPort p → t.core.path.export_ = none)
      ∧ ((s.core.port p).discharge = true →
        ((s.core.port p).att = .source →
          ∃ t, exec (.vbusDischargeComplete p) s = .next t ∧ (t.core.port p).att = .errorRecovery ∧
            (t.core.port p).discharge = false ∧ (t.core.port p).quiet ∧ (t.core.port p).cc = .open_) ∧
        ((s.core.port p).att ≠ .source →
          exec (.vbusDischargeComplete p) s = .next (s.withPort p { s.core.port p with discharge := false })))
      ∧ ((s.core.port p).att = .errorRecovery →
        ∃ t, exec (.errorRecoveryEnd p) s = .next t ∧ t = s.withPort p (t.core.port p) ∧
          (t.core.port p).att = .unattached)
      ∧ (∃ t, exec (.sourceRecoveryEnd p) s = .next t ∧ t = s.withPort p (t.core.port p) ∧
        (t.core.port p).srWait = false ∧ (t.core.port p).att = (s.core.port p).att)
      ∧ (∀ m : PdMsg, (s.core.port p).txWait = true → (s.core.port p).txQueue = [m] → m ≠ .hardReset → m ≠ .reject →
        exec (.sinktxngWaitEnd p) s = .next (s.withPort p
          { (s.core.port p).says m with txWait := false, txQueue := [], cc := .rp30 }))
      ∧ ((s.core.port p).attached →
        exec (.prSwap p) s = .next (s.withPort p (s.core.port p).refusesSwap) ∧
        exec (.drSwap p) s = .next (s.withPort p (s.core.port p).refusesSwap) ∧
        exec (.frSwap p) s = .next (s.withPort p (s.core.port p).refusesSwap) ∧
        exec (.unstructuredVdm p) s = .next (s.withPort p ((s.core.port p).heard.says .notSupported)) ∧
        exec (.bist p true) s = .next (s.withPort p ((s.core.port p).heard.says .bistCarrier)) ∧
        exec (.bist p false) s = .next (s.withPort p (s.core.port p).heard) ∧
        ((pdCfg s.core p).sink = true → exec (.getSinkCap p) s = .next (s.withPort p
          ((s.core.port p).heard.says (.sinkCaps ((pdCfg s.core p).spr.map fun d => (d.v, d.i)))))) ∧
        ((pdCfg s.core p).sink = false → exec (.getSinkCap p) s = .next (s.withPort p
          ((s.core.port p).heard.says .notSupported))) ∧
        (pdExporting s.core p = true → exec (.getSourceCap p) s = .next (s.withPort p
          ((s.core.port p).heard.says (.sourceCaps (offerSent (s.core.port p).offer))))) ∧
        (pdExporting s.core p = false → exec (.getSourceCap p) s = .next (s.withPort p
          ((s.core.port p).heard.says .notSupported))) ∧
        ∀ vin : Bool,
          ((s.core.port p).vconn = true → exec (.vconnSwap p vin) s = .next (s.withPort p
            { (s.core.port p).heard.says .accept with vconn := false, cable5 := false })) ∧
          ((s.core.port p).vconn = false → mayVconn s.core p vin = true →
            exec (.vconnSwap p vin) s = .next (s.withPort p { (s.core.port p).heard.says .accept with vconn := true })) ∧
          ((s.core.port p).vconn = false → mayVconn s.core p vin = false →
            exec (.vconnSwap p vin) s = .next (s.withPort p
              { (s.core.port p).heard.rejected with swapsRef := satNat 8 ((s.core.port p).swapsRef + 1) })))

/-- The vendor alternate mode, moisture, and the faults of a port: a sink port answers the discovery and enters the mode where
it is offered, which gives Plinth port 4 its medium; a source asks on; the third wet reading in a row is Damp and ten dry ones
end it; the faults of Table 14-5 are latched and take the port out as its rows give (R392–R397, R338, R53). -/
def Obligations.ModesMoistureAndPortFaults : Prop :=
  ∀ (p : PdId) (s : State), s.core.life.st = .run →
    ((s.core.port p).att = .sink →
        exec (.discoverIdentity p) s = .next (s.withPort p ((s.core.port p).heard.says .ackIdentity)) ∧
        (∀ b : Bool, exec (.discoverSvids p b) s = .next (s.withPort p ((s.core.port p).heard.says
          (.ackSvids (if offersMode s.core p then [Config.svid] else []))))) ∧
        (offersMode s.core p = true →
          exec (.discoverModes p Config.svid) s = .next (s.withPort p ((s.core.port p).heard.says
            (.ackModes (modeVdo s.core)))) ∧
          ∃ t, exec (.enterMode p Config.svid) s = .next t ∧ (t.core.port p).alt = true ∧
            (t.core.plbPort 3).medium = true ∧ (t.core.plbPort 3).st = .active ∧ (t.core.plbPort 3).tec = 0 ∧
            (t.core.port p).sent = (s.core.port p).sent ++ [.ackEnter] ∧ t.core.vlt = s.core.vlt ∧
            ∀ q : Fin 4, q ≠ 3 → t.core.plb.p[q] = s.core.plb.p[q]) ∧
        ∀ v : BitVec 16, v ≠ Config.svid ∨ offersMode s.core p = false →
          exec (.discoverModes p v) s = .next (s.withPort p ((s.core.port p).heard.says .nak)) ∧
          exec (.enterMode p v) s = .next (s.withPort p ((s.core.port p).heard.says .nak)))
      ∧ ((s.core.port p).att = .source → offersMode s.core p = true → (s.core.port p).altListed = true →
        ∃ t, exec (.discoverModes p Config.svid) s = .next t ∧ t = s.withPort p (t.core.port p) ∧
          (t.core.port p).txWait = true ∧ (t.core.port p).txQueue = (s.core.port p).txQueue ++ [.enterMode] ∧
          (t.core.port p).cc = .rp15)
      ∧ ((s.core.port p).attached →
        ((s.core.port p).alt = true → ∃ t, exec (.exitMode p Config.svid) s = .next t ∧
          (t.core.port p).alt = false ∧ (t.core.port p).sent = (s.core.port p).sent ++ [.ackExit] ∧
          (s.core.maq.plbs.route = true → (t.core.plbPort 3).medium = false)) ∧
        ((s.core.port p).alt = false → ∀ v, exec (.exitMode p v) s = .next (s.withPort p
          ((s.core.port p).heard.says .nak))))
      ∧ ((s.core.port p).cableWait = true → pdExporting s.core p = false → ∀ five : Bool,
        exec (.cableIdentityReply p five) s = .next (s.withPort p { (s.core.port p).heard with
          cableWait := false, cable5 := five && (s.core.port p).vconn }) ∧
        exec (.cableDiscoveryTimeout p) s = .next (s.withPort p { s.core.port p with
          cableWait := false, cable5 := false }))
      ∧ (∀ kohm : Vector Nat 4, (pdCfg s.core p).moisture = true → (s.core.port p).iso = false →
        ((s.core.port p).damp = false → (∀ k : Fin 4, (pdCfg s.core p).wet ≤ kohm[k]) →
          ∃ t, exec (.moistureMeasurement p kohm) s = .next t ∧ t = s.withPort p (t.core.port p) ∧
            (t.core.port p).damp = false ∧ (t.core.port p).att = (s.core.port p).att ∧
            ∀ k : Fin 4, (t.core.port p).wet[k] = 0) ∧
        ((s.core.port p).damp = false → ∀ k : Fin 4, pinMeasured (s.core.port p) k.val = true →
          kohm[k] < (pdCfg s.core p).wet → 2 ≤ (s.core.port p).wet[k] →
          ∃ t, exec (.moistureMeasurement p kohm) s = .next t ∧ (t.core.port p).damp = true ∧
            (t.core.port p).att = (if (s.core.port p).att = .outOfService then .outOfService else .damp) ∧ (t.core.port p).quiet ∧ (t.core.port p).cc = .open_ ∧
            (t.core.port p).discharge = decide ((s.core.port p).att = .source)) ∧
        ((s.core.port p).damp = true → 9 ≤ (s.core.port p).dry →
          (∀ k : Fin 4, 2 * (pdCfg s.core p).wet < kohm[k]) →
          ∃ t, exec (.moistureMeasurement p kohm) s = .next t ∧ t = s.withPort p (t.core.port p) ∧
            (t.core.port p).damp = false ∧ (t.core.port p).corroded = false ∧
            (t.core.port p).att = (if (s.core.port p).att = .outOfService then .outOfService else .unattached)))
      ∧ ((s.core.port p).damp = true → (s.core.port p).corroded = false →
        ∃ t, exec (.corrosionTime p) s = .next t ∧ (t.core.port p).corroded = true ∧ (t.core.port p).damp = true ∧
          t.core.flt = s.core.flt)
      ∧ (noResetRaised s.core →
        (pdExporting s.core p = true →
          ∃ t, exec (.vbusOvervoltage p) s = .next t ∧ latched t.core (pdFaultCode p 1) 0 ∧
            (t.core.port p).hold = true ∧ t.core.path.export_ = none ∧ (t.core.port p).discharge = true) ∧
        ((pdCfg s.core p).present = true → (s.core.port p).iso = false →
          ∃ t, exec (.ccSbuOvervoltage p) s = .next t ∧ latched t.core (pdFaultCode p 2) 0 ∧
            (t.core.port p).att = .outOfService ∧ (t.core.port p).quiet ∧ (t.core.port p).cc = .open_) ∧
        ((s.core.port p).vconn = true →
          ∃ t, exec (.vconnTrip p) s = .next t ∧ latched t.core (pdFaultCode p 3) 0 ∧
            (t.core.port p).vconn = false ∧ (t.core.port p).cable5 = false) ∧
        ((s.core.port p).attached →
          ∃ t, exec (.bmcReadbackMismatch p) s = .next t ∧ latched t.core (pdFaultCode p 4) 0 ∧
            (t.core.port p).att = .errorRecovery ∧ (t.core.port p).quiet))
      ∧ ((s.core.port p).att = .outOfService →
        (faultActive s.core (pdFaultCode p 2) 0 = true →
          exec (.ccSbuOvervoltageRecovery p) s = .next (s.withPort p { s.core.port p with ovClear := true })) ∧
        (faultActive s.core (pdFaultCode p 2) 0 = false →
          ∃ t, exec (.ccSbuOvervoltageRecovery p) s = .next t ∧ t = s.withPort p (t.core.port p) ∧
            (t.core.port p).att = (if (s.core.port p).damp = true then .damp else .unattached)))

/-! ### Load switches (chapter 15) -/

/-- A channel that trips is off and waits for its retry, and with its retries used up its fault is latched; a retry counts
while the channel is asked for, and a second without a trip clears the count; undervoltage of LSWIN turns every channel off;
the open load and free-wheel tests latch their rows; several channels start in turn (R411, R413–R416, R418–R421, R425). -/
def Obligations.LoadSwitchesTripAndRetry : Prop :=
  ∀ (n : Fin 8) (s : State), s.core.life.st = .run →
    (s.core.lsw.ch[n].on = true → s.core.lsw.ch[n].noWheel = false →
        (s.core.lsw.ch[n].retries < (lswCfg s.core n.val).retries →
          (∃ t, exec (.currentLimitTimeout n) s = .next t ∧ t = s.withChannel n t.core.lsw.ch[n] ∧
            t.core.lsw.ch[n].on = false ∧ t.core.lsw.ch[n].curTrip = true ∧ t.core.lsw.ch[n].retryDly = true) ∧
          (∃ t, exec (.shortCircuitTrip n) s = .next t ∧ t = s.withChannel n t.core.lsw.ch[n] ∧
            t.core.lsw.ch[n].on = false ∧ t.core.lsw.ch[n].curTrip = true ∧ t.core.lsw.ch[n].retryDly = true) ∧
          (∃ t, exec (.thermalTrip n) s = .next t ∧ t = s.withChannel n t.core.lsw.ch[n] ∧
            t.core.lsw.ch[n].on = false ∧ t.core.lsw.ch[n].thTrip = true ∧ t.core.lsw.ch[n].hot = true)) ∧
        ((lswCfg s.core n.val).retries ≤ s.core.lsw.ch[n].retries → noResetRaised s.core →
          (∃ t, exec (.currentLimitTimeout n) s = .next t ∧ t.core.lsw.ch[n].on = false ∧
            t.core.lsw.ch[n].fault = true ∧ latched t.core 0x0E01 (BitVec.ofNat 8 (n.val + 1))) ∧
          (∃ t, exec (.thermalTrip n) s = .next t ∧ t.core.lsw.ch[n].on = false ∧ t.core.lsw.ch[n].fault = true ∧
            t.core.lsw.ch[n].hot = true ∧ latched t.core 0x0E02 (BitVec.ofNat 8 (n.val + 1)))))
      ∧ (s.core.lsw.ch[n].fault = false → s.core.lsw.ch[n].hot = false →
        s.core.lsw.ch[n].curTrip = true ∨ s.core.lsw.ch[n].thTrip = true →
        exec (.retryDelayEnd n) s = .next (s.withChannel n { s.core.lsw.ch[n] with
          retryDly := false, curTrip := false, thTrip := false
          retries := if merged s.core (6 + n.val) ≠ 0 then s.core.lsw.ch[n].retries + 1
            else s.core.lsw.ch[n].retries }))
      ∧ (s.core.lsw.ch[n].fault = false → s.core.lsw.ch[n].retryDly = true →
        exec (.channelCooled n) s = .next (s.withChannel n { s.core.lsw.ch[n] with hot := false }))
      ∧ (s.core.lsw.ch[n].on = true →
        exec (.tripFreeTime n) s = .next (s.withChannel n { s.core.lsw.ch[n] with retries := 0 }))
      ∧ (∃ t, exec .lswinUndervoltage s = .next t ∧ t = { s with core := { s.core with lsw := t.core.lsw } } ∧
        t.core.lsw.uv = true ∧ ∀ k : Fin 8, t.core.lsw.ch[k].on = false)
      ∧ exec .lswinRecovery s = .next { s with core := { s.core with lsw := { s.core.lsw with uv := false } } }
      ∧ (s.core.lsw.ch[n].on = true → s.core.lsw.ch[n].limiting = false → noResetRaised s.core →
        ∃ t, exec (.onStateOpenLoad n) s = .next t ∧ t.core.lsw.ch[n].on = false ∧ t.core.lsw.ch[n].openOn = true ∧
          latched t.core 0x0E03 (BitVec.ofNat 8 (n.val + 1)))
      ∧ (∀ mv : Nat, (lswCfg s.core n.val).present = true → s.core.lsw.ch[n].on = false →
        (lswCfg s.core n.val).duty ≠ 5 → s.core.lsw.uv = false → lswProbing s.core n.val = false →
        (mv ≤ 3000 → mv + 1000 ≤ s.core.meas.lswin →
          exec (.offStateTest n mv) s = .next (s.withChannel n { s.core.lsw.ch[n] with testPass := true })) ∧
        (3000 < mv → mv + 1000 ≤ s.core.meas.lswin → s.core.lsw.ch[n].openOff = false → noResetRaised s.core →
          ∃ t, exec (.offStateTest n mv) s = .next t ∧ t.core.lsw.ch[n].openOff = true ∧
            t.core.lsw.ch[n].testPass = false ∧ latched t.core 0x0E04 (BitVec.ofNat 8 (n.val + 1))) ∧
        (s.core.meas.lswin < mv + 1000 → s.core.lsw.ch[n].shortSup = false → noResetRaised s.core →
          ∃ t, exec (.offStateTest n mv) s = .next t ∧ t.core.lsw.ch[n].shortSup = true ∧
            t.core.lsw.ch[n].testPass = false ∧ latched t.core 0x0E05 (BitVec.ofNat 8 (n.val + 1))))
      ∧ ((lswCfg s.core n.val).present = true → s.core.lsw.ch[n].on = false → noResetRaised s.core →
        ∃ t, exec (.missingFreeWheelPath n) s = .next t ∧ t.core.lsw.ch[n].noWheel = true ∧
          t.core.lsw.ch[n].fault = true ∧ latched t.core 0x0E06 (BitVec.ofNat 8 (n.val + 1)))
      ∧ exec (.minimumOffTimeEnd n) s = .next (s.withChannel n { s.core.lsw.ch[n] with minOff := false })
      ∧ ((s.core.lsw.ch[n].startWait = true → (∀ k : Fin 8, k < n → s.core.lsw.ch[k].startWait = false) →
          exec .channelStartStagger s = .next (s.withChannel n { s.core.lsw.ch[n] with
            startWait := false, on := true })) ∧
        ((∀ k : Fin 8, s.core.lsw.ch[k].startWait = false) → exec .channelStartStagger s = .next s))

/-! ### Temperatures and the Kiln Guard (chapter 16) -/

/-- A reading that its channel allows becomes the sensor's temperature; one that it rules out, or that moves by more than 50 K,
takes the sensor out of service with its fault (R427, R431, Table 16-3). A Kiln Guard trip takes the stage through Chisel Off
with every path gate low, no burst running and every load switch but the fan's off, in each state with VAUX valid; its release
restarts the stage where nothing else holds it, and frees the channels in any case (R437–R439, R417). -/
def Obligations.SensorsAndTheKilnGuard : Prop :=
  ∀ s : State,
    (∀ (i : Fin 11) (r : SensorReading), s.core.life.st = .run → sensorPresent s.core i.val = true →
        s.core.thm.s[i].out = false → noResetRaised s.core →
        (readingBad i.val r = false → i.val < 8 →
          (∀ x, s.core.thm.s[i].hist.head? = some x → (r.temp - x.2).natAbs ≤ 500) →
          ∃ t, exec (.sensorSample i r) s = .next t ∧ t.core.thm.s[i].temp = some r.temp ∧
            t.core.thm.s[i].ratio = r.ratio ∧ t.core.thm.s[i].out = false ∧ t.core.flt = s.core.flt ∧
            (∀ k : Fin 11, k ≠ i → t.core.thm.s[k] = s.core.thm.s[k]) ∧
            t.core.life = { s.core.life with scanOwed := putBit s.core.life.scanOwed 1 false } ∧
            t.core.gdr = s.core.gdr ∧ t.core.path = s.core.path) ∧
        (readingBad i.val r = true →
          ∃ t, exec (.sensorSample i r) s = .next t ∧ t.core.thm.s[i].out = true ∧ t.core.thm.s[i].flt = true ∧
            t.core.thm.s[i].temp = s.core.thm.s[i].temp ∧ latched t.core 0x0C02 (BitVec.ofNat 8 i.val)) ∧
        (∀ x, readingBad i.val r = false → s.core.thm.s[i].hist.head? = some x → 500 < (r.temp - x.2).natAbs →
          ∃ t, exec (.sensorSample i r) s = .next t ∧ t.core.thm.s[i].out = true ∧
            t.core.thm.s[i].temp = s.core.thm.s[i].temp ∧ latched t.core 0x0C03 (BitVec.ofNat 8 i.val)))
      ∧ (∀ src : KilnSource, s.core.life.st = .run ∨ s.core.life.st = .safeHold ∨ s.core.life.st = .dormant →
        kilnWatches s.core src = true → noResetRaised s.core →
        ∃ t, exec (.kilnGuardTrip src) s = .next t ∧ t.core.thm.tripped = true ∧ stageDown t.core ∧
          pathDown t.core ∧ (∀ x ∈ t.core.vlt.recs, x.2.burst = none) ∧ t.core.path.export_ = none ∧
          (∀ n : Fin 8, (lswCfg s.core n.val).duty ≠ 2 → t.core.lsw.ch[n].on = false ∧ t.core.lsw.ch[n].kiln = true) ∧
          (∀ n : Fin 8, (lswCfg s.core n.val).duty = 2 → t.core.lsw.ch[n] = s.core.lsw.ch[n]) ∧
          t.core.gdr.cause = 8 ∧ latched t.core 0x0C01 (BitVec.ofNat 8 (kilnSensor src)) ∧
          (s.core.thm.tripped = true → t.core.thm.trips = s.core.thm.trips))
      ∧ (∀ src : KilnSource, s.core.life.st = .reset → kilnWatches s.core src = true →
        ∃ t, exec (.kilnGuardTrip src) s = .next t ∧ t.core.thm.tripped = true ∧
          t = { s with core := { s.core with thm := t.core.thm } })
      ∧ (∀ src : KilnSource, s.core.life.st = .boot → kilnWatches s.core src = true →
        ∃ t, exec (.kilnGuardTrip src) s = .next t ∧ t.core.thm.tripped = true ∧ t.core.life = s.core.life ∧
          t.core.path = s.core.path ∧ t.core.gdr = s.core.gdr ∧
          latched t.core 0x0C01 (BitVec.ofNat 8 (kilnSensor src)))
      ∧ (s.core.thm.tripped = true → s.core.life.st = .run →
        (s.core.gdr.holdOff = true →
          ∃ t, exec .kilnGuardRelease s = .next t ∧ t.core.thm.tripped = false ∧ t.core.gdr = s.core.gdr ∧
            t.core.path = s.core.path ∧ ∀ n : Fin 8, t.core.lsw.ch[n].kiln = false) ∧
        (s.core.gdr.holdOff = false → s.core.gdr.barred = true → s.core.gdr.st = .stopped →
          classAOpen s.core = false → s.core.twn.role = .lead →
          ∃ t, exec .kilnGuardRelease s = .next t ∧ t.core.thm.tripped = false ∧ t.core.gdr = s.core.gdr ∧
            t.core.path.held = false ∧ ∀ n : Fin 8, t.core.lsw.ch[n].kiln = false) ∧
        (restartDue { s.core with thm := { s.core.thm with
            tripped := false, tripSrc := 0, relRun := false, relCnt := 0 } } = true →
          stageMayStart { s.core with thm := { s.core.thm with tripped := false } } = true →
          ∃ t, exec .kilnGuardRelease s = .next t ∧ t.core.thm.tripped = false ∧ t.core.gdr.st = .parked ∧
            t.core.path.held = false ∧ (∀ n : Fin 8, t.core.lsw.ch[n].kiln = false) ∧
            ∀ n : Fin 4, phasePresent s.core n.val = true → t.core.gdr.ph[n].st = .precharge))
      ∧ (s.core.thm.tripped = false → exec .kilnGuardRelease s = .next s)

/-! ### The twin (chapter 17) -/

/-- The link and the attach: a trained link starts its sequences anew with IDENT, a frame with a bad CRC is counted and
discarded, one out of order is answered with NAK, and NAK brings the frames after the last good one again; an IDENT that
nothing refuses gives the roles, of which each of two controllers takes a different one, and a refused one is latched; the
mirrors agreeing starts the share ramp, whose end is the attach (R451–R454, R457, Table 17-6). A planned detach ends with the
leaving controller Detached and its outputs off (R469). -/
def Obligations.TheTwinLinksAndAttaches : Prop :=
  ∀ s : State, s.core.life.st = .run → s.core.maq.twin.expected = true →
    (∃ t f, exec .linkTrained s = .next t ∧ t = s.withTwin { s.core.twn with
          trained := true, rxSeq := [], txSeq := t.core.twn.txSeq, log := [f], refused := false, refDigest := none
          lossNow := false, sent := s.core.twn.sent ++ [f] } ∧ f.type = 2 ∧ f.seq = 0)
      ∧ (s.core.twn.trained = true → ∃ t f, exec .identRepeat s = .next t ∧
        t = s.withTwin { s.core.twn with
          sent := s.core.twn.sent ++ [f], txSeq := t.core.twn.txSeq, log := t.core.twn.log } ∧
        f.type = 2 ∧ f.seq = kget 0 2 s.core.twn.txSeq)
      ∧ (∀ (h : LinkHdr) (m : IdentMsg),
        (h.crcOk = false → exec (.ident h m) s = .next (s.withTwin { s.core.twn with
          hbErr := satNat 16 (s.core.twn.hbErr + 1) })) ∧
        (h.crcOk = true → s.core.twn.trained = true → (∃ x ∈ s.core.twn.rxSeq, x.1 = 2) →
          h.seq ≠ kget 0 2 s.core.twn.rxSeq + 1 →
          ∃ t f, exec (.ident h m) s = .next t ∧ t = s.withTwin { s.core.twn with
              naks := satNat 16 (s.core.twn.naks + 1), sent := s.core.twn.sent ++ [f], txSeq := t.core.twn.txSeq
              log := t.core.twn.log } ∧ f.type = 10) ∧
        (InOrder s.core h 2 → paired s.core = false → s.core.twn.locked = false → s.core.twn.role ≠ .detached →
          s.core.twn.refused = false →
          (refuseCause s.core m = none →
            ∃ t, exec (.ident h m) s = .next t ∧ t.core.twn.mirrorWait = true ∧ t.core.twn.ident = some m ∧
              t.core.twn.role = (if leadsPair s.core m then .lead else .follow) ∧ t.core.twn.drive = false ∧
              t.core.twn.drvRef = (leadsPair s.core m && s.core.maq.twin.refclk) ∧
              t.core.vlt.recs = s.core.vlt.recs ∧ t.core.path = s.core.path) ∧
          (∀ k, refuseCause s.core m = some k → noResetRaised s.core →
            ∃ t, exec (.ident h m) s = .next t ∧ t.core.twn.refused = true ∧ t.core.twn.refCause = k ∧
              t.core.twn.role = s.core.twn.role ∧ latched t.core 0x1402 0)))
      ∧ (∀ (d : Core) (mc md : IdentMsg), mc.plinthMaster = s.core.plb.master → mc.serial = s.core.otp.serial →
        md.plinthMaster = d.plb.master → md.serial = d.otp.serial → mc.serial ≠ md.serial →
        leadsPair s.core md = !leadsPair d mc)
      ∧ (∀ (h : LinkHdr) (ty sq : BitVec 8), InOrder s.core h 10 →
        ((s.core.twn.log.filter fun f => f.type == ty.toNat).take (kget 0 ty.toNat s.core.twn.txSeq - sq - 1).toNat).length
          = (kget 0 ty.toNat s.core.twn.txSeq - sq - 1).toNat →
        exec (.nak h ty sq) s = .next (s.withTwin { s.core.twn.took h 10 with
          sent := s.core.twn.sent ++ ((s.core.twn.log.filter fun f => f.type == ty.toNat).take
            (kget 0 ty.toNat s.core.twn.txSeq - sq - 1).toNat).reverse }))
      ∧ (s.core.twn.role = .pending → s.core.twn.fence = .none →
        exec .attachTimeout s = .next (s.withTwin { s.core.twn with fence := .delay, slot := 0, lost := false }))
      ∧ (∀ (agree : Bool) (h : HeartbeatMsg),
        exec (.heartbeat false agree h) s = .next (s.withTwin { s.core.twn with
          hbErr := satNat 16 (s.core.twn.hbErr + 1) }) ∧
        (s.core.twn.attached = false → s.core.twn.mirrorWait = false →
          exec (.heartbeat true agree h) s = .next (s.withTwin { s.core.twn with
            hb := s.core.twn.hb + 1, last := some h, lossNow := false })) ∧
        (s.core.twn.attached = false → s.core.twn.mirrorWait = true → s.core.twn.role = .lead →
          exec (.heartbeat true true h) s = .next (s.withTwin { s.core.twn with
            hb := s.core.twn.hb + 1, last := some h, lossNow := false, xMirOk := true, mirrorWait := false
            ramp := true, rampDown := false, rampAt := s.core.life.tick, weight := 0 })) ∧
        (s.core.twn.attached = true → s.core.twn.role = .follow → s.core.twn.mirrorWait = false →
          s.core.twn.shareFroz = false → noResetRaised s.core →
          ∃ t, exec (.heartbeat true agree h) s = .next t ∧ t.core.twn.hb = s.core.twn.hb + 1 ∧
            t.core.twn.xMirOk = agree ∧
            t.core.twn.share ≤ (10000 * nPresent s.core * s.core.maq.stag.iOc : Nat) ∧
            -(10000 * nPresent s.core * s.core.maq.stag.iOc : Nat) ≤ t.core.twn.share ∧
            (agree = false → s.core.twn.xMirOk = true → (h.auditFailed && s.core.vlt.pass) = false →
              latched t.core 0x1404 0)))
      ∧ (s.core.twn.ramp = true →
        (s.core.twn.rampDown = false → exec .shareRampEnd s = .next (s.withTwin { s.core.twn with
            ramp := false, attached := true, weight := 1000, share := 0, shareFroz := false, xPathOk := true
            xPolOk := true, xLdgOk := true, qDiff := 0, ismOver := 0, genLag := 0
            onRef := s.core.twn.onRef || (s.core.twn.role == .lead && s.core.maq.twin.refclk) })) ∧
        (s.core.twn.rampDown = true → s.core.twn.leaving ≠ some true →
          exec .shareRampEnd s = .next (s.withTwin { s.core.twn with ramp := false, weight := 0 })) ∧
        (s.core.twn.rampDown = true → s.core.twn.leaving = some true →
          ∃ t, exec .shareRampEnd s = .next t ∧ t.core.twn.role = .detached ∧ t.core.twn.attached = false ∧
            t.core.twn.ramp = false ∧ t.core.twn.weight = 0 ∧ stageDown t.core ∧ pathDown t.core))

/-- Heartbeat loss is fenced: the delay, the gap and the contest of serial numbers leave one controller that drives the line
and runs on alone, and one that is Fenced with every gate low; a Follow that has won becomes Lead with the orders it last
followed. The loss after a planned detach is none (R58, R163, R462–R467, R469, R487, Table 17-7). -/
def Obligations.FencingLeavesOneController : Prop :=
  ∀ s : State, s.core.life.st = .run → s.core.maq.twin.expected = true →
    (s.core.twn.trained = true → s.core.twn.lossNow = false →
        ((∀ h, s.core.twn.last = some h → h.role ≠ 5) → s.core.twn.role ≠ .detached → s.core.twn.role ≠ .fenced →
          s.core.twn.fence = .none → noResetRaised s.core →
          ∃ t, exec .heartbeatLoss s = .next t ∧ t.core.twn.trained = false ∧ t.core.twn.lossNow = true ∧
            t.core.twn.hbLoss = min 65535 (s.core.twn.hbLoss + 1) ∧ t.core.twn.fence = .delay ∧
            latched t.core 0x1401 0) ∧
        (∀ h, s.core.twn.last = some h → h.role = 5 →
          exec .heartbeatLoss s = .next (s.withTwin { s.core.twn with
            trained := false, lossNow := true, hbLoss := satNat 16 (s.core.twn.hbLoss + 1), mirrorWait := false })))
      ∧ (s.core.twn.fence = .delay → exec .fencingDelayEnd s = .next (s.withTwin { s.core.twn with
          fence := .gap, rxBlock := true, drive := true }))
      ∧ (s.core.twn.fence = .gap →
        exec (.fencingGapSample true) s = .next (s.withTwin { s.core.twn with
          fence := .contest, slot := 0, drive := false }) ∧
        ∃ t, exec (.fencingGapSample false) s = .next t ∧ t.core.twn.fence = .won ∧ t.core.twn.drive = true ∧
          t.core.twn.attached = false ∧ t.core.vlt.sup.recallNow = true ∧ t.core.vlt.ret.recallNow = true ∧
          t.core.vlt.recs = s.core.vlt.recs ∧ t.core.gdr = s.core.gdr)
      ∧ (s.core.twn.fence = .contest → ∀ low : Bool,
        (s.core.otp.serial.getLsbD (63 - s.core.twn.slot) = true → low = true →
          exec (.contestSlot low) s = .next (s.withTwin { s.core.twn with
            fence := .none, lost := true, rxBlock := false, drive := false })) ∧
        ((s.core.otp.serial.getLsbD (63 - s.core.twn.slot) = false ∨ low = false) → s.core.twn.slot < 63 →
          exec (.contestSlot low) s = .next (s.withTwin { s.core.twn with slot := s.core.twn.slot + 1 })) ∧
        ((s.core.otp.serial.getLsbD 0 = false ∨ low = false) → s.core.twn.slot = 63 →
          ∃ t, exec (.contestSlot low) s = .next t ∧ t.core.twn.fence = .won ∧ t.core.twn.drive = true))
      ∧ (s.core.twn.fence = .won → s.core.twn.role = .follow →
        ∃ t, exec .promotionComplete s = .next t ∧ t.core.twn.role = .lead ∧
          t.core.twn.onRef = (s.core.twn.attached && s.core.maq.twin.refclk) ∧
          t.core.vlt.sup.balanced = true ∧ t.core.vlt.ret.balanced = true ∧
          (s.core.twn.xMirOk = true → t.core.vlt.recs = s.core.vlt.recs) ∧
          ∀ k : Fin 23, (slotOf t.core k.val).host = some (slotOf s.core k.val).merged)
      ∧ (s.core.twn.rxBlock = false →
        ∃ t, exec .twTripNAsserted s = .next t ∧ t.core.twn.role = .fenced ∧ t.core.twn.attached = false ∧
          t.core.twn.drive = false ∧ stageDown t.core ∧ pathDown t.core ∧ t.core.path.export_ = none ∧
          t.core.pins.twTrip = true)
      ∧ (s.core.twn.rxBlock = true → exec .twTripNAsserted s = .next { s with core := { s.core with
          pins := { s.core.pins with twTrip := true } } })
      ∧ (s.core.twn.role = .follow → s.core.thm.tripped = false →
        exec .twTripNReleased s = .next { s with core := { s.core with
          pins := { s.core.pins with twTrip := false }, path := { s.core.path with held := false } } })
      ∧ (noResetRaised s.core →
        ∃ t, exec .tripReadbackMismatch s = .next t ∧ t.core.twn.role = .fenced ∧ t.core.twn.locked = true ∧
          stageDown t.core ∧ pathDown t.core ∧ latched t.core 0x1407 0)
      ∧ exec .twRefclkLoss s = .next (s.withTwin { s.core.twn with onRef := false })
      ∧ ∀ (b : Bool) (u : State),
        (u.core.life.st ≠ .safeHold ∨ b = true → exec (.twPresNChange b) u = .next { u with core := { u.core with
          pins := { u.core.pins with twPres := b }
          life := if b && !u.core.pins.twPres then (wakeBegin u.core false).life else u.core.life } }) ∧
        (u.core.life.st = .safeHold → ∃ t, exec (.twPresNChange false) u = .next t ∧
          t.core.pins.twPres = false ∧ ∀ g ∈ t.core.plb.p.toList, g.shed = true ∧ g.bySafe = true)

/-- What the twin's frames carry is taken: the cells of its pack, the ledger of its closes, its pool figures at the Lead, the
mirror of the vault, the policy and the orders at a Follow for the next tick, and the control commands, whose effect comes at
their time: the roles swap, the detach ramps (R192, R367, R458–R460, R468, R469, R474). A share error freezes the share. -/
def Obligations.PairDataAndControlsAreTaken : Prop :=
  ∀ (h : LinkHdr) (s : State), s.core.life.st = .run → s.core.maq.twin.expected = true →
    (∀ m : CellsMsg, InOrder s.core h 3 →
        (s.core.twn.attached = true →
          ∃ t, exec (.cells h m) s = .next t ∧ t = { s with core := { s.core with
              cel := { s.core.cel with
                twin := m.cells, twDis := t.core.cel.twDis, tests := t.core.cel.tests, hist := t.core.cel.hist
                cells := t.core.cel.cells, stack := t.core.cel.stack }
              twn := s.core.twn.took h 3 } } ∧ s.core.cel.tests <+: t.core.cel.tests ∧
            (s.core.cel.adopted = 0 → t.core.cel.cells = s.core.cel.cells ∧ t.core.cel.hist = s.core.cel.hist)) ∧
        (s.core.twn.attached = false → exec (.cells h m) s = .next (s.withTwin (s.core.twn.took h 3))))
      ∧ (∀ m : LedgerMsg, InOrder s.core h 4 → noResetRaised s.core →
        ∃ t, exec (.ledger h m) s = .next t ∧ t.core.ldg.twV = some m.vsys ∧ t.core.ldg.ch = s.core.ldg.ch ∧
          (s.core.twn.twSumReset = true → t.core.ldg.twSum = 0 ∧ t.core.ldg.twBase = some m.ispNet ∧
            t.core.twn.xLdg = 0 ∧ t.core.twn.xLdgOk = true) ∧
          (baseCloses < m.closeNo → t.core.ldg.twIsp = some m.ispNet) ∧
          (s.core.twn.twSumReset = false → baseCloses < m.closeNo → ∀ b, s.core.ldg.twBase = some b →
            t.core.ldg.twSum = s.core.ldg.twSum + m.net[(4 : Fin 8)] ∧
            t.core.twn.xLdg = (s.core.ldg.twSum + m.net[(4 : Fin 8)]) / 1000 - (m.ispNet - b) ∧
            (s.core.twn.xLdgOk = true → s.core.maq.twin.dqx < t.core.twn.xLdg.natAbs → latched t.core 0x1403 0)))
      ∧ (∀ m : PoolMsg, InOrder s.core h 5 → s.core.twn.role = .lead →
        exec (.pooldata h m) s = .next { s with core := { s.core with
          twn := s.core.twn.took h 5
          vlt := { s.core.vlt with kTwin := m.k, lLocTwin := m.lloc, pRetTwin := m.pfwd + m.pch + m.pex } } })
      ∧ (∀ (a : Nat) (r : MirrorRec), InOrder s.core h 6 → s.core.twn.role = .follow → a < 4064 →
        ∃ t, exec (.mirror h { first := a, recs := [r] }) s = .next t ∧
          (t.core.vlt.acct a).sup.level = r.supLevel ∧ (t.core.vlt.acct a).ret.level = r.retLevel ∧
          ((t.core.vlt.acct a).burst.isSome = r.flags.getLsbD 3) ∧
          (partnerOf t.core (acctPort a) (acctAddr a)).enrolled = r.flags.getLsbD 0 ∧
          (partnerOf t.core (acctPort a) (acctAddr a)).absent = r.flags.getLsbD 1 ∧
          (∀ b, b ≠ a → t.core.vlt.acct b = s.core.vlt.acct b) ∧
          t.core.vlt.sup.pool = s.core.vlt.sup.pool ∧ t.core.vlt.ret.pool = s.core.vlt.ret.pool)
      ∧ (∀ m : PolicyMsg, InOrder s.core h 7 → s.core.twn.role = .follow →
        exec (.policy h m) s = .next (s.withTwin { s.core.twn.took h 7 with polPend := some m }))
      ∧ (∀ m : OrdersMsg, InOrder s.core h 8 → s.core.twn.role = .follow →
        exec (.orders h m) s = .next (s.withTwin { s.core.twn.took h 8 with ordPend := some m }))
      ∧ (∀ k : Nat, InOrder s.core h 9 →
        exec (.control h { command := 1, tick := k }) s = .next (s.withTwin { s.core.twn.took h 9 with
          ctl := some (1, k) }) ∧
        (s.core.twn.role ≠ .follow →
          exec (.control h { command := 2, tick := k }) s = .next (s.withTwin { s.core.twn.took h 9 with
            leaving := some false, ctl := some (2, k) })) ∧
        (∃ t, exec (.control h { command := 3, tick := k }) s = .next t ∧ t.core.twn.attached = false ∧
          t.core.vlt.sup.recallNow = true ∧ t.core.vlt.ret.recallNow = true ∧ t.core.vlt.recs = s.core.vlt.recs) ∧
        exec (.control h { command := 4, tick := k }) s = .next { s with core := { s.core with
          twn := s.core.twn.took h 9, own := { s.core.own with step := 1, closes := 0, closeTick := some k } } })
      ∧ ((s.core.twn.ctl = none → exec .controlEffective s = .next s) ∧
        (∀ k, s.core.twn.ctl = some (1, k) → s.core.twn.role = .lead → s.core.twn.leaving ≠ some true →
          exec .controlEffective s = .next { s with core := { s.core with
            twn := { s.core.twn with ctl := none, role := .follow, onRef := s.core.maq.twin.refclk, drvRef := false }
            vlt := { s.core.vlt with bMax := 0 } } }) ∧
        (∀ k, s.core.twn.ctl = some (1, k) → s.core.twn.role = .follow →
          ∃ t, exec .controlEffective s = .next t ∧ t.core.twn.role = .lead ∧ t.core.twn.ctl = none ∧
            t.core.vlt.sup.balanced = true ∧ t.core.vlt.ret.balanced = true) ∧
        (∀ k, s.core.twn.ctl = some (2, k) → exec .controlEffective s = .next (s.withTwin { s.core.twn with
          ctl := none, ramp := true, rampDown := true, rampAt := s.core.life.tick })))
      ∧ (s.core.twn.attached = true → noResetRaised s.core →
        ∃ t, exec .shareError s = .next t ∧ t.core.twn.shareFroz = true ∧ latched t.core 0x1408 0)

/-! ### Completion -/

/-- Commands complete with their own effect where their conditions hold: the resets of the clocks, the watchdog, the backstop
and the accepted order; what ends waits, levels and lines of the vault and the Plinth Bus; inputs, transfers, exports, the
BATFET and the faults of the path; the charger's events; samples, the log and the NVM; staging, burns and decryption; Probes;
and the load switches. -/
def Obligations.CommandsCompleteWithTheirEffect : Prop :=
  (∀ s : State,
      (s.core.life.st = .run → ∃ t, exec .systemPllLossOfLock s = .next t ∧ t.core.life.st = .reset ∧
          t.core.life.rstCause = putBit s.core.life.rstCause 6 true)
        ∧ (s.core.life.st = .boot → s.core.wdg.bootTmo = true →
          ∃ t, exec .watchdogBootTimeout s = .next t ∧ t.core.life.st = .reset ∧
            t.core.life.rstCause = putBit s.core.life.rstCause 8 true)
        ∧ (s.core.life.st = .dormant → s.core.life.bksWake = true →
          ∃ t, exec .backstopWakeTimeout s = .next t ∧ t.core.life.st = .reset ∧
            t.core.life.rstCause = putBit s.core.life.rstCause 7 true)
        ∧ (s.core.life.st = .dormant → s.core.life.waking = true →
          ∃ t, exec (.pllLockTimeout false) s = .next t ∧ t.core.life.st = .reset ∧
            t.core.life.rstCause = putBit s.core.life.rstCause 6 true)
        ∧ (s.core.life.st = .run → s.core.life.resetOrder = true →
          ∃ t, exec .resetOrderExecute s = .next t ∧ t.core.life.st = .reset ∧
            t.core.life.rstCause = putBit s.core.life.rstCause 2 true))
    ∧ (∀ (a : Nat) (k : Column) (s : State), s.core.life.st = .run →
      (∃ t, exec (.leaseEnd a k) s = .next t ∧ ((t.core.vlt.acct a).col k).level = 0)
        ∧ (∀ (n : Nat) (r : List Nat), ((s.core.vlt.acct a).col k).done = n :: r →
          ∃ t, exec (.loweringTimeout a k) s = .next t ∧ ((t.core.vlt.acct a).col k).done = r)
        ∧ (raiseWaiting s.core a k = false →
          ∃ t, exec (.grantUndeliveredTimeout a k) s = .next t ∧ ((t.core.vlt.acct a).col k).raise = 0)
        ∧ (((s.core.vlt.acct a).col k).req ≠ none →
          ∃ t, exec (.requestWaitLimit a k) s = .next t ∧ ((t.core.vlt.acct a).col k).req = none)
        ∧ ((s.core.vlt.tot k).carrySince ≠ none →
          ∃ t, exec (.deficitCarryExpiry k) s = .next t ∧ (t.core.vlt.tot k).carryOut = true)
        ∧ (∃ t, exec .dischargeOverrun s = .next t ∧ ∀ p : Fin 4,
          recallOutstanding s.core p.val = true → t.core.plb.p[p].byVault = true)
        ∧ (∃ t, exec (.burstWindowEnd a) s = .next t ∧ ∀ r, (a, r) ∈ t.core.vlt.recs → r.burst = none)
        ∧ (∃ t, exec (.burstPauseEnd a) s = .next t ∧ (t.core.vlt.acct a).pause = false)
        ∧ (s.core.vlt.throt = true → ∃ t, exec .throttleGraceEnd s = .next t ∧ t.core.vlt.grace = false)
        ∧ (∀ iss : Int, enforces s.core = true → (105 * enforceTarget s.core : Nat) < 100 * iss →
          ∃ t, exec (.enforcementOverdraw iss) s = .next t ∧ t.core.vlt.enforce = true)
        ∧ (∃ t, exec .enforcementRelease s = .next t ∧ t.core.vlt.enforce = false))
    ∧ (∀ (p : Fin 4) (m : PlbMsg) (s : State), s.core.life.st = .run →
      (∀ f : Frame, Answers s.core p f m 0x22 12 → m.type = 0x03 →
          ∃ t, exec (.enrol p f) s = .next t ∧
            (partnerOf t.core p.val m.dest.toNat).serial = (f.payload.drop 4).take 8)
        ∧ (∀ addr : Byte, (s.core.plbPort p.val).await = some m → (s.core.plbPort p.val).slotAddr = some addr →
          ∃ t, exec (.responseMiss p addr false) s = .next t ∧
            (t.core.plbPort p.val).misses = (s.core.plbPort p.val).misses + 1)
        ∧ (∀ addr : Byte, ∃ t, exec (.collisionReinvite p addr) s = .next t ∧
          (partnerOf t.core p.val addr.toNat).collision = false)
        ∧ ((s.core.plbPort p.val).st = .restricted → ∃ t, exec (.restrictedRecallRepeat p) s = .next t ∧
          ∃ x ∈ (t.core.plbPort p.val).queue, x.dest = 0xFF ∧ x.type = 0x09)
        ∧ (∃ t, exec (.shedMinimumExpiry p) s = .next t ∧ (t.core.plbPort p.val).shedMin = false)
        ∧ ((s.core.plbPort p.val).shed = true → noResetRaised s.core →
          ∃ t, exec (.shedLineReadbackMismatch p) s = .next t ∧ latched t.core 0x1202 (BitVec.ofNat 8 (p.val + 1)))
        ∧ ((s.core.plbPort p.val).shed = false → s.core.pins.twShed.getLsbD p.val = false → noResetRaised s.core →
          ∃ t, exec (.shedLineUncommanded p) s = .next t ∧ latched t.core 0x1203 (BitVec.ofNat 8 (p.val + 1)))
        ∧ ((s.core.plbPort p.val).uncommanded = true → ∃ t, exec (.shedLineUncommandedCleared p) s = .next t ∧
          (t.core.plbPort p.val).uncommanded = false))
    ∧ (∀ (p : PdId) (i : Inp) (s : State), s.core.life.st = .run →
      (mayQualify s.core .main = true → ∃ t, exec .mainQualified s = .next t ∧ (t.core.path.inp .main).qual = true)
        ∧ (isExportPort s.core .main = false →
          ∃ t, exec .mainDisqualified s = .next t ∧ (t.core.path.inp .main).qual = false)
        ∧ (mayQualify s.core (pdInp p) = true →
          ∃ t, exec (.pdInputQualified p) s = .next t ∧ (t.core.path.inp (pdInp p)).qual = true)
        ∧ (isExportPort s.core (pdInp p) = false →
          ∃ t, exec (.pdInputDisqualified p) s = .next t ∧ (t.core.path.inp (pdInp p)).qual = false)
        ∧ (∃ t, exec .fastInputOvervoltageTrip s = .next t ∧ (t.core.path.inp .main).trq = true)
        ∧ (∃ t, exec (.requalificationDelayEnd i) s = .next t ∧ (t.core.path.inp i).trq = false)
        ∧ (noResetRaised s.core →
          (∀ j, pairWaiting s.core = some j → ∃ t, exec .pairNotConfirmedOff s = .next t ∧
              latched t.core 0x0203 (BitVec.ofNat 8 (inpIx j + 1)))
            ∧ (s.core.path.active = some i → s.core.path.xfer = none → s.core.path.export_ = none →
              ∃ t, exec .reverseCurrentTrip s = .next t ∧ (t.core.path.inp i).pair = false)
            ∧ (s.core.path.batfet = .off → ∃ t, exec .batfetNotOff s = .next t ∧ latched t.core 0x0205 0)
            ∧ (s.core.path.batfet = .full → ∃ t, exec .batfetDropFault s = .next t ∧ t.core.path.dropFault = true)
            ∧ (s.core.path.batfet = .linear →
              ∃ t, exec .linearDissipationFault s = .next t ∧ t.core.path.batfet = .off)
            ∧ (∃ t, exec .vcpUndervoltage s = .next t ∧ latched t.core 0x0208 0)))
    ∧ (∀ (x : Xfer) (s : State), s.core.life.st = .run → s.core.path.xfer = some x → s.core.path.export_ = none →
      s.core.path.exOff = none → s.core.path.exportWait = none →
      (x.step = .outOff → drained s.core x.inc = false → ∃ t, exec .pairConfirmedOff s = .next t ∧
          t.core.path.xfer = some { x with step := .drain })
        ∧ (x.step = .drain → ∃ t, exec .vcinDrainEnd s = .next t ∧ (t.core.path.inp x.inc).pair = true)
        ∧ (x.step = .inOn → noResetRaised s.core →
          ∃ t, exec .pairConfirmedOn s = .next t ∧ t.core.path.active = some x.inc)
        ∧ (x.step = .ramp → ∃ t, exec .transferComplete s = .next t ∧ t.core.path.xfer = none)
        ∧ (x.step ≠ .ramp → noResetRaised s.core → ∃ t, exec .transferBoundExpiry s = .next t ∧
          t.core.path.xferAbt = min 65535 (s.core.path.xferAbt + 1)))
    ∧ (∀ (e : Export) (s : State), s.core.life.st = .run → s.core.path.export_ = some e →
      (e.step = .ramp → ∃ t, exec .exportVcinReached s = .next t ∧ (t.core.path.inp e.port.inp).pair = true)
        ∧ (e.step = .pairOn → ∃ t, exec .exportPairConfirmedOn s = .next t ∧
          t.core.path.export_ = some { e with step := .active })
        ∧ (e.step = .pairOn → noResetRaised s.core →
          ∃ t, exec .exportPairNotConfirmedOn s = .next t ∧ t.core.path.export_ = none)
        ∧ ∃ t, exec .exportFloorTimeout s = .next t ∧ t.core.path.export_ = none)
    ∧ (∀ s : State,
      (s.core.life.st = .run → s.core.path.active ≠ none → s.core.path.xfer = none → s.core.path.batfet = .full →
          s.core.path.held = false → s.core.path.collapsed = false → s.core.path.linFault = false →
          ∃ t, exec .batfetLinearEntry s = .next t ∧ t.core.path.batfet = .linear)
        ∧ (s.core.life.st = .run → s.core.path.batfet = .linear → s.core.path.uvOpen = false →
          s.core.path.linFault = false → s.core.path.held = false →
          (∃ t, exec .batfetFullyOn s = .next t ∧ t.core.path.batfet = .full) ∧
          (s.core.path.active ≠ none → ∃ t, exec .sysCollapse s = .next t ∧ t.core.path.collapsed = true))
        ∧ (s.core.life.st = .run → s.core.path.active ≠ none → s.core.path.batfet = .full →
          s.core.path.collapsed = true → ∃ t, exec .collapseRecovery s = .next t ∧ t.core.path.batfet = .linear)
        ∧ (s.core.life.st = .run → s.core.path.active = none → s.core.path.batfet = .full →
          undervoltage s.core = true →
          ∃ t, exec .batfetUndervoltageOpening s = .next t ∧ t.core.path.uvOpen = true)
        ∧ (s.core.life.st = .safeHold →
          ((s.core.path.inp .main).qual = false →
            ∃ t, exec .safeHoldMainQualified s = .next t ∧ (t.core.path.inp .main).qual = true) ∧
          (∃ t, exec .safeHoldBatfetTrip s = .next t ∧ t.core.path.shTrip = true) ∧
          ((s.core.path.inp .main).qual = true →
            ∃ t, exec .safeHoldMainLost s = .next t ∧ (t.core.path.inp .main).qual = false)))
    ∧ (∀ (i : Int) (s : State), s.core.life.st = .run → noResetRaised s.core →
      (∃ t, exec (.chargeEvaluation i) s = .next t ∧ t.core.meas.ispAvg = i)
        ∧ (∃ t, exec .packCurrentAboveShare s = .next t ∧ latched t.core 0x0405 0)
        ∧ (chargerDecides s.core = true →
          (s.core.chg.phase = .cond ∨ s.core.chg.phase = .pre ∨ s.core.chg.phase = .bulk ∨ s.core.chg.phase = .cv →
            ∃ t, exec .chargeTimerExpiry s = .next t ∧ latched t.core 0x0404 0) ∧
          (s.core.chg.heater = true → ∃ t, exec .heaterTimeLimit s = .next t ∧ t.core.chg.heater = false) ∧
          (s.core.chg.phase = .bulk → (packEntry s.core).restOn ≠ 0 →
            ∃ t, exec .restPatternEdge s = .next t ∧ t.core.chg.restOff = !s.core.chg.restOff)))
    ∧ (∀ s : State, s.core.life.st = .run →
      (∀ smp : Sample, ∃ t, exec (.ledgerSample smp) s = .next t ∧ t.core.ldg.accN = s.core.ldg.accN + 1)
        ∧ (∀ k : Fin 8, ∃ t, exec (.missingSample k) s = .next t ∧ t.core.ldg.ch[k].missed = true)
        ∧ (∃ t, exec .checkpointDue s = .next t ∧ t.core.ldg.cpWant = true)
        ∧ (s.core.own.scan = true → ∃ t, exec .logScanEnd s = .next t ∧ t.core.own.scan = false)
        ∧ (∀ a, s.core.nvm.op = some (.erase a) → ∃ t, exec (.nvmOperationComplete true) s = .next t ∧
          ∀ x, a ≤ x → x < a + 4096 → nvmByte t.core.nvm.cells x = erased)
        ∧ (∃ t, exec .eraseCreditAccrual s = .next t ∧ t.core.own.credit = min 24 (s.core.own.credit + 1))
        ∧ (∃ t, exec .patinaRecordDue s = .next t ∧ s.core.own.q <+: t.core.own.q)
        ∧ (s.core.own.step = 4 → ∃ t, exec (.epochFuseProgrammed true) s = .next t ∧ t.core.own.step = 5)
        ∧ (∀ len : BitVec 32, s.core.mqs.open_ = false →
          ∃ t, exec (.stagingBegin len) s = .next t ∧ t.core.mqs.open_ = true)
        ∧ (∀ (addr : Nat) (data : List Byte), chunkOk s.core addr data.length = true →
          ∃ t, exec (.stagingData addr data) s = .next t ∧ t.core.mqs.buf = s.core.mqs.buf ++ data)
        ∧ (s.core.mqs.open_ = true → (∃ t, exec .stagingEnd s = .next t ∧ t.core.mqs.open_ = false) ∧
          ∃ t, exec .stagingAbort s = .next t ∧ t.core.mqs.open_ = false)
        ∧ (∀ (cmd : BitVec 32) (hs : Vector (BitVec 256) 4), cmd.toNat / 16777216 = 0xC5 → cmd.toNat % 16 ≠ 0 →
          ∃ t, exec (.provisioningOrder cmd hs) s = .next t ∧ t.core.mqs.provRes = 2)
        ∧ (s.core.otp.burnProv.isSome = true →
          ∃ t, exec (.otpBurnComplete true) s = .next t ∧ t.core.otp.provisioned = true)
        ∧ (∀ v : BitVec 32, (∃ t, exec (.accsel v) s = .next t ∧ t.core.vlt.dselPend = some (v.toNat % 8192)) ∧
          ∃ t, exec (.decryptCommand v) s = .next t ∧ t.core.own.dOff = v.toNat % 268435456)
        ∧ (s.core.own.dStat = 1 → s.core.own.scan = false →
          ∃ t, exec .decryptComplete s = .next t ∧ t.core.own.dStat ≠ 1))
    ∧ (∀ (n : Fin 4) (sec : Nat) (s : State), s.core.life.st = .run →
      (probeFree s.core 0x0A01 (BitVec.ofNat 8 (n.val + 1)) = true → solePhase s.core n.val = false →
          s.core.gdr.ph[n].st = .off → ∃ t, exec (.probeStart 0x0A01 (BitVec.ofNat 8 (n.val + 1))) s = .next t ∧
            t.core.gdr.ph[n].st = .probe)
        ∧ (∀ x ∈ s.core.flt.q, x.code = 0x0A04 → x.inst = BitVec.ofNat 8 (n.val + 1) →
          sharing s.core 0x0A04 x.inst = [] →
          (x.running = true → ∃ t, exec (.probeResult 0x0A04 x.inst false sec) s = .next t ∧
            t.core.gdr.ph[n].iso = true) ∧
          ∃ t, exec (.probeTimeout 0x0A04 x.inst) s = .next t ∧ t.core.gdr.ph[n].iso = true)
        ∧ (s.core.gdr.holdOff = true → ∃ t, exec .holdOffExpiry s = .next t ∧ t.core.gdr.holdOff = false)
        ∧ (s.core.maq.fltr.probes = true → ∃ t, exec .rotationPeriodEnd s = .next t ∧ t.core.flt.rotDone = 0))
    ∧ (∀ (n : Fin 8) (s : State), s.core.life.st = .run →
      (s.core.lsw.ch[n].on = true → s.core.lsw.ch[n].noWheel = false → noResetRaised s.core →
          (∃ t, exec (.currentLimitTimeout n) s = .next t ∧ t.core.lsw.ch[n].on = false) ∧
          (∃ t, exec (.shortCircuitTrip n) s = .next t ∧ t.core.lsw.ch[n].on = false) ∧
          (∃ t, exec (.thermalTrip n) s = .next t ∧ t.core.lsw.ch[n].on = false) ∧
          (s.core.lsw.ch[n].limiting = false →
            ∃ t, exec (.onStateOpenLoad n) s = .next t ∧ t.core.lsw.ch[n].on = false))
        ∧ (∃ t, exec (.retryDelayEnd n) s = .next t ∧ t.core.lsw.ch[n].retryDly = false)
        ∧ (∃ t, exec (.channelCooled n) s = .next t ∧ t.core.lsw.ch[n].hot = false)
        ∧ (s.core.lsw.ch[n].on = true → ∃ t, exec (.tripFreeTime n) s = .next t ∧ t.core.lsw.ch[n].retries = 0)
        ∧ (∃ t, exec .lswinUndervoltage s = .next t ∧ t.core.lsw.uv = true)
        ∧ (∃ t, exec .lswinRecovery s = .next t ∧ t.core.lsw.uv = false)
        ∧ (∀ mv : Nat, (lswCfg s.core n.val).present = true → s.core.lsw.ch[n].on = false →
          (lswCfg s.core n.val).duty ≠ 5 → s.core.lsw.uv = false → lswProbing s.core n.val = false →
          mv ≤ 3000 → mv + 1000 ≤ s.core.meas.lswin →
          ∃ t, exec (.offStateTest n mv) s = .next t ∧ t.core.lsw.ch[n].testPass = true)
        ∧ ((lswCfg s.core n.val).present = true → s.core.lsw.ch[n].on = false → noResetRaised s.core →
          ∃ t, exec (.missingFreeWheelPath n) s = .next t ∧ t.core.lsw.ch[n].noWheel = true)
        ∧ (∃ t, exec (.minimumOffTimeEnd n) s = .next t ∧ t.core.lsw.ch[n].minOff = false)
        ∧ (s.core.lsw.ch[n].startWait = true → (∀ k : Fin 8, k < n → s.core.lsw.ch[k].startWait = false) →
          ∃ t, exec .channelStartStagger s = .next t ∧ t.core.lsw.ch[n].on = true))
end

