-- ==== Sys2Proof/Laws/Nvm.lean ====
section
/-! SUPPORT. The bytes of the NVM: every operation keeps their canonical form, and what a byte reads after it. -/

namespace Sys2Proof.Machine

theorem nvmWfFrom_mono (m : List Host.Cell) : ∀ lo lo' : Nat, lo' ≤ lo → nvmWfFrom lo m = true → nvmWfFrom lo' m = true := by
  intro lo lo' h hm
  cases m with
  | nil => rfl
  | cons p r =>
    simp only [nvmWfFrom, Bool.and_eq_true, decide_eq_true_eq] at hm ⊢
    exact ⟨⟨by omega, hm.1.2⟩, hm.2⟩

/-- A set byte keeps the canonical form above any bound at or below both. -/
theorem nvmPut_wfFrom (m : List Host.Cell) (a : Nat) (b : Byte) :
    ∀ lo, lo ≤ a → nvmWfFrom lo m = true → nvmWfFrom lo (nvmPut m a b) = true := by
  induction m with
  | nil =>
    intro lo h _
    by_cases hb : b = erased
    · simp [nvmPut, hb, nvmWfFrom]
    · simp [nvmPut, hb, nvmWfFrom, h]
  | cons p r ih =>
    obtain ⟨j, x⟩ := p
    intro lo h hm
    simp only [nvmWfFrom, Bool.and_eq_true, decide_eq_true_eq, bne_iff_ne, ne_eq] at hm
    obtain ⟨⟨h1, h2⟩, h3⟩ := hm
    by_cases hj : j = a
    · subst hj
      by_cases hb : b = erased
      · simp only [nvmPut, if_true, hb]
        exact nvmWfFrom_mono r _ _ (by omega) h3
      · simp [nvmPut, hb, nvmWfFrom, h1, h3]
    · by_cases hlt : a < j
      · by_cases hb : b = erased
        · simp [nvmPut, hj, hlt, hb, nvmWfFrom, h1, h2, h3]
        · simp [nvmPut, hj, hlt, hb, nvmWfFrom, h, h2, h3]
      · have := ih (j + 1) (by omega) h3
        simp [nvmPut, hj, hlt, nvmWfFrom, h1, h2, this]

theorem nvmPut_wf (m : List Host.Cell) (a : Nat) (b : Byte) (h : Memory.wf m = true) : Memory.wf (nvmPut m a b) = true :=
  nvmPut_wfFrom m a b 0 (Nat.zero_le a) h

theorem nvmProgram_wf (bs : List Byte) : ∀ (m : List Host.Cell) (a : Nat), Memory.wf m = true →
    Memory.wf (nvmProgram m a bs) = true := by
  induction bs with
  | nil => intro m a h; exact h
  | cons b bs ih => intro m a h; exact ih _ _ (nvmPut_wf m a b h)

theorem nvmWfFrom_filter (q : Host.Cell → Bool) (m : List Host.Cell) :
    ∀ lo, nvmWfFrom lo m = true → nvmWfFrom lo (m.filter q) = true := by
  induction m with
  | nil => intro lo h; exact h
  | cons p r ih =>
    intro lo h
    simp only [nvmWfFrom, Bool.and_eq_true, decide_eq_true_eq] at h
    by_cases hq : q p = true
    · simp only [List.filter_cons, hq, if_true, nvmWfFrom, Bool.and_eq_true, decide_eq_true_eq]
      exact ⟨h.1, ih _ h.2⟩
    · simp only [List.filter_cons, hq, Bool.false_eq_true, if_false]
      exact nvmWfFrom_mono _ _ _ (by omega) (ih _ h.2)

theorem nvmErase_wf (m : List Host.Cell) (a : Nat) (h : Memory.wf m = true) : Memory.wf (nvmErase m a) = true :=
  nvmWfFrom_filter _ m 0 h

/-- Below a canonical list nothing is listed. -/
theorem nvmByte_below (m : List Host.Cell) : ∀ lo x, x < lo → nvmWfFrom lo m = true → nvmByte m x = erased := by
  induction m with
  | nil => intro lo x _ _; rfl
  | cons p r ih =>
    intro lo x hx h
    simp only [nvmWfFrom, Bool.and_eq_true, decide_eq_true_eq] at h
    have hj : p.1 ≠ x := by omega
    simp only [nvmByte, hj, if_false]
    exact ih _ _ (by omega) h.2

/-- A byte read after one was set, on canonical bytes. -/
theorem nvmByte_nvmPut (m : List Host.Cell) (a : Nat) (b : Byte) (x : Nat) :
    ∀ lo, nvmWfFrom lo m = true → nvmByte (nvmPut m a b) x = if x = a then b else nvmByte m x := by
  induction m with
  | nil =>
    intro lo _
    by_cases hb : b = erased
    · simp [nvmPut, hb, nvmByte]
    · simp only [nvmPut, hb, if_false, nvmByte, eq_comm]
  | cons p r ih =>
    obtain ⟨j, y⟩ := p
    intro lo h
    simp only [nvmWfFrom, Bool.and_eq_true, decide_eq_true_eq] at h
    by_cases hj : j = a
    · subst hj
      by_cases hb : b = erased
      · by_cases hx : x = j
        · subst hx
          simp only [nvmPut, if_true, hb]
          exact nvmByte_below r _ _ (Nat.lt_succ_self _) h.2
        · simp [nvmPut, hb, nvmByte, hx, Ne.symm hx]
      · by_cases hx : x = j
        · subst hx; simp [nvmPut, hb, nvmByte]
        · simp [nvmPut, hb, nvmByte, hx, Ne.symm hx]
    · by_cases hlt : a < j
      · by_cases hb : b = erased
        · by_cases hx : x = a
          · subst hx
            have : nvmByte r x = erased := nvmByte_below r _ _ (by omega) h.2
            simp [nvmPut, hj, hlt, hb, nvmByte, this]
          · simp [nvmPut, hj, hlt, hb, hx]
        · by_cases hx : x = a
          · subst hx; simp [nvmPut, hj, hlt, hb, nvmByte]
          · simp [nvmPut, hj, hlt, hb, nvmByte, hx, Ne.symm hx]
      · by_cases hx : j = x
        · subst hx; simp [nvmPut, hj, hlt, nvmByte]
        · simp [nvmPut, hj, hlt, nvmByte, hx, ih _ h.2]

/-- A byte read after bytes were programmed from an address, on canonical bytes. -/
theorem nvmByte_nvmProgram (bs : List Byte) : ∀ (m : List Host.Cell) (a x : Nat), Memory.wf m = true →
    nvmByte (nvmProgram m a bs) x = if a ≤ x ∧ x < a + bs.length then bs.getD (x - a) 0 else nvmByte m x := by
  induction bs with
  | nil => intro m a x _; simp [nvmProgram]
  | cons b bs ih =>
    intro m a x h
    rw [nvmProgram, ih _ _ _ (nvmPut_wf m a b h), nvmByte_nvmPut m a b x 0 h]
    by_cases h1 : a + 1 ≤ x ∧ x < a + 1 + bs.length
    · rw [if_pos h1, if_pos (by simp; omega), show x - a = (x - (a + 1)) + 1 by omega, List.getD_cons_succ]
    · rw [if_neg h1]
      by_cases h2 : x = a
      · subst h2; simp
      · rw [if_neg h2, if_neg (by simp; omega)]

/-- A byte read after its sector, or another, was erased. -/
theorem nvmByte_nvmErase (m : List Host.Cell) (a x : Nat) :
    nvmByte (nvmErase m a) x = if a ≤ x ∧ x < a + 4096 then erased else nvmByte m x := by
  induction m with
  | nil => simp [nvmErase, nvmByte]
  | cons p r ih =>
    obtain ⟨j, y⟩ := p
    by_cases hq : a ≤ j ∧ j < a + 4096
    · have e : nvmErase ((j, y) :: r) a = nvmErase r a := by simp [nvmErase, hq]
      rw [e, ih]
      by_cases hx : j = x
      · subst hx; simp [hq]
      · simp [nvmByte, hx]
    · have e : nvmErase ((j, y) :: r) a = (j, y) :: nvmErase r a := by
        simp only [nvmErase, List.filter_cons]
        have : (!(decide (a ≤ j) && decide (j < a + 4096))) = true := by
          simp only [Bool.not_eq_true', Bool.and_eq_false_iff, decide_eq_false_iff_not]
          omega
        simp [this]
      rw [e]
      by_cases hx : j = x
      · subst hx; simp [nvmByte, hq]
      · simp [nvmByte, hx, ih]

/-- Reset's NVM is in canonical form. -/
theorem reset_nvm_wf : Memory.wf State.reset.core.nvm.cells = true := rfl

end Sys2Proof.Machine
end

