-- ==== Sys2Proof/Laws/Boot.lean ====
section
/-! SUPPORT. The Boot checks and the NVM at a reset: how a passed copy is selected, and that cut-short NVM work keeps the
canonical form of the bytes. -/

namespace Sys2Proof.Machine

/-- A copy whose checks 1 to 8 pass and whose NVM size agrees passes check 9 (Table 03-26). -/
theorem bootCheck_passed (o : OtpG) (j : BitVec 24) (bs : List Byte) (m : Maquette)
    (h : imageChecks o bs = (0, some m)) (h9 : j.toNat / 65536 = 0x17 + m.head.nvmSize) :
    bootCheck o j bs = (0, some m) := by
  delta bootCheck
  rw [h]
  exact if_pos h9

/-- A copy A that passes is the one that runs, and copy B is not read (R86, R87). -/
theorem bootSelect_passed (c : Core) (r : BootRead) (m : Maquette)
    (h : bootCheck (otpRead c r) r.jedec (copyBytes c false) = (0, some m)) :
    bootSelect c r = (0, 15, some (m, false)) := by
  delta bootSelect
  simp only [h]

/-- NVM work cut short keeps the canonical form. -/
theorem nvmCut_wf (c : Core) (h : Memory.wf c.nvm.cells = true) : Memory.wf (nvmCut c).cells = true := by
  unfold nvmCut
  split
  · exact nvmProgram_wf _ _ _ h
  · generalize (List.range 4096).map (Config.tornByte c.free) = bs
    exact nvmProgram_wf bs _ _ h
  · repeat' split
    all_goals exact h
  · exact h
  · exact h

/-- A further cause in Reset leaves the NVM as it is. -/
theorem resetCause_nvm (c : Core) (kind : ResetKind) (bit : Nat) (code : BitVec 16) :
    (resetCause c kind bit code).nvm = c.nvm := by
  unfold resetCause
  dsimp only
  split <;> rfl

/-- A reset entry keeps the canonical form. -/
theorem resetEntry_nvm_wf (c : Core) (kind : ResetKind) (bit : Nat) (code : BitVec 16) (h : Memory.wf c.nvm.cells = true) :
    Memory.wf (resetEntry c kind bit code).nvm.cells = true := by
  unfold resetEntry
  split
  · exact h
  · rw [resetCause_nvm]
    exact h
  · exact nvmCut_wf c h

end Sys2Proof.Machine
end

