-- ==== Sys2Proof/Laws/Tables.lean ====
section
/-! SUPPORT. Indexed tables, keyed lists, bits and sums: what the shared operations of Ops answer. -/

namespace Sys2Proof.Machine

theorem getElem?_mapFrom {α β : Type} (f : Nat → α → β) (l : List α) :
    ∀ k i : Nat, (mapFrom f k l)[i]? = (l[i]?).map (f (k + i)) := by
  induction l with
  | nil => intro k i; simp [mapFrom]
  | cons a l ih =>
    intro k i
    cases i with
    | zero => simp [mapFrom]
    | succ i => simp [mapFrom, ih, Nat.add_comm, Nat.add_left_comm]

theorem mapFrom_getElem {α β : Type} (f : Nat → α → β) (l : List α) (k i : Nat) (h : i < l.length) :
    (mapFrom f k l)[i]'(by rw [length_mapFrom]; exact h) = f (k + i) l[i] := by
  have := getElem?_mapFrom f l k i
  rw [List.getElem?_eq_getElem (by rw [length_mapFrom]; exact h), List.getElem?_eq_getElem h] at this
  simpa using this

/-- An entry of a mapped table. -/
@[simp] theorem getElem_vmap {α β : Type} {n : Nat} (f : Nat → α → β) (v : Vector α n) (i : Nat) (h : i < n) :
    (vmap f v)[i] = f i v[i] := by
  have := mapFrom_getElem f v.toList 0 i (by simpa using h)
  simpa [vmap] using this

/-- An entry of a table with one place changed. -/
theorem getElem_vupd {α : Type} {n : Nat} (v : Vector α n) (i : Nat) (f : α → α) (j : Nat) (h : j < n) :
    (vupd v i f)[j] = if j = i then f v[j] else v[j] := by
  simp [vupd]

@[simp] theorem getElem_vupd_self {α : Type} {n : Nat} (v : Vector α n) (i : Nat) (f : α → α) (h : i < n) :
    (vupd v i f)[i] = f v[i] := by
  simp [vupd]

theorem getElem_vupd_ne {α : Type} {n : Nat} (v : Vector α n) (i : Nat) (f : α → α) (j : Nat) (h : j < n) (hne : j ≠ i) :
    (vupd v i f)[j] = v[j] := by
  simp [vupd, hne]

/-- A table read within its end. -/
theorem vget_eq_getElem {α : Type} {n : Nat} (v : Vector α n) (i : Nat) (d : α) (h : i < n) : vget v i d = v[i] := by
  simp [vget, List.getD, List.getElem?_eq_getElem (show i < v.toList.length by simpa using h)]

@[simp] theorem vget_fin {α : Type} {n : Nat} (v : Vector α n) (i : Fin n) (d : α) : vget v i.val d = v[i] :=
  vget_eq_getElem v i.val d i.isLt

/-- A table read past its end. -/
theorem vget_of_le {α : Type} {n : Nat} (v : Vector α n) (i : Nat) (d : α) (h : n ≤ i) : vget v i d = d := by
  simp [vget, List.getD, List.getElem?_eq_none (show v.toList.length ≤ i by simpa using h)]

theorem vget_vupd_self {α : Type} {n : Nat} (v : Vector α n) (i : Nat) (f : α → α) (d : α) (h : i < n) :
    vget (vupd v i f) i d = f (vget v i d) := by
  rw [vget_eq_getElem _ _ _ h, vget_eq_getElem _ _ _ h, getElem_vupd_self]

theorem vget_vupd_ne {α : Type} {n : Nat} (v : Vector α n) (i : Nat) (f : α → α) (j : Nat) (d : α) (hne : j ≠ i) :
    vget (vupd v i f) j d = vget v j d := by
  by_cases h : j < n
  · rw [vget_eq_getElem _ _ _ h, vget_eq_getElem _ _ _ h, getElem_vupd_ne _ _ _ _ h hne]
  · rw [vget_of_le _ _ _ (Nat.le_of_not_lt h), vget_of_le _ _ _ (Nat.le_of_not_lt h)]

/-! ### Keyed lists -/

@[simp] theorem kget_kset_self {α : Type} (d a : α) (k : Nat) (l : List (Nat × α)) : kget d k (kset k a l) = a := by
  induction l with
  | nil => simp [kset, kget]
  | cons x l ih =>
    obtain ⟨j, b⟩ := x
    by_cases h : j = k
    · simp [kset, kget, h]
    · by_cases h2 : k < j
      · simp [kset, kget, h, h2]
      · simp [kset, kget, h, h2, ih]

theorem kget_kset_ne {α : Type} (d a : α) (k j : Nat) (l : List (Nat × α)) (hne : j ≠ k) :
    kget d j (kset k a l) = kget d j l := by
  induction l with
  | nil => simp [kset, kget, Ne.symm hne]
  | cons x l ih =>
    obtain ⟨i, b⟩ := x
    by_cases h : i = k
    · subst h; simp [kset, kget, Ne.symm hne]
    · by_cases h2 : k < i
      · simp [kset, kget, h, h2, Ne.symm hne]
      · simp [kset, kget, h, h2, ih]

@[simp] theorem kget_kupd_self {α : Type} (d : α) (k : Nat) (f : α → α) (l : List (Nat × α)) :
    kget d k (kupd d k f l) = f (kget d k l) := by
  simp [kupd]

theorem kget_kupd_ne {α : Type} (d : α) (k j : Nat) (f : α → α) (l : List (Nat × α)) (hne : j ≠ k) :
    kget d j (kupd d k f l) = kget d j l := by
  simp [kupd, kget_kset_ne _ _ _ _ _ hne]

/-- An entry that is set stands in the list. -/
theorem mem_kset_self {α : Type} (k : Nat) (a : α) (l : List (Nat × α)) : (k, a) ∈ kset k a l := by
  induction l with
  | nil => simp [kset]
  | cons x l ih =>
    obtain ⟨j, b⟩ := x
    by_cases h : j = k
    · simp [kset, h]
    · by_cases h2 : k < j <;> simp [kset, h, h2, ih]

/-- Every entry after a set is the new one or an old one. -/
theorem mem_kset {α : Type} (k : Nat) (a : α) (l : List (Nat × α)) (x : Nat × α) (h : x ∈ kset k a l) :
    x = (k, a) ∨ x ∈ l := by
  induction l with
  | nil => simpa [kset] using h
  | cons y l ih =>
    obtain ⟨j, b⟩ := y
    by_cases e : j = k
    · simp [kset, e] at h
      rcases h with h | h <;> simp [h]
    · by_cases e2 : k < j
      · simp [kset, e, e2] at h
        rcases h with h | h | h <;> simp [h]
      · simp [kset, e, e2] at h
        rcases h with h | h
        · simp [h]
        · rcases ih h with h | h <;> simp [h]

/-! ### Bits -/

theorem getLsbD_putBit {n : Nat} (w : BitVec n) (i : Nat) (b : Bool) (j : Nat) (hi : i < n) :
    (putBit w i b).getLsbD j = if j = i then b else w.getLsbD j := by
  have hp : ∀ k, (BitVec.ofNat n (2 ^ i)).getLsbD k = (decide (k < n) && decide (i = k)) := by
    intro k
    simp only [BitVec.getLsbD_ofNat, Nat.testBit_two_pow]
  have hw : j < n ∨ w.getLsbD j = false := by
    by_cases hj : j < n
    · exact .inl hj
    · exact .inr (BitVec.getLsbD_of_ge _ _ (Nat.le_of_not_lt hj))
  cases b
  · rw [putBit, if_neg (by decide), BitVec.getLsbD_and, BitVec.getLsbD_not, hp]
    by_cases h : j = i
    · subst h; simp [hi]
    · rcases hw with hj | hj <;> simp [h, Ne.symm h, hj]
  · rw [putBit, if_pos rfl, BitVec.getLsbD_or, hp]
    by_cases h : j = i
    · subst h; simp [hi]
    · simp [h, Ne.symm h]

end Sys2Proof.Machine
end

