-- ==== Sys2Proof/Laws/Tokens.lean ====
section
/-! SUPPORT. The one operation that moves tokens: what it books, and that F + G + T stays (R339, Table 13-2). -/

namespace Sys2Proof.Machine

@[simp] theorem AcctRec.col_setCol_self (r : AcctRec) (k : Column) (x : ColRec) : (r.setCol k x).col k = x := by
  cases k <;> rfl

theorem AcctRec.col_setCol_ne (r : AcctRec) (k j : Column) (x : ColRec) (h : j ≠ k) : (r.setCol k x).col j = r.col j := by
  cases k <;> cases j <;> first | rfl | exact absurd rfl h

/-- The booked column stands in the account's record. -/
@[simp] theorem VltG.col_book_self (v : VltG) (a : Nat) (k : Column) (x : ColRec) : ((v.book a k x).acct a).col k = x := by
  simp [VltG.book, VltG.acct]

/-- Another account keeps its record. -/
theorem VltG.acct_book_ne (v : VltG) (a b : Nat) (k : Column) (x : ColRec) (h : b ≠ a) :
    (v.book a k x).acct b = v.acct b := by
  cases k <;> simp [VltG.book, VltG.acct, VltG.setTot, kget_kset_ne _ _ _ _ _ h]

/-- What the column's totals become. -/
theorem VltG.tot_book_self (v : VltG) (a : Nat) (k : Column) (x : ColRec) :
    (v.book a k x).tot k = { v.tot k with
      g := (v.tot k).g + ((x.level : Int) - ((v.acct a).col k).level)
      t := (v.tot k).t + ((x.transit : Int) - ((v.acct a).col k).transit)
      f := (v.tot k).f - ((x.level : Int) - ((v.acct a).col k).level)
        - ((x.transit : Int) - ((v.acct a).col k).transit) } := by
  cases k <;> rfl

/-- The other column's totals stand. -/
theorem VltG.tot_book_ne (v : VltG) (a : Nat) (k j : Column) (x : ColRec) (h : j ≠ k) : (v.book a k x).tot j = v.tot j := by
  cases k <;> cases j <;> first | rfl | exact absurd rfl h

/-- No booking changes a pool. -/
theorem VltG.pool_book (v : VltG) (a : Nat) (k j : Column) (x : ColRec) : ((v.book a k x).tot j).pool = (v.tot j).pool := by
  cases k <;> cases j <;> rfl

/-- A booking keeps each column's sum. -/
theorem VltG.balanced_book (v : VltG) (a : Nat) (k j : Column) (x : ColRec) (h : (v.tot j).balanced = true) :
    ((v.book a k x).tot j).balanced = true := by
  by_cases e : j = k
  · subst e
    rw [VltG.tot_book_self]
    simp only [ColTot.balanced, decide_eq_true_eq] at h ⊢
    omega
  · rw [VltG.tot_book_ne v a k j x e]
    exact h

/-- The same for bookings over a list of accounts. -/
theorem bookAll_balanced (as : List Nat) (k j : Column) (f : ColRec → ColRec) :
    ∀ c : Core, (c.vlt.tot j).balanced = true → ((bookAll c as k f).vlt.tot j).balanced = true := by
  induction as with
  | nil => intro c h; exact h
  | cons a as ih => intro c h; exact ih _ (VltG.balanced_book _ _ _ _ _ h)

/-- Bookings over a list change the vault alone. -/
theorem bookAll_eq (as : List Nat) (k : Column) (f : ColRec → ColRec) :
    ∀ c : Core, bookAll c as k f = { c with vlt := (bookAll c as k f).vlt } := by
  induction as with
  | nil => intro c; rfl
  | cons a as ih => intro c; exact ih (book c a k f)

end Sys2Proof.Machine
end

