-- ==== Sys2Proof/Laws/Faults.lean ====
section
/-! SUPPORT. Faults, records, Chisel Off and Reset: what each shared operation can do, said once. -/

namespace Sys2Proof.Machine

/-! ### Records -/

/-- Queueing a record changes the owner log alone. -/
theorem queueRec_eq (c : Core) (r : QRec) : queueRec c r = { c with own := (queueRec c r).own } := by
  unfold queueRec
  dsimp only
  by_cases h1 : inSafeHold c = true
  · simp only [h1, if_true]
  · by_cases h2 : (!(r.type.mandatory || c.maq.ownr.mask.getLsbD r.type.bit)) = true
    · simp only [h1, h2, if_true, Bool.false_eq_true, if_false]
    · by_cases h3 : c.own.keyFault = true
      · simp only [h1, h2, h3, if_true, Bool.false_eq_true, if_false]
      · by_cases h4 : (r.type.key == 1 && !ownerEnabled c) = true
        · simp only [h1, h2, h3, h4, if_true, Bool.false_eq_true, if_false]
        · simp only [h1, h2, h3, h4, Bool.false_eq_true, if_false]
          generalize ((if c.nvm.op == some .logRecord then c.own.q.take 1 else []) ++ _ : List QRec) = q
          by_cases h5 : 16384 < queueUse q + r.type.size
          · simp only [h5, if_true]
          · simp only [h5, if_false]

/-- Queueing a record of free bytes changes the owner log and the counter of free values. -/
theorem queueFree_eq (c : Core) (t : RecType) (i : RecInfo) :
    queueFree c t i = { c with own := (queueFree c t i).own, free := c.free + 1 } := by
  unfold queueFree
  rw [queueRec_eq]

/-! ### Latches -/

/-- With no code raised to class D, a row below class D stays below it. -/
theorem classInForce_ne_d {c : Core} (code : BitVec 16) {row : FCls} (hn : noResetRaised c) (hr : row ≠ .d) :
    classInForce c code row ≠ .d := by
  unfold classInForce
  cases h : (c.maq.fltr.entries.find? fun e => e.code == code).bind fun e => FCls.ofCode e.cls with
  | none => exact hr
  | some k =>
    have hk : k ≠ .d := by
      cases hf : c.maq.fltr.entries.find? fun e => e.code == code with
      | none => simp [hf] at h
      | some e =>
        simp only [hf, Option.bind_some] at h
        intro hd
        exact hn e (List.mem_of_find?_eq_some hf) (by rw [h, hd])
    simp only [FCls.worse]
    split <;> assumption

/-- The latch table holds an active latch of the code and instance at a place. -/
theorem faultActive_of_getElem {c : Core} (code : BitVec 16) (inst : BitVec 8) (i : Nat) (h : i < 64) (x : Latch)
    (hx : c.flt.l[i] = some x) (hc : x.code = code) (hi : x.inst = inst) (ha : x.active = true) :
    faultActive c code inst = true := by
  unfold faultActive
  rw [List.any_eq_true]
  exact ⟨some x, by rw [← hx]; simp, by simp [hc, hi, ha]⟩

/-- A latch put stands active, or the table overflowed in this merge tick. -/
theorem latched_latchPut (c : Core) (code : BitVec 16) (inst : BitVec 8) (cls : FCls) (p : ProbeSt) :
    latched (latchPut c code inst cls p) code inst := by
  unfold latchPut
  split
  · rename_i i hi
    unfold findLatch at hi
    rw [List.findIdx?_eq_some_iff_getElem] at hi
    obtain ⟨hlt, hp, _⟩ := hi
    have h64 : i < 64 := by simpa using hlt
    cases hx : c.flt.l[i] with
    | none => simp [hx] at hp
    | some x =>
      simp [hx] at hp
      left
      refine faultActive_of_getElem code inst i h64 { x with
            count := satNat 32 (x.count + 1), last := c.life.us, tick := c.life.imgNo + 1, new_ := true
            active := true, cls := x.cls.worse cls, masked := maskedNow c code
            probe := if p == .pending then (if x.probe == .lasting then .lasting else .pending) else p } ?_ ?_ ?_ rfl
      · simp [hx]
      · exact hp.1
      · exact hp.2
  · split
    · rename_i i hi
      rw [List.findIdx?_eq_some_iff_getElem] at hi
      obtain ⟨hlt, _, _⟩ := hi
      have h64 : i < 64 := by simpa using hlt
      left
      exact faultActive_of_getElem code inst i h64 _ (by simp; rfl) rfl rfl rfl
    · right; left; rfl

/-- A latch put changes the fault logic alone. -/
theorem latchPut_eq (c : Core) (code : BitVec 16) (inst : BitVec 8) (cls : FCls) (p : ProbeSt) :
    latchPut c code inst cls p = { c with flt := (latchPut c code inst cls p).flt } := by
  unfold latchPut
  repeat' split
  all_goals rfl

/-- Recording a latch changes the log, the counter of free values and the coalescing alone. -/
theorem latchRecord_eq (c : Core) (code : BitVec 16) (inst : BitVec 8) :
    ∃ (o : OwnG) (n : Nat) (q : List (BitVec 16 × BitVec 8 × Nat)),
      latchRecord c code inst = { c with own := o, free := n, flt := { c.flt with coal := q } } := by
  unfold latchRecord
  split
  · exact ⟨c.own, c.free, _, rfl⟩
  · rw [queueFree_eq]
    simp only
    split
    · exact ⟨_, _, c.flt.coal, rfl⟩
    · exact ⟨_, _, _, rfl⟩

/-- Changing latches without clearing them keeps a latch. -/
theorem latched_updLatch {c : Core} {code : BitVec 16} {inst : BitVec 8} (k : BitVec 16) (j : BitVec 8) (f : Latch → Latch)
    (hf : ∀ x, (f x).code = x.code ∧ (f x).inst = x.inst ∧ (f x).active = x.active) (h : latched c code inst) :
    latched (updLatch c k j f) code inst := by
  rcases h with h | h
  · left
    unfold faultActive at h ⊢
    rw [List.any_eq_true] at h ⊢
    obtain ⟨e, he, hp⟩ := h
    cases e with
    | none => simp at hp
    | some x =>
      rw [List.mem_iff_getElem] at he
      obtain ⟨i, hi, hx⟩ := he
      have h64 : i < 64 := by simpa using hi
      have hx' : c.flt.l[i] = some x := by simpa using hx
      refine ⟨some (if x.code == k && x.inst == j then f x else x), ?_, ?_⟩
      · rw [List.mem_iff_getElem]
        exact ⟨i, by simpa using h64, by simp [updLatch, hx']⟩
      · by_cases hk : (x.code == k && x.inst == j) = true
        · simpa [hk, hf x] using hp
        · simpa [hk] using hp
  · right; exact h

/-- Queueing a Probe keeps a latch, and changes the fault logic alone. -/
theorem latched_queueProbe {c : Core} {code : BitVec 16} {inst : BitVec 8} (k : BitVec 16) (j : BitVec 8)
    (h : latched c code inst) : latched (queueProbe c k j) code inst := by
  unfold queueProbe
  split
  · exact h
  · split
    · exact h
    · split
      · exact h
      · exact latched_updLatch _ _ _ (fun x => ⟨rfl, rfl, rfl⟩) h

theorem queueProbe_eq (c : Core) (k : BitVec 16) (j : BitVec 8) :
    queueProbe c k j = { c with flt := (queueProbe c k j).flt } := by
  unfold queueProbe
  repeat' split
  all_goals rfl

/-! ### The action of a class -/

theorem dropMedium_eq (c : Core) : dropMedium c = { c with plb := (dropMedium c).plb, vlt := (dropMedium c).vlt } := by
  unfold dropMedium
  split
  · rfl
  · simp only
    rw [bookAll_eq, bookAll_eq]
    rfl

theorem altExit_flt (c : Core) (p : PdId) : (altExit c p).flt = c.flt := by
  unfold altExit
  split
  · rw [dropMedium_eq]
    rfl
  · rfl

theorem pdExportEnd_flt (c : Core) (p : PdId) : (pdExportEnd c p).flt = c.flt := altExit_flt _ p

theorem stagePark_flt (c : Core) : (stagePark c).flt = c.flt := by
  unfold stagePark
  repeat' split
  all_goals rfl

theorem pairOff_flt (c : Core) (i : Inp) : (pairOff c i).flt = c.flt := by
  unfold pairOff
  dsimp only
  split <;> rfl

theorem exportEnd_flt (c : Core) (hr : Bool) : (exportEnd c hr).flt = c.flt := by
  unfold exportEnd
  cases c.path.export_ with
  | none => rfl
  | some e =>
    have h := (stagePark_flt (pairOff c e.port.inp)).trans (pairOff_flt c e.port.inp)
    dsimp only
    split
    · split
      · rw [pdExportEnd_flt]
        exact h
      · exact h
    · exact h

theorem noteChisel_flt (b : GdrG) (c : Core) (code : BitVec 16) : (noteChisel b c code).flt = c.flt := by
  unfold noteChisel
  split <;> rfl

/-- A class below D leaves the fault logic as it is. -/
theorem classAction_flt (c : Core) (cls : FCls) (cause ph : Nat) (code : BitVec 16) (h : cls ≠ .d) :
    (classAction c cls cause ph code).flt = c.flt := by
  cases cls with
  | d => exact absurd rfl h
  | b => rfl
  | c => rfl
  | a => exact (exportEnd_flt (noteChisel c.gdr (chiselAll c cause ph) code) true).trans (noteChisel_flt _ _ _)

theorem exportFault_flt (c : Core) (code : BitVec 16) : (exportFault c code).flt = c.flt := by
  unfold exportFault
  split
  · exact exportEnd_flt c true
  · rfl

theorem raisedC_flt (c : Core) (code : BitVec 16) (row cls : FCls) : (raisedC c code row cls).flt = c.flt := by
  unfold raisedC
  split <;> rfl

theorem noteInst_flt (b c : Core) (inst : BitVec 8) : (noteInst b c inst).flt = c.flt := by
  unfold noteInst
  split <;> rfl

/-- A fault below class D stands latched with its reaction (R284, R288). -/
theorem latched_faultWith (c : Core) (code : BitVec 16) (inst : BitVec 8) (row : FCls) (p : ProbeSt) (probe : Bool)
    (cause ph : Nat) (h : classInForce c code row ≠ .d) :
    latched (faultWith c code inst row p probe cause ph) code inst := by
  have h1 := latched_latchPut c code inst (classInForce c code row) p
  have h2 : latched (latchRecord (latchPut c code inst (classInForce c code row) p) code inst) code inst := by
    obtain ⟨o, n, q, e⟩ := latchRecord_eq (latchPut c code inst (classInForce c code row) p) code inst
    rw [e]
    exact h1
  have h3 : latched (if probe then queueProbe (latchRecord (latchPut c code inst (classInForce c code row) p) code inst)
      code inst else latchRecord (latchPut c code inst (classInForce c code row) p) code inst) code inst := by
    cases probe
    · exact h2
    · exact latched_queueProbe code inst h2
  unfold faultWith
  unfold latched faultActive at h3 ⊢
  dsimp only
  rw [noteInst_flt, exportFault_flt, raisedC_flt, classAction_flt _ _ _ _ _ h]
  exact h3

/-- The same of a row that is Probed. -/
theorem latched_fault (c : Core) (code : BitVec 16) (inst : BitVec 8)
    (h : classInForce c code ((rowClass code).getD .b) ≠ .d) : latched (fault c code inst) code inst :=
  latched_faultWith _ _ _ _ _ _ _ _ h

/-- A fault of class B or C that ends no export changes the fault logic, the log and the counter of free values alone. -/
theorem faultWith_eq (c : Core) (code : BitVec 16) (inst : BitVec 8) (row : FCls) (p : ProbeSt) (probe : Bool)
    (cause ph : Nat) (h : classInForce c code row = .b ∨ classInForce c code row = .c)
    (he : endsExport code = false) :
    ∃ (o : OwnG) (n : Nat) (f : FltG), faultWith c code inst row p probe cause ph = { c with own := o, free := n, flt := f } := by
  obtain ⟨o, n, q, e⟩ := latchRecord_eq (latchPut c code inst (classInForce c code row) p) code inst
  unfold faultWith
  have ea : ∀ d : Core, classAction d (classInForce c code row) cause ph code = d := by
    intro d; rcases h with h | h <;> rw [h] <;> rfl
  have eb : ∀ (d : Core) (k : FCls), raisedC d code row k = d := by
    intro d k
    have hc : (code == 0x0206) = false := by
      cases hx : code == 0x0206
      · rfl
      · rw [beq_iff_eq] at hx; subst hx; exact absurd he (by decide)
    unfold raisedC
    rw [hc, Bool.and_false]
    rfl
  have ec : ∀ d : Core, exportFault d code = d := by intro d; simp [exportFault, he]
  have ed : ∀ d : Core, noteInst d d inst = d := by
    intro d; unfold noteInst; cases hs : d.life.st <;> rfl
  dsimp only
  rw [ea, eb, ec, ed, e, latchPut_eq]
  cases probe
  · exact ⟨o, n, _, rfl⟩
  · rw [if_pos rfl, queueProbe_eq]
    exact ⟨o, n, _, rfl⟩

/-! ### Chisel Off and Reset -/

theorem PhaseG.chisel_st (p : PhaseG) : p.chisel.st = .off ∨ p.chisel.st = .chisel1 ∨ p.chisel.st = .chisel2 := by
  unfold PhaseG.chisel
  split
  · exact .inl (by assumption)
  · exact .inr (.inl (by assumption))
  · exact .inr (.inr (by assumption))
  · exact .inr (.inl rfl)

/-- Chisel Off of the whole stage leaves it down (R214, R232). -/
theorem stageDown_chiselAll (c : Core) (cause ph : Nat) : stageDown (chiselAll c cause ph) := by
  refine ⟨rfl, ?_⟩
  intro p hp
  rw [List.mem_iff_getElem] at hp
  obtain ⟨i, hi, rfl⟩ := hp
  have h4 : i < 4 := by simpa using hi
  have e : (chiselAll c cause ph).gdr.ph.toList[i] = (c.gdr.ph[i]).chisel := by
    simp [chiselAll, chiselSel]
  rw [e]
  exact PhaseG.chisel_st _

/-- What an entry into Reset leaves (R105, R107): everything cleared but what a reset keeps. -/
theorem resetEntry_taken (c : Core) (kind : ResetKind) (bit : Nat) (code : BitVec 16) (ho : c.life.st ≠ .off)
    (hr : c.life.st ≠ .reset) : ResetTaken c (resetEntry c kind bit code) bit := by
  have e : ∀ s : Life, s ≠ .off → s ≠ .reset → s = .boot ∨ s = .safeHold ∨ s = .run ∨ s = .dormant := by
    intro s h1 h2; cases s <;> simp_all
  have hl : ∀ l ∈ (Vector.replicate 64 (none : Option Latch)).toList, l = none := by
    intro l h; simpa using h
  have hn : ∀ d : Core, (nvmCut d).op = none ∧ (nvmCut d).queue = [] := by
    intro d
    unfold nvmCut
    repeat' split
    all_goals exact ⟨rfl, rfl⟩
  have hi : ∀ d : Core, d.nvm.op = none → (nvmCut d).cells = d.nvm.cells ∧ (nvmCut d).sectors = d.nvm.sectors := by
    intro d h
    unfold nvmCut
    rw [h]
    exact ⟨rfl, rfl⟩
  rcases e _ ho hr with h | h | h | h <;>
    (simp only [resetEntry, h]
     exact { st := rfl, cause := rfl, image := rfl, latches := hl, cleared := ⟨rfl, rfl, rfl, rfl, rfl, rfl, rfl, rfl, rfl, rfl, rfl⟩
             mode := rfl, nvm := hn c, idle := hi c, kept := ⟨rfl, rfl, rfl, rfl⟩, pins := ⟨rfl, rfl⟩ })

end Sys2Proof.Machine
end

