-- ==== Sys2Proof/Laws/Outcomes.lean ====
section
/-! SUPPORT. What the ways a meaning acts on the controller answer: a next state each, and which one. -/

namespace Sys2Proof.Machine

/-- The empty queue idles. -/
theorem step_nil (s : State) (h : s.pending = []) : step s = .next s := by
  unfold step; rw [h]

/-- A step carries out the command at the front on the state with the queue's rest. -/
theorem step_cons (s : State) (i : Instr) (r : List Instr) (h : s.pending = i :: r) :
    step s = exec i { s with pending := r } := by
  unfold step; rw [h]

/-- A step that goes on idles or carries out one command. -/
theorem step_next_cases {s t : State} (h : step s = .next t) :
    (s.pending = [] ∧ t = s) ∨
      ∃ i r, s.pending = i :: r ∧ exec i { s with pending := r } = .next t := by
  cases e : s.pending with
  | nil =>
    rw [step_nil s e] at h
    exact .inl ⟨rfl, by cases h; rfl⟩
  | cons i r => exact .inr ⟨i, r, rfl, by rw [← h, step_cons s i r e]⟩

/-- A command that takes no reset leaves what its function gives. -/
theorem afterReset_of_ne {c d : Core} (h : d.life.st ≠ .reset) : afterReset c d = d := by
  have e : (d.life.st == Life.reset) = false := by simpa using h
  simp [afterReset, e]

/-- In Reset the function's result stands as it is. -/
theorem afterReset_of_reset {c d : Core} (h : c.life.st = .reset) : afterReset c d = d := by
  simp [afterReset, h]

/-- The lifecycle state is the function's in every case. -/
theorem afterReset_st (c d : Core) : (afterReset c d).life.st = d.life.st := by
  unfold afterReset
  split
  · rename_i h
    simp only [Bool.and_eq_true, beq_iff_eq] at h
    exact h.1.symm
  · rfl

/-- What stands after a reset taken on the way: the kept state, and reset values elsewhere. -/
theorem afterReset_reset {c d : Core} (h : d.life.st = .reset) (hc : c.life.st ≠ .reset) :
    (afterReset c d).life.st = .reset ∧ (afterReset c d).life.rstCause = d.life.rstCause ∧
      (afterReset c d).otp = d.otp ∧ (afterReset c d).nvm = { d.nvm with op := none, queue := [] } ∧
      (afterReset c d).wdg = { cap := d.wdg.cap, shPc := d.wdg.shPc, shLast := d.wdg.shLast } ∧ (afterReset c d).flt = { hist := d.flt.hist } ∧
      (afterReset c d).mq = none ∧ (afterReset c d).ord = {} ∧ (afterReset c d).vlt = {} ∧ (afterReset c d).path = {} := by
  have e : (d.life.st == Life.reset && c.life.st != Life.reset) = true := by simp [h, hc]
  simp [afterReset, e]

theorem onCore_next (s : State) (f : Core → Core) : onCore s f = .next { s with core := afterReset s.core (f s.core) } := rfl

/-- A command whose effect takes no reset. -/
theorem onCore_of_ne (s : State) (f : Core → Core) (h : (f s.core).life.st ≠ .reset) :
    onCore s f = .next { s with core := f s.core } := by
  rw [onCore_next, afterReset_of_ne h]

/-- A command whose condition holds. -/
theorem onCoreIf_pos (s : State) (p : Core → Bool) (f : Core → Core) (h : p s.core = true) :
    onCoreIf s p f = onCore s f := by
  unfold onCoreIf onCore
  simp [h]

/-- A command whose condition fails has no effect. -/
theorem onCoreIf_neg (s : State) (p : Core → Bool) (f : Core → Core) (h : p s.core = false) :
    onCoreIf s p f = .next s := by
  unfold onCoreIf onCore
  simp only [h, Bool.false_eq_true, if_false]
  congr 1
  unfold afterReset
  cases s with
  | mk q c m w => cases e : (c.life.st == Life.reset) <;> simp [e, bne]

theorem inRun_iff (c : Core) : inRun c = true ↔ c.life.st = .run := by simp [inRun]

/-- A command of Run, in Run. -/
theorem onRun_run (s : State) (f : Core → Core) (h : s.core.life.st = .run) : onRun s f = onCore s f :=
  onCoreIf_pos s inRun f ((inRun_iff _).2 h)

/-- A command of Run whose effect stays in Run. -/
theorem onRun_of_ne (s : State) (f : Core → Core) (h : s.core.life.st = .run) (hn : (f s.core).life.st ≠ .reset) :
    onRun s f = .next { s with core := f s.core } := by
  rw [onRun_run s f h, onCore_of_ne s f hn]

/-- A command of Run outside Run. -/
theorem onRun_off (s : State) (f : Core → Core) (h : s.core.life.st ≠ .run) : onRun s f = .next s :=
  onCoreIf_neg s inRun f (by simpa [inRun] using h)

end Sys2Proof.Machine
end

