-- ==== Sys2Proof/Laws/State.lean ====
section
/-! SUPPORT. What each named update of the controller changes and what it leaves: one lemma per field per update, true by
unfolding the update alone. -/

namespace Sys2Proof.Machine

variable (c : Core) (s : State)

/-! ### `updPd` -/

@[simp] theorem updPd_life (p : PdId) (f : PdG → PdG) : (updPd c p f).life = c.life := rfl
@[simp] theorem updPd_pins (p : PdId) (f : PdG → PdG) : (updPd c p f).pins = c.pins := rfl
@[simp] theorem updPd_otp (p : PdId) (f : PdG → PdG) : (updPd c p f).otp = c.otp := rfl
@[simp] theorem updPd_nvm (p : PdId) (f : PdG → PdG) : (updPd c p f).nvm = c.nvm := rfl
@[simp] theorem updPd_mq (p : PdId) (f : PdG → PdG) : (updPd c p f).mq = c.mq := rfl
@[simp] theorem updPd_mqs (p : PdId) (f : PdG → PdG) : (updPd c p f).mqs = c.mqs := rfl
@[simp] theorem updPd_path (p : PdId) (f : PdG → PdG) : (updPd c p f).path = c.path := rfl
@[simp] theorem updPd_chg (p : PdId) (f : PdG → PdG) : (updPd c p f).chg = c.chg := rfl
@[simp] theorem updPd_cel (p : PdId) (f : PdG → PdG) : (updPd c p f).cel = c.cel := rfl
@[simp] theorem updPd_ldg (p : PdId) (f : PdG → PdG) : (updPd c p f).ldg = c.ldg := rfl
@[simp] theorem updPd_gdr (p : PdId) (f : PdG → PdG) : (updPd c p f).gdr = c.gdr := rfl
@[simp] theorem updPd_loop (p : PdId) (f : PdG → PdG) : (updPd c p f).loop = c.loop := rfl
@[simp] theorem updPd_thm (p : PdId) (f : PdG → PdG) : (updPd c p f).thm = c.thm := rfl
@[simp] theorem updPd_lsw (p : PdId) (f : PdG → PdG) : (updPd c p f).lsw = c.lsw := rfl
@[simp] theorem updPd_pd (p : PdId) (f : PdG → PdG) : (updPd c p f).pd = vupd c.pd (pdIx p) f := rfl
@[simp] theorem updPd_plb (p : PdId) (f : PdG → PdG) : (updPd c p f).plb = c.plb := rfl
@[simp] theorem updPd_vlt (p : PdId) (f : PdG → PdG) : (updPd c p f).vlt = c.vlt := rfl
@[simp] theorem updPd_twn (p : PdId) (f : PdG → PdG) : (updPd c p f).twn = c.twn := rfl
@[simp] theorem updPd_wdg (p : PdId) (f : PdG → PdG) : (updPd c p f).wdg = c.wdg := rfl
@[simp] theorem updPd_flt (p : PdId) (f : PdG → PdG) : (updPd c p f).flt = c.flt := rfl
@[simp] theorem updPd_own (p : PdId) (f : PdG → PdG) : (updPd c p f).own = c.own := rfl
@[simp] theorem updPd_ord (p : PdId) (f : PdG → PdG) : (updPd c p f).ord = c.ord := rfl
@[simp] theorem updPd_meas (p : PdId) (f : PdG → PdG) : (updPd c p f).meas = c.meas := rfl
@[simp] theorem updPd_free (p : PdId) (f : PdG → PdG) : (updPd c p f).free = c.free := rfl
@[simp] theorem updPd_outs (p : PdId) (f : PdG → PdG) : (updPd c p f).outs = c.outs := rfl

/-! ### `updPlb` -/

@[simp] theorem updPlb_life (p : Nat) (f : PlbPort → PlbPort) : (updPlb c p f).life = c.life := rfl
@[simp] theorem updPlb_pins (p : Nat) (f : PlbPort → PlbPort) : (updPlb c p f).pins = c.pins := rfl
@[simp] theorem updPlb_otp (p : Nat) (f : PlbPort → PlbPort) : (updPlb c p f).otp = c.otp := rfl
@[simp] theorem updPlb_nvm (p : Nat) (f : PlbPort → PlbPort) : (updPlb c p f).nvm = c.nvm := rfl
@[simp] theorem updPlb_mq (p : Nat) (f : PlbPort → PlbPort) : (updPlb c p f).mq = c.mq := rfl
@[simp] theorem updPlb_mqs (p : Nat) (f : PlbPort → PlbPort) : (updPlb c p f).mqs = c.mqs := rfl
@[simp] theorem updPlb_path (p : Nat) (f : PlbPort → PlbPort) : (updPlb c p f).path = c.path := rfl
@[simp] theorem updPlb_chg (p : Nat) (f : PlbPort → PlbPort) : (updPlb c p f).chg = c.chg := rfl
@[simp] theorem updPlb_cel (p : Nat) (f : PlbPort → PlbPort) : (updPlb c p f).cel = c.cel := rfl
@[simp] theorem updPlb_ldg (p : Nat) (f : PlbPort → PlbPort) : (updPlb c p f).ldg = c.ldg := rfl
@[simp] theorem updPlb_gdr (p : Nat) (f : PlbPort → PlbPort) : (updPlb c p f).gdr = c.gdr := rfl
@[simp] theorem updPlb_loop (p : Nat) (f : PlbPort → PlbPort) : (updPlb c p f).loop = c.loop := rfl
@[simp] theorem updPlb_thm (p : Nat) (f : PlbPort → PlbPort) : (updPlb c p f).thm = c.thm := rfl
@[simp] theorem updPlb_lsw (p : Nat) (f : PlbPort → PlbPort) : (updPlb c p f).lsw = c.lsw := rfl
@[simp] theorem updPlb_pd (p : Nat) (f : PlbPort → PlbPort) : (updPlb c p f).pd = c.pd := rfl
@[simp] theorem updPlb_plb (p : Nat) (f : PlbPort → PlbPort) : (updPlb c p f).plb = { c.plb with p := vupd c.plb.p p f } := rfl
@[simp] theorem updPlb_vlt (p : Nat) (f : PlbPort → PlbPort) : (updPlb c p f).vlt = c.vlt := rfl
@[simp] theorem updPlb_twn (p : Nat) (f : PlbPort → PlbPort) : (updPlb c p f).twn = c.twn := rfl
@[simp] theorem updPlb_wdg (p : Nat) (f : PlbPort → PlbPort) : (updPlb c p f).wdg = c.wdg := rfl
@[simp] theorem updPlb_flt (p : Nat) (f : PlbPort → PlbPort) : (updPlb c p f).flt = c.flt := rfl
@[simp] theorem updPlb_own (p : Nat) (f : PlbPort → PlbPort) : (updPlb c p f).own = c.own := rfl
@[simp] theorem updPlb_ord (p : Nat) (f : PlbPort → PlbPort) : (updPlb c p f).ord = c.ord := rfl
@[simp] theorem updPlb_meas (p : Nat) (f : PlbPort → PlbPort) : (updPlb c p f).meas = c.meas := rfl
@[simp] theorem updPlb_free (p : Nat) (f : PlbPort → PlbPort) : (updPlb c p f).free = c.free := rfl
@[simp] theorem updPlb_outs (p : Nat) (f : PlbPort → PlbPort) : (updPlb c p f).outs = c.outs := rfl

/-! ### `updAcct` -/

@[simp] theorem updAcct_life (a : Nat) (f : AcctRec → AcctRec) : (updAcct c a f).life = c.life := rfl
@[simp] theorem updAcct_pins (a : Nat) (f : AcctRec → AcctRec) : (updAcct c a f).pins = c.pins := rfl
@[simp] theorem updAcct_otp (a : Nat) (f : AcctRec → AcctRec) : (updAcct c a f).otp = c.otp := rfl
@[simp] theorem updAcct_nvm (a : Nat) (f : AcctRec → AcctRec) : (updAcct c a f).nvm = c.nvm := rfl
@[simp] theorem updAcct_mq (a : Nat) (f : AcctRec → AcctRec) : (updAcct c a f).mq = c.mq := rfl
@[simp] theorem updAcct_mqs (a : Nat) (f : AcctRec → AcctRec) : (updAcct c a f).mqs = c.mqs := rfl
@[simp] theorem updAcct_path (a : Nat) (f : AcctRec → AcctRec) : (updAcct c a f).path = c.path := rfl
@[simp] theorem updAcct_chg (a : Nat) (f : AcctRec → AcctRec) : (updAcct c a f).chg = c.chg := rfl
@[simp] theorem updAcct_cel (a : Nat) (f : AcctRec → AcctRec) : (updAcct c a f).cel = c.cel := rfl
@[simp] theorem updAcct_ldg (a : Nat) (f : AcctRec → AcctRec) : (updAcct c a f).ldg = c.ldg := rfl
@[simp] theorem updAcct_gdr (a : Nat) (f : AcctRec → AcctRec) : (updAcct c a f).gdr = c.gdr := rfl
@[simp] theorem updAcct_loop (a : Nat) (f : AcctRec → AcctRec) : (updAcct c a f).loop = c.loop := rfl
@[simp] theorem updAcct_thm (a : Nat) (f : AcctRec → AcctRec) : (updAcct c a f).thm = c.thm := rfl
@[simp] theorem updAcct_lsw (a : Nat) (f : AcctRec → AcctRec) : (updAcct c a f).lsw = c.lsw := rfl
@[simp] theorem updAcct_pd (a : Nat) (f : AcctRec → AcctRec) : (updAcct c a f).pd = c.pd := rfl
@[simp] theorem updAcct_plb (a : Nat) (f : AcctRec → AcctRec) : (updAcct c a f).plb = c.plb := rfl
@[simp] theorem updAcct_vlt (a : Nat) (f : AcctRec → AcctRec) : (updAcct c a f).vlt = { c.vlt with recs := kupd {} a f c.vlt.recs } := rfl
@[simp] theorem updAcct_twn (a : Nat) (f : AcctRec → AcctRec) : (updAcct c a f).twn = c.twn := rfl
@[simp] theorem updAcct_wdg (a : Nat) (f : AcctRec → AcctRec) : (updAcct c a f).wdg = c.wdg := rfl
@[simp] theorem updAcct_flt (a : Nat) (f : AcctRec → AcctRec) : (updAcct c a f).flt = c.flt := rfl
@[simp] theorem updAcct_own (a : Nat) (f : AcctRec → AcctRec) : (updAcct c a f).own = c.own := rfl
@[simp] theorem updAcct_ord (a : Nat) (f : AcctRec → AcctRec) : (updAcct c a f).ord = c.ord := rfl
@[simp] theorem updAcct_meas (a : Nat) (f : AcctRec → AcctRec) : (updAcct c a f).meas = c.meas := rfl
@[simp] theorem updAcct_free (a : Nat) (f : AcctRec → AcctRec) : (updAcct c a f).free = c.free := rfl
@[simp] theorem updAcct_outs (a : Nat) (f : AcctRec → AcctRec) : (updAcct c a f).outs = c.outs := rfl

/-! ### `book` -/

@[simp] theorem book_life (a : Nat) (k : Column) (f : ColRec → ColRec) : (book c a k f).life = c.life := rfl
@[simp] theorem book_pins (a : Nat) (k : Column) (f : ColRec → ColRec) : (book c a k f).pins = c.pins := rfl
@[simp] theorem book_otp (a : Nat) (k : Column) (f : ColRec → ColRec) : (book c a k f).otp = c.otp := rfl
@[simp] theorem book_nvm (a : Nat) (k : Column) (f : ColRec → ColRec) : (book c a k f).nvm = c.nvm := rfl
@[simp] theorem book_mq (a : Nat) (k : Column) (f : ColRec → ColRec) : (book c a k f).mq = c.mq := rfl
@[simp] theorem book_mqs (a : Nat) (k : Column) (f : ColRec → ColRec) : (book c a k f).mqs = c.mqs := rfl
@[simp] theorem book_path (a : Nat) (k : Column) (f : ColRec → ColRec) : (book c a k f).path = c.path := rfl
@[simp] theorem book_chg (a : Nat) (k : Column) (f : ColRec → ColRec) : (book c a k f).chg = c.chg := rfl
@[simp] theorem book_cel (a : Nat) (k : Column) (f : ColRec → ColRec) : (book c a k f).cel = c.cel := rfl
@[simp] theorem book_ldg (a : Nat) (k : Column) (f : ColRec → ColRec) : (book c a k f).ldg = c.ldg := rfl
@[simp] theorem book_gdr (a : Nat) (k : Column) (f : ColRec → ColRec) : (book c a k f).gdr = c.gdr := rfl
@[simp] theorem book_loop (a : Nat) (k : Column) (f : ColRec → ColRec) : (book c a k f).loop = c.loop := rfl
@[simp] theorem book_thm (a : Nat) (k : Column) (f : ColRec → ColRec) : (book c a k f).thm = c.thm := rfl
@[simp] theorem book_lsw (a : Nat) (k : Column) (f : ColRec → ColRec) : (book c a k f).lsw = c.lsw := rfl
@[simp] theorem book_pd (a : Nat) (k : Column) (f : ColRec → ColRec) : (book c a k f).pd = c.pd := rfl
@[simp] theorem book_plb (a : Nat) (k : Column) (f : ColRec → ColRec) : (book c a k f).plb = c.plb := rfl
@[simp] theorem book_vlt (a : Nat) (k : Column) (f : ColRec → ColRec) : (book c a k f).vlt = c.vlt.book a k (f ((c.vlt.acct a).col k)) := rfl
@[simp] theorem book_twn (a : Nat) (k : Column) (f : ColRec → ColRec) : (book c a k f).twn = c.twn := rfl
@[simp] theorem book_wdg (a : Nat) (k : Column) (f : ColRec → ColRec) : (book c a k f).wdg = c.wdg := rfl
@[simp] theorem book_flt (a : Nat) (k : Column) (f : ColRec → ColRec) : (book c a k f).flt = c.flt := rfl
@[simp] theorem book_own (a : Nat) (k : Column) (f : ColRec → ColRec) : (book c a k f).own = c.own := rfl
@[simp] theorem book_ord (a : Nat) (k : Column) (f : ColRec → ColRec) : (book c a k f).ord = c.ord := rfl
@[simp] theorem book_meas (a : Nat) (k : Column) (f : ColRec → ColRec) : (book c a k f).meas = c.meas := rfl
@[simp] theorem book_free (a : Nat) (k : Column) (f : ColRec → ColRec) : (book c a k f).free = c.free := rfl
@[simp] theorem book_outs (a : Nat) (k : Column) (f : ColRec → ColRec) : (book c a k f).outs = c.outs := rfl

/-! ### `setPair` -/

@[simp] theorem setPair_life (i : Inp) (b : Bool) : (setPair c i b).life = c.life := rfl
@[simp] theorem setPair_pins (i : Inp) (b : Bool) : (setPair c i b).pins = c.pins := rfl
@[simp] theorem setPair_otp (i : Inp) (b : Bool) : (setPair c i b).otp = c.otp := rfl
@[simp] theorem setPair_nvm (i : Inp) (b : Bool) : (setPair c i b).nvm = c.nvm := rfl
@[simp] theorem setPair_mq (i : Inp) (b : Bool) : (setPair c i b).mq = c.mq := rfl
@[simp] theorem setPair_mqs (i : Inp) (b : Bool) : (setPair c i b).mqs = c.mqs := rfl
@[simp] theorem setPair_chg (i : Inp) (b : Bool) : (setPair c i b).chg = c.chg := rfl
@[simp] theorem setPair_cel (i : Inp) (b : Bool) : (setPair c i b).cel = c.cel := rfl
@[simp] theorem setPair_ldg (i : Inp) (b : Bool) : (setPair c i b).ldg = c.ldg := rfl
@[simp] theorem setPair_gdr (i : Inp) (b : Bool) : (setPair c i b).gdr = c.gdr := rfl
@[simp] theorem setPair_loop (i : Inp) (b : Bool) : (setPair c i b).loop = c.loop := rfl
@[simp] theorem setPair_thm (i : Inp) (b : Bool) : (setPair c i b).thm = c.thm := rfl
@[simp] theorem setPair_lsw (i : Inp) (b : Bool) : (setPair c i b).lsw = c.lsw := rfl
@[simp] theorem setPair_pd (i : Inp) (b : Bool) : (setPair c i b).pd = c.pd := rfl
@[simp] theorem setPair_plb (i : Inp) (b : Bool) : (setPair c i b).plb = c.plb := rfl
@[simp] theorem setPair_vlt (i : Inp) (b : Bool) : (setPair c i b).vlt = c.vlt := rfl
@[simp] theorem setPair_twn (i : Inp) (b : Bool) : (setPair c i b).twn = c.twn := rfl
@[simp] theorem setPair_wdg (i : Inp) (b : Bool) : (setPair c i b).wdg = c.wdg := rfl
@[simp] theorem setPair_flt (i : Inp) (b : Bool) : (setPair c i b).flt = c.flt := rfl
@[simp] theorem setPair_own (i : Inp) (b : Bool) : (setPair c i b).own = c.own := rfl
@[simp] theorem setPair_ord (i : Inp) (b : Bool) : (setPair c i b).ord = c.ord := rfl
@[simp] theorem setPair_meas (i : Inp) (b : Bool) : (setPair c i b).meas = c.meas := rfl
@[simp] theorem setPair_free (i : Inp) (b : Bool) : (setPair c i b).free = c.free := rfl
@[simp] theorem setPair_outs (i : Inp) (b : Bool) : (setPair c i b).outs = c.outs := rfl

/-! ### `attend` -/

@[simp] theorem attend_life (k : Nat) : (attend c k).life = c.life := rfl
@[simp] theorem attend_pins (k : Nat) : (attend c k).pins = c.pins := rfl
@[simp] theorem attend_otp (k : Nat) : (attend c k).otp = c.otp := rfl
@[simp] theorem attend_nvm (k : Nat) : (attend c k).nvm = c.nvm := rfl
@[simp] theorem attend_mq (k : Nat) : (attend c k).mq = c.mq := rfl
@[simp] theorem attend_mqs (k : Nat) : (attend c k).mqs = c.mqs := rfl
@[simp] theorem attend_path (k : Nat) : (attend c k).path = c.path := rfl
@[simp] theorem attend_chg (k : Nat) : (attend c k).chg = c.chg := rfl
@[simp] theorem attend_cel (k : Nat) : (attend c k).cel = c.cel := rfl
@[simp] theorem attend_ldg (k : Nat) : (attend c k).ldg = c.ldg := rfl
@[simp] theorem attend_gdr (k : Nat) : (attend c k).gdr = c.gdr := rfl
@[simp] theorem attend_loop (k : Nat) : (attend c k).loop = c.loop := rfl
@[simp] theorem attend_thm (k : Nat) : (attend c k).thm = c.thm := rfl
@[simp] theorem attend_lsw (k : Nat) : (attend c k).lsw = c.lsw := rfl
@[simp] theorem attend_pd (k : Nat) : (attend c k).pd = c.pd := rfl
@[simp] theorem attend_plb (k : Nat) : (attend c k).plb = c.plb := rfl
@[simp] theorem attend_vlt (k : Nat) : (attend c k).vlt = c.vlt := rfl
@[simp] theorem attend_twn (k : Nat) : (attend c k).twn = c.twn := rfl
@[simp] theorem attend_wdg (k : Nat) : (attend c k).wdg = c.wdg := rfl
@[simp] theorem attend_flt (k : Nat) : (attend c k).flt = c.flt := rfl
@[simp] theorem attend_own (k : Nat) : (attend c k).own = c.own := rfl
@[simp] theorem attend_ord (k : Nat) : (attend c k).ord = { c.ord with attnNew := putBit c.ord.attnNew k true } := rfl
@[simp] theorem attend_meas (k : Nat) : (attend c k).meas = c.meas := rfl
@[simp] theorem attend_free (k : Nat) : (attend c k).free = c.free := rfl
@[simp] theorem attend_outs (k : Nat) : (attend c k).outs = c.outs := rfl

/-! ### `updLatch` -/

@[simp] theorem updLatch_life (code : BitVec 16) (inst : BitVec 8) (f : Latch → Latch) : (updLatch c code inst f).life = c.life := rfl
@[simp] theorem updLatch_pins (code : BitVec 16) (inst : BitVec 8) (f : Latch → Latch) : (updLatch c code inst f).pins = c.pins := rfl
@[simp] theorem updLatch_otp (code : BitVec 16) (inst : BitVec 8) (f : Latch → Latch) : (updLatch c code inst f).otp = c.otp := rfl
@[simp] theorem updLatch_nvm (code : BitVec 16) (inst : BitVec 8) (f : Latch → Latch) : (updLatch c code inst f).nvm = c.nvm := rfl
@[simp] theorem updLatch_mq (code : BitVec 16) (inst : BitVec 8) (f : Latch → Latch) : (updLatch c code inst f).mq = c.mq := rfl
@[simp] theorem updLatch_mqs (code : BitVec 16) (inst : BitVec 8) (f : Latch → Latch) : (updLatch c code inst f).mqs = c.mqs := rfl
@[simp] theorem updLatch_path (code : BitVec 16) (inst : BitVec 8) (f : Latch → Latch) : (updLatch c code inst f).path = c.path := rfl
@[simp] theorem updLatch_chg (code : BitVec 16) (inst : BitVec 8) (f : Latch → Latch) : (updLatch c code inst f).chg = c.chg := rfl
@[simp] theorem updLatch_cel (code : BitVec 16) (inst : BitVec 8) (f : Latch → Latch) : (updLatch c code inst f).cel = c.cel := rfl
@[simp] theorem updLatch_ldg (code : BitVec 16) (inst : BitVec 8) (f : Latch → Latch) : (updLatch c code inst f).ldg = c.ldg := rfl
@[simp] theorem updLatch_gdr (code : BitVec 16) (inst : BitVec 8) (f : Latch → Latch) : (updLatch c code inst f).gdr = c.gdr := rfl
@[simp] theorem updLatch_loop (code : BitVec 16) (inst : BitVec 8) (f : Latch → Latch) : (updLatch c code inst f).loop = c.loop := rfl
@[simp] theorem updLatch_thm (code : BitVec 16) (inst : BitVec 8) (f : Latch → Latch) : (updLatch c code inst f).thm = c.thm := rfl
@[simp] theorem updLatch_lsw (code : BitVec 16) (inst : BitVec 8) (f : Latch → Latch) : (updLatch c code inst f).lsw = c.lsw := rfl
@[simp] theorem updLatch_pd (code : BitVec 16) (inst : BitVec 8) (f : Latch → Latch) : (updLatch c code inst f).pd = c.pd := rfl
@[simp] theorem updLatch_plb (code : BitVec 16) (inst : BitVec 8) (f : Latch → Latch) : (updLatch c code inst f).plb = c.plb := rfl
@[simp] theorem updLatch_vlt (code : BitVec 16) (inst : BitVec 8) (f : Latch → Latch) : (updLatch c code inst f).vlt = c.vlt := rfl
@[simp] theorem updLatch_twn (code : BitVec 16) (inst : BitVec 8) (f : Latch → Latch) : (updLatch c code inst f).twn = c.twn := rfl
@[simp] theorem updLatch_wdg (code : BitVec 16) (inst : BitVec 8) (f : Latch → Latch) : (updLatch c code inst f).wdg = c.wdg := rfl
@[simp] theorem updLatch_own (code : BitVec 16) (inst : BitVec 8) (f : Latch → Latch) : (updLatch c code inst f).own = c.own := rfl
@[simp] theorem updLatch_ord (code : BitVec 16) (inst : BitVec 8) (f : Latch → Latch) : (updLatch c code inst f).ord = c.ord := rfl
@[simp] theorem updLatch_meas (code : BitVec 16) (inst : BitVec 8) (f : Latch → Latch) : (updLatch c code inst f).meas = c.meas := rfl
@[simp] theorem updLatch_free (code : BitVec 16) (inst : BitVec 8) (f : Latch → Latch) : (updLatch c code inst f).free = c.free := rfl
@[simp] theorem updLatch_outs (code : BitVec 16) (inst : BitVec 8) (f : Latch → Latch) : (updLatch c code inst f).outs = c.outs := rfl

/-! ### `updLsw` -/

@[simp] theorem updLsw_life (n : Nat) (f : LswCh → LswCh) : (updLsw c n f).life = c.life := rfl
@[simp] theorem updLsw_pins (n : Nat) (f : LswCh → LswCh) : (updLsw c n f).pins = c.pins := rfl
@[simp] theorem updLsw_otp (n : Nat) (f : LswCh → LswCh) : (updLsw c n f).otp = c.otp := rfl
@[simp] theorem updLsw_nvm (n : Nat) (f : LswCh → LswCh) : (updLsw c n f).nvm = c.nvm := rfl
@[simp] theorem updLsw_mq (n : Nat) (f : LswCh → LswCh) : (updLsw c n f).mq = c.mq := rfl
@[simp] theorem updLsw_mqs (n : Nat) (f : LswCh → LswCh) : (updLsw c n f).mqs = c.mqs := rfl
@[simp] theorem updLsw_path (n : Nat) (f : LswCh → LswCh) : (updLsw c n f).path = c.path := rfl
@[simp] theorem updLsw_chg (n : Nat) (f : LswCh → LswCh) : (updLsw c n f).chg = c.chg := rfl
@[simp] theorem updLsw_cel (n : Nat) (f : LswCh → LswCh) : (updLsw c n f).cel = c.cel := rfl
@[simp] theorem updLsw_ldg (n : Nat) (f : LswCh → LswCh) : (updLsw c n f).ldg = c.ldg := rfl
@[simp] theorem updLsw_gdr (n : Nat) (f : LswCh → LswCh) : (updLsw c n f).gdr = c.gdr := rfl
@[simp] theorem updLsw_loop (n : Nat) (f : LswCh → LswCh) : (updLsw c n f).loop = c.loop := rfl
@[simp] theorem updLsw_thm (n : Nat) (f : LswCh → LswCh) : (updLsw c n f).thm = c.thm := rfl
@[simp] theorem updLsw_lsw (n : Nat) (f : LswCh → LswCh) : (updLsw c n f).lsw = { c.lsw with ch := vupd c.lsw.ch n f } := rfl
@[simp] theorem updLsw_pd (n : Nat) (f : LswCh → LswCh) : (updLsw c n f).pd = c.pd := rfl
@[simp] theorem updLsw_plb (n : Nat) (f : LswCh → LswCh) : (updLsw c n f).plb = c.plb := rfl
@[simp] theorem updLsw_vlt (n : Nat) (f : LswCh → LswCh) : (updLsw c n f).vlt = c.vlt := rfl
@[simp] theorem updLsw_twn (n : Nat) (f : LswCh → LswCh) : (updLsw c n f).twn = c.twn := rfl
@[simp] theorem updLsw_wdg (n : Nat) (f : LswCh → LswCh) : (updLsw c n f).wdg = c.wdg := rfl
@[simp] theorem updLsw_flt (n : Nat) (f : LswCh → LswCh) : (updLsw c n f).flt = c.flt := rfl
@[simp] theorem updLsw_own (n : Nat) (f : LswCh → LswCh) : (updLsw c n f).own = c.own := rfl
@[simp] theorem updLsw_ord (n : Nat) (f : LswCh → LswCh) : (updLsw c n f).ord = c.ord := rfl
@[simp] theorem updLsw_meas (n : Nat) (f : LswCh → LswCh) : (updLsw c n f).meas = c.meas := rfl
@[simp] theorem updLsw_free (n : Nat) (f : LswCh → LswCh) : (updLsw c n f).free = c.free := rfl
@[simp] theorem updLsw_outs (n : Nat) (f : LswCh → LswCh) : (updLsw c n f).outs = c.outs := rfl

/-! ### `updSensor` -/

@[simp] theorem updSensor_life (i : Nat) (f : SensorG → SensorG) : (updSensor c i f).life = c.life := rfl
@[simp] theorem updSensor_pins (i : Nat) (f : SensorG → SensorG) : (updSensor c i f).pins = c.pins := rfl
@[simp] theorem updSensor_otp (i : Nat) (f : SensorG → SensorG) : (updSensor c i f).otp = c.otp := rfl
@[simp] theorem updSensor_nvm (i : Nat) (f : SensorG → SensorG) : (updSensor c i f).nvm = c.nvm := rfl
@[simp] theorem updSensor_mq (i : Nat) (f : SensorG → SensorG) : (updSensor c i f).mq = c.mq := rfl
@[simp] theorem updSensor_mqs (i : Nat) (f : SensorG → SensorG) : (updSensor c i f).mqs = c.mqs := rfl
@[simp] theorem updSensor_path (i : Nat) (f : SensorG → SensorG) : (updSensor c i f).path = c.path := rfl
@[simp] theorem updSensor_chg (i : Nat) (f : SensorG → SensorG) : (updSensor c i f).chg = c.chg := rfl
@[simp] theorem updSensor_cel (i : Nat) (f : SensorG → SensorG) : (updSensor c i f).cel = c.cel := rfl
@[simp] theorem updSensor_ldg (i : Nat) (f : SensorG → SensorG) : (updSensor c i f).ldg = c.ldg := rfl
@[simp] theorem updSensor_gdr (i : Nat) (f : SensorG → SensorG) : (updSensor c i f).gdr = c.gdr := rfl
@[simp] theorem updSensor_loop (i : Nat) (f : SensorG → SensorG) : (updSensor c i f).loop = c.loop := rfl
@[simp] theorem updSensor_thm (i : Nat) (f : SensorG → SensorG) : (updSensor c i f).thm = { c.thm with s := vupd c.thm.s i f } := rfl
@[simp] theorem updSensor_lsw (i : Nat) (f : SensorG → SensorG) : (updSensor c i f).lsw = c.lsw := rfl
@[simp] theorem updSensor_pd (i : Nat) (f : SensorG → SensorG) : (updSensor c i f).pd = c.pd := rfl
@[simp] theorem updSensor_plb (i : Nat) (f : SensorG → SensorG) : (updSensor c i f).plb = c.plb := rfl
@[simp] theorem updSensor_vlt (i : Nat) (f : SensorG → SensorG) : (updSensor c i f).vlt = c.vlt := rfl
@[simp] theorem updSensor_twn (i : Nat) (f : SensorG → SensorG) : (updSensor c i f).twn = c.twn := rfl
@[simp] theorem updSensor_wdg (i : Nat) (f : SensorG → SensorG) : (updSensor c i f).wdg = c.wdg := rfl
@[simp] theorem updSensor_flt (i : Nat) (f : SensorG → SensorG) : (updSensor c i f).flt = c.flt := rfl
@[simp] theorem updSensor_own (i : Nat) (f : SensorG → SensorG) : (updSensor c i f).own = c.own := rfl
@[simp] theorem updSensor_ord (i : Nat) (f : SensorG → SensorG) : (updSensor c i f).ord = c.ord := rfl
@[simp] theorem updSensor_meas (i : Nat) (f : SensorG → SensorG) : (updSensor c i f).meas = c.meas := rfl
@[simp] theorem updSensor_free (i : Nat) (f : SensorG → SensorG) : (updSensor c i f).free = c.free := rfl
@[simp] theorem updSensor_outs (i : Nat) (f : SensorG → SensorG) : (updSensor c i f).outs = c.outs := rfl

/-! ### `updSector` -/

@[simp] theorem updSector_life (i : Nat) (f : LogSector → LogSector) : (updSector c i f).life = c.life := rfl
@[simp] theorem updSector_pins (i : Nat) (f : LogSector → LogSector) : (updSector c i f).pins = c.pins := rfl
@[simp] theorem updSector_otp (i : Nat) (f : LogSector → LogSector) : (updSector c i f).otp = c.otp := rfl
@[simp] theorem updSector_nvm (i : Nat) (f : LogSector → LogSector) : (updSector c i f).nvm = { c.nvm with sectors := kupd {} i f c.nvm.sectors } := rfl
@[simp] theorem updSector_mq (i : Nat) (f : LogSector → LogSector) : (updSector c i f).mq = c.mq := rfl
@[simp] theorem updSector_mqs (i : Nat) (f : LogSector → LogSector) : (updSector c i f).mqs = c.mqs := rfl
@[simp] theorem updSector_path (i : Nat) (f : LogSector → LogSector) : (updSector c i f).path = c.path := rfl
@[simp] theorem updSector_chg (i : Nat) (f : LogSector → LogSector) : (updSector c i f).chg = c.chg := rfl
@[simp] theorem updSector_cel (i : Nat) (f : LogSector → LogSector) : (updSector c i f).cel = c.cel := rfl
@[simp] theorem updSector_ldg (i : Nat) (f : LogSector → LogSector) : (updSector c i f).ldg = c.ldg := rfl
@[simp] theorem updSector_gdr (i : Nat) (f : LogSector → LogSector) : (updSector c i f).gdr = c.gdr := rfl
@[simp] theorem updSector_loop (i : Nat) (f : LogSector → LogSector) : (updSector c i f).loop = c.loop := rfl
@[simp] theorem updSector_thm (i : Nat) (f : LogSector → LogSector) : (updSector c i f).thm = c.thm := rfl
@[simp] theorem updSector_lsw (i : Nat) (f : LogSector → LogSector) : (updSector c i f).lsw = c.lsw := rfl
@[simp] theorem updSector_pd (i : Nat) (f : LogSector → LogSector) : (updSector c i f).pd = c.pd := rfl
@[simp] theorem updSector_plb (i : Nat) (f : LogSector → LogSector) : (updSector c i f).plb = c.plb := rfl
@[simp] theorem updSector_vlt (i : Nat) (f : LogSector → LogSector) : (updSector c i f).vlt = c.vlt := rfl
@[simp] theorem updSector_twn (i : Nat) (f : LogSector → LogSector) : (updSector c i f).twn = c.twn := rfl
@[simp] theorem updSector_wdg (i : Nat) (f : LogSector → LogSector) : (updSector c i f).wdg = c.wdg := rfl
@[simp] theorem updSector_flt (i : Nat) (f : LogSector → LogSector) : (updSector c i f).flt = c.flt := rfl
@[simp] theorem updSector_own (i : Nat) (f : LogSector → LogSector) : (updSector c i f).own = c.own := rfl
@[simp] theorem updSector_ord (i : Nat) (f : LogSector → LogSector) : (updSector c i f).ord = c.ord := rfl
@[simp] theorem updSector_meas (i : Nat) (f : LogSector → LogSector) : (updSector c i f).meas = c.meas := rfl
@[simp] theorem updSector_free (i : Nat) (f : LogSector → LogSector) : (updSector c i f).free = c.free := rfl
@[simp] theorem updSector_outs (i : Nat) (f : LogSector → LogSector) : (updSector c i f).outs = c.outs := rfl

/-! ### `updPartner` -/

@[simp] theorem updPartner_life (p a : Nat) (f : Partner → Partner) : (updPartner c p a f).life = c.life := rfl
@[simp] theorem updPartner_pins (p a : Nat) (f : Partner → Partner) : (updPartner c p a f).pins = c.pins := rfl
@[simp] theorem updPartner_otp (p a : Nat) (f : Partner → Partner) : (updPartner c p a f).otp = c.otp := rfl
@[simp] theorem updPartner_nvm (p a : Nat) (f : Partner → Partner) : (updPartner c p a f).nvm = c.nvm := rfl
@[simp] theorem updPartner_mq (p a : Nat) (f : Partner → Partner) : (updPartner c p a f).mq = c.mq := rfl
@[simp] theorem updPartner_mqs (p a : Nat) (f : Partner → Partner) : (updPartner c p a f).mqs = c.mqs := rfl
@[simp] theorem updPartner_path (p a : Nat) (f : Partner → Partner) : (updPartner c p a f).path = c.path := rfl
@[simp] theorem updPartner_chg (p a : Nat) (f : Partner → Partner) : (updPartner c p a f).chg = c.chg := rfl
@[simp] theorem updPartner_cel (p a : Nat) (f : Partner → Partner) : (updPartner c p a f).cel = c.cel := rfl
@[simp] theorem updPartner_ldg (p a : Nat) (f : Partner → Partner) : (updPartner c p a f).ldg = c.ldg := rfl
@[simp] theorem updPartner_gdr (p a : Nat) (f : Partner → Partner) : (updPartner c p a f).gdr = c.gdr := rfl
@[simp] theorem updPartner_loop (p a : Nat) (f : Partner → Partner) : (updPartner c p a f).loop = c.loop := rfl
@[simp] theorem updPartner_thm (p a : Nat) (f : Partner → Partner) : (updPartner c p a f).thm = c.thm := rfl
@[simp] theorem updPartner_lsw (p a : Nat) (f : Partner → Partner) : (updPartner c p a f).lsw = c.lsw := rfl
@[simp] theorem updPartner_pd (p a : Nat) (f : Partner → Partner) : (updPartner c p a f).pd = c.pd := rfl
@[simp] theorem updPartner_vlt (p a : Nat) (f : Partner → Partner) : (updPartner c p a f).vlt = c.vlt := rfl
@[simp] theorem updPartner_twn (p a : Nat) (f : Partner → Partner) : (updPartner c p a f).twn = c.twn := rfl
@[simp] theorem updPartner_wdg (p a : Nat) (f : Partner → Partner) : (updPartner c p a f).wdg = c.wdg := rfl
@[simp] theorem updPartner_flt (p a : Nat) (f : Partner → Partner) : (updPartner c p a f).flt = c.flt := rfl
@[simp] theorem updPartner_own (p a : Nat) (f : Partner → Partner) : (updPartner c p a f).own = c.own := rfl
@[simp] theorem updPartner_ord (p a : Nat) (f : Partner → Partner) : (updPartner c p a f).ord = c.ord := rfl
@[simp] theorem updPartner_meas (p a : Nat) (f : Partner → Partner) : (updPartner c p a f).meas = c.meas := rfl
@[simp] theorem updPartner_free (p a : Nat) (f : Partner → Partner) : (updPartner c p a f).free = c.free := rfl
@[simp] theorem updPartner_outs (p a : Nat) (f : Partner → Partner) : (updPartner c p a f).outs = c.outs := rfl

/-! ### `State.withPath` -/

@[simp] theorem State.withPath_pending (p : PathG) : (s.withPath p).pending = s.pending := rfl
@[simp] theorem State.withPath_img (p : PathG) : (s.withPath p).img = s.img := rfl
@[simp] theorem State.withPath_win (p : PathG) : (s.withPath p).win = s.win := rfl
@[simp] theorem State.withPath_core_life (p : PathG) : (s.withPath p).core.life = s.core.life := rfl
@[simp] theorem State.withPath_core_pins (p : PathG) : (s.withPath p).core.pins = s.core.pins := rfl
@[simp] theorem State.withPath_core_otp (p : PathG) : (s.withPath p).core.otp = s.core.otp := rfl
@[simp] theorem State.withPath_core_nvm (p : PathG) : (s.withPath p).core.nvm = s.core.nvm := rfl
@[simp] theorem State.withPath_core_mq (p : PathG) : (s.withPath p).core.mq = s.core.mq := rfl
@[simp] theorem State.withPath_core_mqs (p : PathG) : (s.withPath p).core.mqs = s.core.mqs := rfl
@[simp] theorem State.withPath_core_path (p : PathG) : (s.withPath p).core.path = p := rfl
@[simp] theorem State.withPath_core_chg (p : PathG) : (s.withPath p).core.chg = s.core.chg := rfl
@[simp] theorem State.withPath_core_cel (p : PathG) : (s.withPath p).core.cel = s.core.cel := rfl
@[simp] theorem State.withPath_core_ldg (p : PathG) : (s.withPath p).core.ldg = s.core.ldg := rfl
@[simp] theorem State.withPath_core_gdr (p : PathG) : (s.withPath p).core.gdr = s.core.gdr := rfl
@[simp] theorem State.withPath_core_loop (p : PathG) : (s.withPath p).core.loop = s.core.loop := rfl
@[simp] theorem State.withPath_core_thm (p : PathG) : (s.withPath p).core.thm = s.core.thm := rfl
@[simp] theorem State.withPath_core_lsw (p : PathG) : (s.withPath p).core.lsw = s.core.lsw := rfl
@[simp] theorem State.withPath_core_pd (p : PathG) : (s.withPath p).core.pd = s.core.pd := rfl
@[simp] theorem State.withPath_core_plb (p : PathG) : (s.withPath p).core.plb = s.core.plb := rfl
@[simp] theorem State.withPath_core_vlt (p : PathG) : (s.withPath p).core.vlt = s.core.vlt := rfl
@[simp] theorem State.withPath_core_twn (p : PathG) : (s.withPath p).core.twn = s.core.twn := rfl
@[simp] theorem State.withPath_core_wdg (p : PathG) : (s.withPath p).core.wdg = s.core.wdg := rfl
@[simp] theorem State.withPath_core_flt (p : PathG) : (s.withPath p).core.flt = s.core.flt := rfl
@[simp] theorem State.withPath_core_own (p : PathG) : (s.withPath p).core.own = s.core.own := rfl
@[simp] theorem State.withPath_core_ord (p : PathG) : (s.withPath p).core.ord = s.core.ord := rfl
@[simp] theorem State.withPath_core_meas (p : PathG) : (s.withPath p).core.meas = s.core.meas := rfl
@[simp] theorem State.withPath_core_free (p : PathG) : (s.withPath p).core.free = s.core.free := rfl

/-! ### `State.withPort` -/

@[simp] theorem State.withPort_pending (i : PdId) (g : PdG) : (s.withPort i g).pending = s.pending := rfl
@[simp] theorem State.withPort_img (i : PdId) (g : PdG) : (s.withPort i g).img = s.img := rfl
@[simp] theorem State.withPort_win (i : PdId) (g : PdG) : (s.withPort i g).win = s.win := rfl
@[simp] theorem State.withPort_core_life (i : PdId) (g : PdG) : (s.withPort i g).core.life = s.core.life := rfl
@[simp] theorem State.withPort_core_pins (i : PdId) (g : PdG) : (s.withPort i g).core.pins = s.core.pins := rfl
@[simp] theorem State.withPort_core_otp (i : PdId) (g : PdG) : (s.withPort i g).core.otp = s.core.otp := rfl
@[simp] theorem State.withPort_core_nvm (i : PdId) (g : PdG) : (s.withPort i g).core.nvm = s.core.nvm := rfl
@[simp] theorem State.withPort_core_mq (i : PdId) (g : PdG) : (s.withPort i g).core.mq = s.core.mq := rfl
@[simp] theorem State.withPort_core_mqs (i : PdId) (g : PdG) : (s.withPort i g).core.mqs = s.core.mqs := rfl
@[simp] theorem State.withPort_core_path (i : PdId) (g : PdG) : (s.withPort i g).core.path = s.core.path := rfl
@[simp] theorem State.withPort_core_chg (i : PdId) (g : PdG) : (s.withPort i g).core.chg = s.core.chg := rfl
@[simp] theorem State.withPort_core_cel (i : PdId) (g : PdG) : (s.withPort i g).core.cel = s.core.cel := rfl
@[simp] theorem State.withPort_core_ldg (i : PdId) (g : PdG) : (s.withPort i g).core.ldg = s.core.ldg := rfl
@[simp] theorem State.withPort_core_gdr (i : PdId) (g : PdG) : (s.withPort i g).core.gdr = s.core.gdr := rfl
@[simp] theorem State.withPort_core_loop (i : PdId) (g : PdG) : (s.withPort i g).core.loop = s.core.loop := rfl
@[simp] theorem State.withPort_core_thm (i : PdId) (g : PdG) : (s.withPort i g).core.thm = s.core.thm := rfl
@[simp] theorem State.withPort_core_lsw (i : PdId) (g : PdG) : (s.withPort i g).core.lsw = s.core.lsw := rfl
@[simp] theorem State.withPort_core_pd (i : PdId) (g : PdG) : (s.withPort i g).core.pd = vupd s.core.pd (pdIx i) fun _ => g := rfl
@[simp] theorem State.withPort_core_plb (i : PdId) (g : PdG) : (s.withPort i g).core.plb = s.core.plb := rfl
@[simp] theorem State.withPort_core_vlt (i : PdId) (g : PdG) : (s.withPort i g).core.vlt = s.core.vlt := rfl
@[simp] theorem State.withPort_core_twn (i : PdId) (g : PdG) : (s.withPort i g).core.twn = s.core.twn := rfl
@[simp] theorem State.withPort_core_wdg (i : PdId) (g : PdG) : (s.withPort i g).core.wdg = s.core.wdg := rfl
@[simp] theorem State.withPort_core_flt (i : PdId) (g : PdG) : (s.withPort i g).core.flt = s.core.flt := rfl
@[simp] theorem State.withPort_core_own (i : PdId) (g : PdG) : (s.withPort i g).core.own = s.core.own := rfl
@[simp] theorem State.withPort_core_ord (i : PdId) (g : PdG) : (s.withPort i g).core.ord = s.core.ord := rfl
@[simp] theorem State.withPort_core_meas (i : PdId) (g : PdG) : (s.withPort i g).core.meas = s.core.meas := rfl
@[simp] theorem State.withPort_core_free (i : PdId) (g : PdG) : (s.withPort i g).core.free = s.core.free := rfl

/-! ### `State.withChannel` -/

@[simp] theorem State.withChannel_pending (n : Fin 8) (x : LswCh) : (s.withChannel n x).pending = s.pending := rfl
@[simp] theorem State.withChannel_img (n : Fin 8) (x : LswCh) : (s.withChannel n x).img = s.img := rfl
@[simp] theorem State.withChannel_win (n : Fin 8) (x : LswCh) : (s.withChannel n x).win = s.win := rfl
@[simp] theorem State.withChannel_core_life (n : Fin 8) (x : LswCh) : (s.withChannel n x).core.life = s.core.life := rfl
@[simp] theorem State.withChannel_core_pins (n : Fin 8) (x : LswCh) : (s.withChannel n x).core.pins = s.core.pins := rfl
@[simp] theorem State.withChannel_core_otp (n : Fin 8) (x : LswCh) : (s.withChannel n x).core.otp = s.core.otp := rfl
@[simp] theorem State.withChannel_core_nvm (n : Fin 8) (x : LswCh) : (s.withChannel n x).core.nvm = s.core.nvm := rfl
@[simp] theorem State.withChannel_core_mq (n : Fin 8) (x : LswCh) : (s.withChannel n x).core.mq = s.core.mq := rfl
@[simp] theorem State.withChannel_core_mqs (n : Fin 8) (x : LswCh) : (s.withChannel n x).core.mqs = s.core.mqs := rfl
@[simp] theorem State.withChannel_core_path (n : Fin 8) (x : LswCh) : (s.withChannel n x).core.path = s.core.path := rfl
@[simp] theorem State.withChannel_core_chg (n : Fin 8) (x : LswCh) : (s.withChannel n x).core.chg = s.core.chg := rfl
@[simp] theorem State.withChannel_core_cel (n : Fin 8) (x : LswCh) : (s.withChannel n x).core.cel = s.core.cel := rfl
@[simp] theorem State.withChannel_core_ldg (n : Fin 8) (x : LswCh) : (s.withChannel n x).core.ldg = s.core.ldg := rfl
@[simp] theorem State.withChannel_core_gdr (n : Fin 8) (x : LswCh) : (s.withChannel n x).core.gdr = s.core.gdr := rfl
@[simp] theorem State.withChannel_core_loop (n : Fin 8) (x : LswCh) : (s.withChannel n x).core.loop = s.core.loop := rfl
@[simp] theorem State.withChannel_core_thm (n : Fin 8) (x : LswCh) : (s.withChannel n x).core.thm = s.core.thm := rfl
@[simp] theorem State.withChannel_core_lsw (n : Fin 8) (x : LswCh) : (s.withChannel n x).core.lsw = { s.core.lsw with ch := vupd s.core.lsw.ch n.val fun _ => x } := rfl
@[simp] theorem State.withChannel_core_pd (n : Fin 8) (x : LswCh) : (s.withChannel n x).core.pd = s.core.pd := rfl
@[simp] theorem State.withChannel_core_plb (n : Fin 8) (x : LswCh) : (s.withChannel n x).core.plb = s.core.plb := rfl
@[simp] theorem State.withChannel_core_vlt (n : Fin 8) (x : LswCh) : (s.withChannel n x).core.vlt = s.core.vlt := rfl
@[simp] theorem State.withChannel_core_twn (n : Fin 8) (x : LswCh) : (s.withChannel n x).core.twn = s.core.twn := rfl
@[simp] theorem State.withChannel_core_wdg (n : Fin 8) (x : LswCh) : (s.withChannel n x).core.wdg = s.core.wdg := rfl
@[simp] theorem State.withChannel_core_flt (n : Fin 8) (x : LswCh) : (s.withChannel n x).core.flt = s.core.flt := rfl
@[simp] theorem State.withChannel_core_own (n : Fin 8) (x : LswCh) : (s.withChannel n x).core.own = s.core.own := rfl
@[simp] theorem State.withChannel_core_ord (n : Fin 8) (x : LswCh) : (s.withChannel n x).core.ord = s.core.ord := rfl
@[simp] theorem State.withChannel_core_meas (n : Fin 8) (x : LswCh) : (s.withChannel n x).core.meas = s.core.meas := rfl
@[simp] theorem State.withChannel_core_free (n : Fin 8) (x : LswCh) : (s.withChannel n x).core.free = s.core.free := rfl

/-! ### `State.withTwin` -/

@[simp] theorem State.withTwin_pending (g : TwnG) : (s.withTwin g).pending = s.pending := rfl
@[simp] theorem State.withTwin_img (g : TwnG) : (s.withTwin g).img = s.img := rfl
@[simp] theorem State.withTwin_win (g : TwnG) : (s.withTwin g).win = s.win := rfl
@[simp] theorem State.withTwin_core_life (g : TwnG) : (s.withTwin g).core.life = s.core.life := rfl
@[simp] theorem State.withTwin_core_pins (g : TwnG) : (s.withTwin g).core.pins = s.core.pins := rfl
@[simp] theorem State.withTwin_core_otp (g : TwnG) : (s.withTwin g).core.otp = s.core.otp := rfl
@[simp] theorem State.withTwin_core_nvm (g : TwnG) : (s.withTwin g).core.nvm = s.core.nvm := rfl
@[simp] theorem State.withTwin_core_mq (g : TwnG) : (s.withTwin g).core.mq = s.core.mq := rfl
@[simp] theorem State.withTwin_core_mqs (g : TwnG) : (s.withTwin g).core.mqs = s.core.mqs := rfl
@[simp] theorem State.withTwin_core_path (g : TwnG) : (s.withTwin g).core.path = s.core.path := rfl
@[simp] theorem State.withTwin_core_chg (g : TwnG) : (s.withTwin g).core.chg = s.core.chg := rfl
@[simp] theorem State.withTwin_core_cel (g : TwnG) : (s.withTwin g).core.cel = s.core.cel := rfl
@[simp] theorem State.withTwin_core_ldg (g : TwnG) : (s.withTwin g).core.ldg = s.core.ldg := rfl
@[simp] theorem State.withTwin_core_gdr (g : TwnG) : (s.withTwin g).core.gdr = s.core.gdr := rfl
@[simp] theorem State.withTwin_core_loop (g : TwnG) : (s.withTwin g).core.loop = s.core.loop := rfl
@[simp] theorem State.withTwin_core_thm (g : TwnG) : (s.withTwin g).core.thm = s.core.thm := rfl
@[simp] theorem State.withTwin_core_lsw (g : TwnG) : (s.withTwin g).core.lsw = s.core.lsw := rfl
@[simp] theorem State.withTwin_core_pd (g : TwnG) : (s.withTwin g).core.pd = s.core.pd := rfl
@[simp] theorem State.withTwin_core_plb (g : TwnG) : (s.withTwin g).core.plb = s.core.plb := rfl
@[simp] theorem State.withTwin_core_vlt (g : TwnG) : (s.withTwin g).core.vlt = s.core.vlt := rfl
@[simp] theorem State.withTwin_core_twn (g : TwnG) : (s.withTwin g).core.twn = g := rfl
@[simp] theorem State.withTwin_core_wdg (g : TwnG) : (s.withTwin g).core.wdg = s.core.wdg := rfl
@[simp] theorem State.withTwin_core_flt (g : TwnG) : (s.withTwin g).core.flt = s.core.flt := rfl
@[simp] theorem State.withTwin_core_own (g : TwnG) : (s.withTwin g).core.own = s.core.own := rfl
@[simp] theorem State.withTwin_core_ord (g : TwnG) : (s.withTwin g).core.ord = s.core.ord := rfl
@[simp] theorem State.withTwin_core_meas (g : TwnG) : (s.withTwin g).core.meas = s.core.meas := rfl
@[simp] theorem State.withTwin_core_free (g : TwnG) : (s.withTwin g).core.free = s.core.free := rfl

/-! ### `State.queued` -/

@[simp] theorem State.queued_pending (m : Master) (k : Nat) (v : BitVec 32) : (s.queued m k v).pending = s.pending := rfl
@[simp] theorem State.queued_img (m : Master) (k : Nat) (v : BitVec 32) : (s.queued m k v).img = s.img := rfl
@[simp] theorem State.queued_win (m : Master) (k : Nat) (v : BitVec 32) : (s.queued m k v).win = s.win := rfl
@[simp] theorem State.queued_core_life (m : Master) (k : Nat) (v : BitVec 32) : (s.queued m k v).core.life =
    if m == .host then (wakeBegin s.core false).life else s.core.life := rfl
@[simp] theorem State.queued_core_pins (m : Master) (k : Nat) (v : BitVec 32) : (s.queued m k v).core.pins = s.core.pins := rfl
@[simp] theorem State.queued_core_otp (m : Master) (k : Nat) (v : BitVec 32) : (s.queued m k v).core.otp = s.core.otp := rfl
@[simp] theorem State.queued_core_nvm (m : Master) (k : Nat) (v : BitVec 32) : (s.queued m k v).core.nvm = s.core.nvm := rfl
@[simp] theorem State.queued_core_mq (m : Master) (k : Nat) (v : BitVec 32) : (s.queued m k v).core.mq = s.core.mq := rfl
@[simp] theorem State.queued_core_mqs (m : Master) (k : Nat) (v : BitVec 32) : (s.queued m k v).core.mqs = s.core.mqs := rfl
@[simp] theorem State.queued_core_path (m : Master) (k : Nat) (v : BitVec 32) : (s.queued m k v).core.path = s.core.path := rfl
@[simp] theorem State.queued_core_chg (m : Master) (k : Nat) (v : BitVec 32) : (s.queued m k v).core.chg = s.core.chg := rfl
@[simp] theorem State.queued_core_cel (m : Master) (k : Nat) (v : BitVec 32) : (s.queued m k v).core.cel = s.core.cel := rfl
@[simp] theorem State.queued_core_ldg (m : Master) (k : Nat) (v : BitVec 32) : (s.queued m k v).core.ldg = s.core.ldg := rfl
@[simp] theorem State.queued_core_gdr (m : Master) (k : Nat) (v : BitVec 32) : (s.queued m k v).core.gdr = s.core.gdr := rfl
@[simp] theorem State.queued_core_loop (m : Master) (k : Nat) (v : BitVec 32) : (s.queued m k v).core.loop = s.core.loop := rfl
@[simp] theorem State.queued_core_thm (m : Master) (k : Nat) (v : BitVec 32) : (s.queued m k v).core.thm = s.core.thm := rfl
@[simp] theorem State.queued_core_lsw (m : Master) (k : Nat) (v : BitVec 32) : (s.queued m k v).core.lsw = s.core.lsw := rfl
@[simp] theorem State.queued_core_pd (m : Master) (k : Nat) (v : BitVec 32) : (s.queued m k v).core.pd = s.core.pd := rfl
@[simp] theorem State.queued_core_plb (m : Master) (k : Nat) (v : BitVec 32) : (s.queued m k v).core.plb = s.core.plb := rfl
@[simp] theorem State.queued_core_vlt (m : Master) (k : Nat) (v : BitVec 32) : (s.queued m k v).core.vlt = s.core.vlt := rfl
@[simp] theorem State.queued_core_twn (m : Master) (k : Nat) (v : BitVec 32) : (s.queued m k v).core.twn = s.core.twn := rfl
@[simp] theorem State.queued_core_wdg (m : Master) (k : Nat) (v : BitVec 32) : (s.queued m k v).core.wdg = s.core.wdg := rfl
@[simp] theorem State.queued_core_flt (m : Master) (k : Nat) (v : BitVec 32) : (s.queued m k v).core.flt = s.core.flt := rfl
@[simp] theorem State.queued_core_own (m : Master) (k : Nat) (v : BitVec 32) : (s.queued m k v).core.own = s.core.own := rfl
@[simp] theorem State.queued_core_meas (m : Master) (k : Nat) (v : BitVec 32) : (s.queued m k v).core.meas = s.core.meas := rfl
@[simp] theorem State.queued_core_free (m : Master) (k : Nat) (v : BitVec 32) : (s.queued m k v).core.free = s.core.free := rfl

end Sys2Proof.Machine
end

