-- ==== Sys2Proof/Tests/Slice0.lean ====
section
/-! SUPPORT. The model's own tests: small steps with results taken from the spec, ill-formed commands, and for every
statement a state and operands that meet its hypotheses. -/

open Sys2Proof Sys2Proof.Machine

-- One test at a time: the kernel evaluates some of them at length, and many at once take more memory than a check has.
set_option Elab.async false

/-! ### Ill-formed commands: every check of `wellFormed` refuses one -/

theorem test_wellFormed_frames :
    wellFormed (.request 0 { dest := 0, src := 1, type := 0x40, ctl := 0, payload := List.replicate 16 0 }) = true ∧
      wellFormed (.request 0 { dest := 0, src := 1, type := 0x40, ctl := 0, payload := List.replicate 17 0 }) = false ∧
      wellFormed (.enrol 0 { dest := 0, src := 0xFF, type := 0x40, ctl := 0, payload := [] }) = false ∧
      wellFormed (.responseMiss 0 0xFF false) = false ∧ wellFormed (.collisionReinvite 0 0xFF) = false := by decide

theorem test_wellFormed_accounts :
    wellFormed (.leaseEnd 4066 .supply) = true ∧ wellFormed (.leaseEnd 4067 .supply) = false ∧
      wellFormed (.loweringTimeout 4067 .ret) = false ∧ wellFormed (.grantUndeliveredTimeout 4067 .ret) = false ∧
      wellFormed (.requestWaitLimit 4067 .supply) = false ∧ wellFormed (.burstWindowEnd 4067) = false ∧
      wellFormed (.burstPauseEnd 4067) = false ∧ wellFormed (.vaultAudit [4066, 4067] false) = false := by decide

theorem test_wellFormed_transactions :
    wellFormed (.snapshotRead { bytes := [0x0B], strayBits := 7 }) = true ∧
      wellFormed (.snapshotRead { bytes := [0x9F], strayBits := 0 }) = false ∧
      wellFormed (.orderWrite { bytes := [0x02], strayBits := 8 }) = false ∧
      wellFormed (.identity { bytes := [], strayBits := 0 }) = false ∧
      wellFormed (.w1cAcknowledgeWrite { bytes := [0x02], strayBits := 0 }) = false ∧
      wellFormed (.stagingData 2 [0, 0, 0, 0]) = false ∧ wellFormed (.stagingData 0 [0]) = false ∧
      wellFormed (.stagingData 0 []) = false ∧ wellFormed (.stagingData 0 [1, 2, 3, 4]) = true := by decide

theorem test_wellFormed_longChunk : wellFormed (.stagingData 0 (List.replicate 260 0)) = false := by
  simp only [wellFormed, List.length_replicate]
  rfl

theorem test_wellFormed_lists :
    wellFormed (.conversionWindowEnd (List.replicate 17 0) 0 0) = false ∧
      wellFormed (.diagnosticWindowEnd (List.replicate 17 0) 0) = false ∧
      wellFormed (.sourceCapabilities .a (List.replicate 12 { fixed := true, v50 := 100, i10 := 10 }) false false false) = false ∧
      wellFormed (.pdRequest .a 0 10) = false ∧ wellFormed (.pdRequest .b 12 10) = false ∧
      wellFormed (.pdRequest .b 11 10) = true ∧
      wellFormed (.cells { seq := 0, crcOk := true } { closeNo := 0, stack := 0, cells := List.replicate 17 0 }) = false ∧
      wellFormed (.orders { seq := 0, crcOk := true } { gen := 0, entries := [(22, 0)] }) = true ∧
      wellFormed (.orders { seq := 0, crcOk := true } { gen := 0, entries := [(23, 0)] }) = false := by decide

theorem test_wellFormed_mirrorAndSample (r : MirrorRec) (x : Sample) (h : x.lsw = []) :
    wellFormed (.mirror { seq := 0, crcOk := true } { first := 0, recs := List.replicate 8 r }) = false ∧
      wellFormed (.ledgerSample x) = false := by
  simp [wellFormed, h]

/-! ### Values worked out by hand from the rules -/

/-- The check values that the published CRC parameters have for the nine bytes "123456789" (R313, R495, Table 17-3). -/
theorem test_crcs :
    crc16 [0x31, 0x32, 0x33, 0x34, 0x35, 0x36, 0x37, 0x38, 0x39] = 0x29B1 ∧
      crc8 [0x31, 0x32, 0x33, 0x34, 0x35, 0x36, 0x37, 0x38, 0x39] = 0xF4 := by decide +kernel

/-- SHA-256 of "abc" (FIPS 180-4), and the signature of "sample" in RFC 6979 A.2.5 (R82 names the algorithms). -/
theorem test_sha256 :
    sha256 [0x61, 0x62, 0x63] = 0xba7816bf8f01cfea414140de5dae2223b00361a396177a9cb410ff61f20015ad := by decide +kernel

theorem test_ecdsa :
    ecdsaVerify 0x60FED4BA255A9D31C961EB74C6356D68C049B8923B61FA6CE669622E60F29FB6
      0x7903FE1008B8BC99A41AE9E95628BC64F2F1B20C2D7E9F5177A3C294D4462299
      0xEFD48B2AACB6A8FD1140DD9CD45E81D69D2C877B56AAF991C34D0EA84EAF3716
      0xF7CB1C942D657C41D436C7A1B6E29F65F3E900DBB9AFF4064DC4AB2F843ACDA8
      (sha256 [0x73, 0x61, 0x6d, 0x70, 0x6c, 0x65]) = true := by decide +kernel

theorem test_crc32 : crc32 [0x31, 0x32, 0x33, 0x34, 0x35, 0x36, 0x37, 0x38, 0x39] = 0xCBF43926 := by decide +kernel

/-- 5 V at 3 A is 30 tokens of 0.5 W, and a milliampere more needs one more; the last account is 4063 (R312, R384). -/
theorem test_tokens : tokensFor 5000 3000 = 30 ∧ tokensFor 5000 3001 = 31 ∧ acctNo 0 1 0 = 0 ∧ acctNo 3 254 3 = 4063 := by
  decide

/-- 1 mV on 100 µΩ is 10 A; in 10 µs that is 0.1 mC, and -0.1 mC rounds down (R260, R262). -/
theorem test_charge : shuntCharge 1000000 100 = 429496729 ∧ shuntCharge (-1000000) 100 = -429496730 := by decide

/-- Events of ticks 0, 10, 100 and 1000 (Table 01-8, R41). -/
theorem test_due :
    dueAt 2000 = [.close, .decision, .audit, .plinth] ∧ dueAt 1100 = [.decision, .audit, .plinth] ∧
      dueAt 1010 = [.decision] ∧ dueAt 1011 = [] := by decide

/-- Slot codes of Table 18-2, and one that it does not have. -/
theorem test_slots :
    slotIx 0x0001 = some 0 ∧ slotIx 0x0010 = some 6 ∧ slotIx 0x0040 = some 21 ∧ slotIx 0x0087 = some 30 ∧
      slotIx 0x0007 = none := by decide

/-! ### States and outcomes the tests use -/

/-- A Lead in Run that charges, with an image in force. -/
def tRun : State :=
  { core := { life := { st := .run, mode := .charge, pwmLock := true, sysLock := true }, mq := some {}
              twn := { role := .lead } } }

/-- The same with its controller changed. -/
def tWith (f : Core → Core) : State := { tRun with core := f tRun.core }

/-- The same with its image changed. -/
def tMq (f : Maquette → Maquette) : State := tWith fun c => { c with mq := c.mq.map f }

/-- The machine after reset in another lifecycle state. -/
def tIn (l : Life) : State := { core := { life := { st := l } } }

/-- The state a command answers. -/
def tOut (i : Instr) (s : State) : State :=
  match exec i s with
  | .next t => t
  | _ => s

/-- A read of the word at address 0. -/
def tRead : WinFrame := readFrame 0x0B 0 4

/-! ### Chapters 01 and 19: queue, image, port -/

theorem test_hyp_StepRunsTheFrontCommand : State.reset.pending = [] := rfl

theorem test_hyp_ImageChangesOnlyWhenPublished :
    publishes .checkpointDue = false ∧ goesOn (exec .checkpointDue tRun) = true := by decide

theorem test_hyp_PublishedPinsAgreeWithStatus :
    State.reset.imageOk = true ∧ goesOn (step State.reset) = true := by decide

theorem test_hyp_ReadsSeeOnlyTheImage :
    tRun.img = (tWith fun c => { c with free := 1 }).img ∧
      tRun.core.life.st = (tWith fun c => { c with free := 1 }).core.life.st ∧
      goesOn (exec (.snapshotRead tRead) tRun) = true := by decide

/-! ### Chapter 04: start, Reset, watchdog, Dormant -/

/-- What Boot reads in a device whose checks have passed. -/
def tBoot : BootRead :=
  { us := 0, jedec := 0x170000, slotEcc := 0, idEcc := false, iPack := 0, vsys := 48000, keyTestOk := true
    probesOk := true, klnSec := 0 }

theorem test_hyp_StartSourceBeginsBoot :
    State.reset.core.life.st = .off ∧ State.reset.core.pins.rstN = false ∧
      ({ core := { pins := { rstN := true } } } : State).core.life.st = .off ∧
      ({ core := { pins := { rstN := true } } } : State).core.pins.rstN = true ∧
      (tOut (.startSourceQualifies 16000 0 0 false) State.reset).core.life.st = .boot ∧
      (tOut (.startSourceQualifies 15999 17999 18000 false) State.reset).core.life.st = .off := by decide

theorem test_hyp_VauxKeepsTheControllerAlive :
    tRun.core.life.st ≠ .off ∧ (tOut .vauxLoss tRun).core.life.st = .off ∧
      (tOut (.vauxSourceChange 48500 0 48000) tRun).core.pins.vaux = .vsys ∧
      (tOut (.vauxSourceChange 48501 0 48000) tRun).core.pins.vaux = .vmain := by decide

theorem test_hyp_ResetSourcesTakeReset :
    (tIn .run).core.life.st ≠ .off ∧ (tIn .run).core.life.st ≠ .reset ∧ (tIn .safeHold).core.life.st = .safeHold ∧
      (tIn .dormant).core.life.st = .dormant ∧
      ({ core := { life := { st := .boot }, wdg := { bootTmo := true } } } : State).core.wdg.bootTmo = true ∧
      ({ core := { life := { st := .dormant, bksWake := true, waking := true } } } : State).core.life.bksWake = true ∧
      ({ core := { life := { st := .run, resetOrder := true } } } : State).core.life.resetOrder = true ∧
      (tIn .reset).core.life.st = .reset ∧ (tIn .reset).core.outs.entry = false ∧ (tIn .boot).core.life.st = .boot ∧
      (tOut .moscLoss (tIn .boot)).core.life.rstCause = 0x20 := by decide

theorem test_hyp_CaptureIsTakenOnce :
    tRun.core.life.st = .run ∧ tRun.core.wdg.cap.valid = false ∧
      (tWith fun c => { c with wdg := { cap := { valid := true, lost := 255 } } }).core.wdg.cap.valid = true ∧
      (tOut .moscLoss (tWith fun c => { c with wdg := { cap := { valid := true, lost := 255 } } })).core.wdg.cap.lost
        = 255 := by decide

theorem test_hyp_ResetEndsInBoot :
    (tIn .reset).core.life.st = .reset ∧ (tIn .reset).core.pins.rstN = false ∧ (tIn .reset).core.life.mosc = true ∧
      ({ core := { life := { st := .reset, mosc := false }, pins := { rstN := true } } } : State).core.life.st = .reset ∧
      ({ core := { life := { st := .reset, holdDone := true } } } : State).core.life.holdDone = true ∧
      (tIn .reset).core.life.holdDone = false ∧
      (tOut (.rstNReleased false) (tIn .reset)).core.life.st = .reset ∧
      (tOut (.resetRelease false) (tIn .reset)).core.life.st = .boot := by decide

theorem test_hyp_BootEndsInSafeHold :
    (tIn .boot).core.life.st = .boot ∧ bootSelect (tIn .boot).core tBoot = (1, 1, none) ∧
      (tIn .boot).core.life.tmodeHold = false ∧ (tIn .boot).core.pins.twPres = false ∧
      ({ core := { life := { st := .boot, tmodeHold := true } } } : State).core.life.tmodeHold = true := by decide

theorem test_hyp_ClockFaultsStopTheStage :
    tRun.core.life.klnLost = false ∧ classInForce tRun.core 0x1802 .a = .a ∧ classInForce tRun.core 0x0A08 .a = .a ∧
      classInForce (tMq fun m => { m with fltr := { m.fltr with
        entries := [{ code := 0x0A08, cls := 4 }, { code := 0x1802, cls := 4 }] } }).core 0x1802 .a = .d ∧
      classInForce (tMq fun m => { m with fltr := { m.fltr with
        entries := [{ code := 0x0A08, cls := 4 }, { code := 0x1802, cls := 4 }] } }).core 0x0A08 .a = .d := by decide

/-- A watchdog that runs in Run, in period 7 with task 1 still to come. -/
def tWdg : State := tWith fun c => { c with wdg := { run := true, period := 10, num := 7, missing := 0x3E } }

theorem test_hyp_WatchdogTakesKeys :
    tWdg.core.wdg.run = true ∧ ([0xA1, 0xB2, 0xC3, 0xD4, 0xE5, 0xF6] : List Nat)[1]? = some ((0xB207 : BitVec 16).toNat / 256) ∧
      (0xB207 : BitVec 16).toNat % 256 = tWdg.core.wdg.num.toNat % 256 ∧ tWdg.core.wdg.missing.getLsbD 1 = true ∧
      tWdg.core.wdg.missing.getLsbD 0 = false ∧ tWdg.core.wdg.num ≠ 0 ∧
      (0xA106 : BitVec 16).toNat % 256 = (tWdg.core.wdg.num - 1).toNat % 256 ∧
      (0xA708 : BitVec 16).toNat / 256 ∉ [0xA1, 0xB2, 0xC3, 0xD4, 0xE5, 0xF6] ∧
      (0xA108 : BitVec 16).toNat % 256 ≠ (tWdg.core.wdg.num - 1).toNat % 256 := by decide

theorem test_hyp_WatchdogStartsAndCountsPeriods :
    tRun.core.life.st = .run ∧ tRun.core.wdg.run = false ∧ (0xA100 : BitVec 16).toNat % 256 = 0 ∧
      (tMq fun m => { m with wdog := { m.wdog with start := true } }).core.maq.wdog.start = true ∧
      tRun.core.maq.wdog.start = false ∧ tWdg.core.wdg.bootTmo = false ∧ tWdg.core.wdg.missing ≠ 0 ∧
      (tWith fun c => { c with wdg := { run := true } }).core.wdg.bootTmo = false := by decide

/-- A controller in Run whose Dormant conditions hold. -/
def tIdle : State :=
  { tMq (fun m => { m with path := { m.path with tIdle := 10 } }) with
    core := { (tMq fun m => { m with path := { m.path with tIdle := 10 } }).core with
      thm := { pack := 2, packApp := 2 }, path := { batfet := .full } } }

theorem test_hyp_DormantIsEntered :
    tIdle.core.maq.path.tIdle ≠ 0 ∧ dormantMay tIdle.core = true ∧
      dormantMay (tWith fun c => { c with life := { c.life with wakeWd := true } }).core = true ∧
      tRun.core.wdg.missing = 0 ∧
      merged (tWith fun c => { c with ord := { c.ord with s := vupd c.ord.s 21 fun x => { x with merged := 1 } } }).core 21
        ≠ 0 ∧
      dormantMay (tWith fun c => { c with own := { c.own with step := 1 } }).core = false := by decide

theorem test_hyp_noResetRaised (l : Life) :
    noResetRaised tRun.core ∧ noResetRaised tIdle.core ∧ noResetRaised (tIn l).core :=
  ⟨(fun _ he => nomatch he), (fun _ he => nomatch he), (fun _ he => nomatch he)⟩

theorem test_hyp_DormantIsLeftByWakeAndLock :
    (tIn .dormant).core.life.st = .dormant ∧ WakeSource.watchdog ≠ WakeSource.vmain ∧
      ({ core := { life := { st := .dormant, waking := true }, wdg := { run := true } } } : State).core.wdg.run = true ∧
      (tIn .dormant).core.life.waking = false := by decide

/-! ### Chapters 01 and 19: modes, grid, transactions -/

theorem test_hyp_ModeChangesAtThe51stDecision :
    ({ st := .run, mode := .charge } : LifeG).modeNow = false ∧ ({ st := .run, mode := .charge } : LifeG).pathDriven = false ∧
      ({ st := .run, mode := .charge } : LifeG).mode ≠ .reservoir ∧
      ({ st := .run, mode := .charge } : LifeG).modePend ≠ some .reservoir ∧
      Mode.return_ ≠ ({ st := .run, mode := .charge } : LifeG).mode := by decide

/-- Run with the next decision acting without dwell, and a state of the path. -/
def tDecide (p : PathG) : State := tWith fun c => { c with path := p, life := { c.life with modeNow := true, due := [.decision] } }

theorem test_hyp_DecisionsFollowTheModeTable :
    (tDecide {}).core.life.modeNow = true ∧ (takeTurn (tDecide {}).core.life .decision).isSome = true ∧ (tDecide {}).core.path.export_ = none ∧ (tDecide {}).core.path.active = none ∧
      (tDecide { active := some .main }).core.path.active ≠ none ∧
      ispValid (tDecide { active := some .main }).core = true ∧
      ispValid (tWith fun c => { c with ldg := { c.ldg with ch := vupd c.ldg.ch 4 fun x => { x with iso := true } } }).core
        = false ∧
      (tDecide { export_ := some { port := .main, step := .active, volt := 24000, limit := 1000 } }).core.path.export_
        ≠ none ∧
      (tOut (.modeDecision (-200)) (tDecide { active := some .main })).core.life.mode = .reservoir ∧
      (tOut (.modeDecision (-199)) (tDecide { active := some .main })).core.life.mode = .charge := by decide

theorem test_hyp_AModeExactlyInRun :
    (State.reset.core.life.st = .run ↔ State.reset.core.life.mode ≠ .none) ∧
      (tRun.core.life.st = .run ↔ tRun.core.life.mode ≠ .none) ∧ goesOn (step tRun) = true := by decide

theorem test_hyp_SafeHoldIsLeftByResetOrOff :
    ({ tIn .safeHold with pending := [.moscLoss] } : State).core.life.st = .safeHold ∧
      goesOn (step { tIn .safeHold with pending := [.moscLoss] }) = true := by decide

/-- Run with grid events due, and others left over from the tick before. -/
def tGrid (due late : List GridEvent) : State := tWith fun c => { c with life := { c.life with due := due, late := late } }

theorem test_hyp_TheGridCountsAndPublishes :
    tRun.core.flt.noProbe = [] ∧ (tIn .dormant).core.flt.noProbe = [] ∧ (tIn .safeHold).core.flt.noProbe = [] ∧
      tRun.core.twn.role = .lead ∧ ([4] : List Nat) ≠ [] ∧
      takeTurn (tGrid [.close, .audit] []).core.life .close = some ({ (tGrid [.close, .audit] []).core.life with
        due := [.audit] }, true) ∧
      takeTurn (tGrid [.audit] [.close]).core.life .close = some ({ (tGrid [.audit] [.close]).core.life with
        late := [] }, false) ∧
      takeTurn (tGrid [.audit] [.audit]).core.life .audit = some ({ (tGrid [.audit] [.audit]).core.life with
        late := [] }, false) ∧
      takeTurn (tGrid [.plinth] []).core.life .plinth = some ({ (tGrid [.plinth] []).core.life with due := [] }, true) ∧
      takeTurn tRun.core.life .close = none ∧ takeTurn tRun.core.life .audit = none ∧
      takeTurn (tGrid [.close, .plinth] []).core.life .plinth = none ∧
      (tOut (.ledgerClose true) (tGrid [.close] [])).core.ldg.closeNo = 1 := by decide

theorem test_hyp_WriteFramesCarryTheirWords :
    (0x02 : Byte) = 0x02 ∧ 0x7F00 % 4 = 0 ∧ 1 ≤ (List.replicate 64 (5 : BitVec 32)).length ∧
      (List.replicate 64 (5 : BitVec 32)).length ≤ 64 ∧ 0x7F00 + 4 * (List.replicate 64 (5 : BitVec 32)).length ≤ 0x8000 := by
  simp

/-- The header of a frame; the second byte of a read below is wrong for its CRC. -/
def tBadCrc : WinFrame := { bytes := [0x0B, 0x00, 0x04, 0x04, crc8 [0x0B, 0x00, 0x00, 0x04], 0, 0, 0, 0, 0], strayBits := 0 }

theorem test_hyp_ReadsAnswerFromTheImage :
    winHead tRead.bytes = some { op := 0x0B, addr := 0, n := 4 } ∧ winMalformed tRead = false ∧
      winHeaderFails tRead = false ∧ winHead (readFrame 0x9F 0 16).bytes = some { op := 0x9F, addr := 0, n := 16 } ∧
      winMalformed (readFrame 0x9F 0 16) = false ∧ winHeaderFails (readFrame 0x9F 0 16) = false ∧
      winMalformed { tRead with strayBits := 3 } = true ∧ winHeaderFails { tRead with strayBits := 3 } = false ∧
      winMalformed tBadCrc = false ∧ winHeaderFails tBadCrc = true ∧ tRead.bytes.head? ≠ some 0x9F := by decide +kernel

/-- A write of the charge inhibit order's word. -/
def tWrite (op : Byte) : WinFrame := writeFrame op 0x248 [1]

theorem test_hyp_WritesWaitForTheMergeTick :
    winHead (tWrite 0x06).bytes = some { op := 0x06, addr := 0x248, n := 4 } ∧ winMalformed (tWrite 0x06) = false ∧
      winHeaderFails (tWrite 0x06) = false ∧ winWriteFails (tWrite 0x06) = false ∧ tRun.win.pend = none := by decide +kernel

theorem test_hyp_WritesWithABadCrc :
    winWriteFails { tWrite 0x06 with bytes := (tWrite 0x06).bytes.dropLast ++ [0] } = true ∧
      winMalformed { tWrite 0x06 with bytes := (tWrite 0x06).bytes.dropLast ++ [0] } = false := by decide +kernel

theorem test_hyp_WritesOfOrders :
    winMalformed (tWrite 0x02) = false ∧ winWriteFails (tWrite 0x02) = false ∧
      ({ tRun with win := { pend := some { w1c := true, addr := 0, words := [], tick := 0 } } } : State).win.pend.isSome
        = true := by decide +kernel

theorem test_hyp_WrittenOrdersAreTaken : wordRefused tRun.core 0x248 = false := by decide +kernel

theorem test_hyp_AcknowledgeClearsWhatWasSeen :
    portOpen tRun.core = true ∧ tRun.win.pend = none ∧
      ({ tRun with win := { pend := some { w1c := true, addr := 0, words := [], tick := 0 } } } : State).win.pend.isSome
        = true ∧ regKind 0x01C = .w1cReset ∧ regKind 0x020 = .w1cAttn ∧ regKind 0x000 = .ro := by
  decide +kernel

/-! ### Orders, vault and Plinth Bus (chapters 18, 13, 12) -/

theorem test_hyp_OrdersWaitForTheMerge :
    tRun.core.life.st = .run ∧ (tIn .dormant).core.life.st = .dormant ∧ (tIn .safeHold).core.life.st = .safeHold ∧
      (tIn .boot).core.life.st = .boot ∧ (tIn .reset).core.life.st = .reset := by decide

/-- Run with a host order waiting in slot 5. -/
def tOrder (v : BitVec 32) : Core :=
  { tRun.core with ord := { tRun.core.ord with arrived := [{ m := .host, slot := 5, v := v }] } }

theorem test_hyp_MergeTakesAHostOrder :
    (tOrder 1).life.st = .run ∧ (tOrder 1).twn.role ≠ .follow ∧ (1 : BitVec 32) ≠ withdrawValue ∧
      valueOk (tOrder 1) 5 1 = true ∧ slotLocked (tOrder 1) 5 = false := by decide

/-- Run with every slot that can be locked locked. -/
def tLocked : Core := (tMq fun m => { m with head := { m.head with lockMask := 0xFF } }).core

theorem test_hyp_MergeTakesALockedOrder :
    (2000 : BitVec 32) ≠ withdrawValue ∧ valueOk tLocked 3 2000 = true ∧ slotLocked tLocked 3 = true := by decide

theorem test_hyp_StandingOrdersMeetByKind :
    slotKind 6 = .onOff ∧ slotKind 5 = .inhibit ∧ slotKind 0 = .ranked ∧ slotKind 2 = .ceiling ∧ slotKind 16 = .ceiling ∧
      slotLocked tRun.core 6 = false ∧ slotLocked tRun.core 0 = false ∧ slotLocked tLocked 2 = true ∧
      slotMaquette (tMq fun m => { m with valt := { m.valt with nCap := 4000 } }).core 16 = 4000 := by decide

/-- One account with a ceiling and a floor, of the first partner of port 1. -/
def tAccts : List (Nat × MqAcct) := [(0, { active := true, floor := 10, ceil := 100, weight := 1 })]

/-- A Lead in Run with one partner enrolled at address 1 of port 1, granted 30 tokens, 5 of them in transit down. -/
def tBusOf (g : PlbPort) : State :=
  tWith fun c => { c with
    mq := c.mq.map fun m => { m with
      plbs := { m.plbs with ports := vupd m.plbs.ports 0 fun x => { x with present := true } }
      valt := { m.valt with accts := tAccts } }
    plb := { c.plb with p := vupd c.plb.p 0 fun _ => g }
    vlt := { c.vlt with
      recs := [(0, { sup := { level := 25, lower := 5, leaseEnd := some 5000, req := some { tokens := 40, seq := 2 } } })]
      sup := { pool := 100, f := 70, g := 25, t := 5 } } }

/-- That partner, enrolled. -/
def tPartner : Partner := { enrolled := true }

/-- The same with nothing awaited. -/
def tBus : State := tBusOf { partners := [(1, tPartner)] }

theorem test_hyp_VaultColumnsBalance :
    State.reset.core.vlt.sup.balanced = true ∧ State.reset.core.vlt.ret.balanced = true ∧
      tBus.core.vlt.sup.balanced = true ∧ tBus.core.vlt.ret.balanced = true ∧ goesOn (step tBus) = true := by decide

/-- The pair draws more than the throttled levels allow. -/
def tThrot (g : PlbPort) : Core :=
  { (tBusOf g).core with vlt := { (tBusOf g).core.vlt with throt := true } }

theorem test_hyp_TokensReturnAndWaitsEnd :
    tBus.core.life.st = .run ∧ raiseWaiting tBus.core 0 .supply = false ∧
      ((tBus.core.vlt.acct 0).col .supply).req = some { tokens := 40, seq := 2 } ∧
      ((tBus.core.vlt.acct 0).col .supply).done = [] ∧ ({ lower := 5, done := [3, 2] } : ColRec).done = 3 :: [2] ∧
      3 ≤ ({ lower := 5, done := [3, 2] } : ColRec).lower ∧
      (({ sup := { carrySince := some 3 } } : VltG).tot .supply).carrySince.isSome = true ∧
      (tThrot {}).vlt.throt = true ∧ (∀ r ∈ (tThrot {}).vlt.recs, r.1 < 4064) ∧
      (105 * enforceTarget (tThrot {}) : Nat) < 100 * (1 : Int) ∧
      (∀ q : Fin 4, overdrawing (tThrot {}) q.val = false) ∧ portPresent (tThrot {}) 0 = true ∧
      enforces { tThrot {} with vlt := { (tThrot {}).vlt with graceEnd := some 0 }
                                life := { (tThrot {}).life with tick := 2000 } } = true ∧
      enforces { tThrot {} with vlt := { (tThrot {}).vlt with graceEnd := some 0 }
                                life := { (tThrot {}).life with tick := 1999 } } = false ∧
      overdrawing (tThrot { partners := [(1, { tPartner with draw := some (11, 0) })] }) 0 = true := by decide

theorem test_hyp_PlinthFramesRoundTrip :
    Frame.fits { dest := 1, src := 0, type := 2, ctl := 0, payload := List.replicate 16 0xAA } = true ∧
      Frame.fits { dest := 0, src := 0xFE, type := 0x40, ctl := 0xFF, payload := [] } = true := by decide

/-- A poll awaits its answer from that partner. -/
def tPoll : PlbMsg := { dest := 1, type := 0x02, seq := some 3 }

/-- The same with that poll awaiting its answer; account 0 is the supervisor's. -/
def tPolled : State :=
  { tBusOf { partners := [(1, tPartner)], await := some tPoll, slotAddr := some 1 } with
    core := { (tBusOf { partners := [(1, tPartner)], await := some tPoll, slotAddr := some 1 }).core with
      mq := (tBusOf {}).core.mq.map fun m => { m with plbs := { m.plbs with superv := some 0 } } } }

/-- A response of that partner. -/
def tResp (type : Byte) (payload : List Byte) : Frame :=
  { dest := 0, src := 1, type := type, ctl := 0x03, payload := payload }

theorem test_hyp_answers (type : Byte) (payload : List Byte) :
    Answers tPolled.core 0 (tResp type payload) tPoll type payload.length :=
  { run := rfl, awaited := rfl, src := rfl, dest := rfl, type := rfl, length := rfl, calm := .inl rfl, tec := by decide }

theorem test_hyp_PartnersMessagesAreTaken :
    tPoll.type = 0x02 ∧ (partnerOf tPolled.core 0 tPoll.dest.toNat).enrolled = true ∧
      tPoll.seq = some ((tResp 0x23 []).ctl.truncate 4) ∧ respAcct 0 1 (tResp 0x23 []) = 0 ∧
      acctActive tPolled.core 0 = true ∧ (tPolled.core.vlt.acct 0).supSeq ≠ some 7 ∧
      (tPolled.core.vlt.acct 0).retSeq ≠ some 7 ∧ disobeys tPolled.core 0 1 35 0 = false ∧
      tPolled.core.maq.plbs.superv = some 0 ∧ slotIx (fieldAt [0x06, 0, 0, 0, 1, 0, 0, 0] 0 2) = some 5 := by decide

/-- An INVITE awaits its answer. -/
def tInvite : PlbMsg := { dest := 1, type := 0x03, seq := some 3 }

theorem test_hyp_EnrolmentAbsenceAndShedding :
    tInvite.type = 0x03 ∧ (tBusOf { await := some tInvite }).core.life.st = .run ∧
      ((tBusOf { await := some tInvite }).core.plbPort 0).await = some tInvite ∧
      refuseReason (tBusOf { await := some tInvite }).core 0 1 (tResp 0x22 [1, 1, 0, 0, 0, 0, 0, 0, 0, 0, 0, 0]) = 0 ∧
      refuseReason (tBusOf { await := some tInvite }).core 0 1 (tResp 0x22 [1, 0, 0, 0, 0, 0, 0, 0, 0, 0, 0, 0]) = 2 ∧
      (tPolled.core.plbPort 0).await = some tPoll ∧ (tPolled.core.plbPort 0).slotAddr = some 1 ∧
      ((tBusOf { st := .restricted }).core.plbPort 0).st = .restricted ∧
      ((tBusOf { shed := true }).core.plbPort 0).shed = true ∧ ((tBusOf {}).core.plbPort 0).shed = false ∧
      ((tBusOf {}).core.plbPort 0).st ≠ .isolated ∧ ((tBusOf { st := .restricted }).core.plbPort 0).st ≠ .isolated ∧
      tRun.core.pins.twShed.getLsbD (0 : Fin 4).val = false ∧
      (tWith fun c => { c with pins := { c.pins with twShed := 8 } }).core.pins.twShed.getLsbD (3 : Fin 4).val = true ∧
      ((tBusOf { uncommanded := true }).core.plbPort 0).uncommanded = true := by decide

theorem test_hyp_anEnrolAnswers :
    Answers (tBusOf { await := some tInvite }).core 0 (tResp 0x22 [1, 1, 0, 0, 0, 0, 0, 0, 0, 0, 0, 0]) tInvite 0x22 12 :=
  { run := rfl, awaited := rfl, src := rfl, dest := rfl, type := rfl, length := rfl, calm := .inl rfl, tec := by decide }

theorem test_hyp_noResetRaisedBus (g : PlbPort) : noResetRaised (tBusOf g).core := fun _ he => nomatch he

theorem test_hyp_SlotsDriveFrames :
    tBus.core.life.st = .run ∧ tBus.core.twn.role = .lead ∧ hasMedium tBus.core 0 = true ∧
      (tBus.core.plbPort 0).st = .active ∧ (tBus.core.plbPort 0).tec ≤ 95 ∧
      nextInvite (tBusOf {}).core 0 = some 1 ∧ (1 : Fin 16) ≠ 0 ∧ (14 : Fin 16) ≠ 15 ∧
      (tBus.core.plbPort 0).queue = [] ∧ nextMore (tBus.core.plbPort 0) = none ∧
      nextPoll (tBus.core.plbPort 0) = some 1 ∧ hasMedium tBus.core 1 = false ∧
      ((tBusOf { st := .isolated }).core.plbPort 0).st = .isolated := by decide

/-! ### The power path (chapter 05) -/

/-- A Lead in Run with a state of its power path, whose MAIN and PDA inputs the Maquette has. -/
def tPath (p : PathG) : State :=
  tWith fun c => { c with path := p, mq := c.mq.map fun m => { m with path := { m.path with main := true, pda := true } } }

/-- The MAIN input qualified with its pair on. -/
def tMainOn : Vector InputG 3 := vupd (Vector.replicate 3 {}) 0 fun x => { x with qual := true, pair := true }

/-- A sink port with a contract of 20 V and 3 A, in effect. -/
def tSink : PdG := { att := .sink, contract := some { v50 := 400, i10 := 300, pos := 2 }, eff := some { v50 := 400, i10 := 300, pos := 2 } }

theorem test_hyp_InputsAndPathFaults :
    (tPath {}).core.life.st = .run ∧ mayQualify (tPath {}).core .main = true ∧
      mayQualify { (tPath {}).core with pd := vupd (tPath {}).core.pd 0 fun _ => tSink } (pdInp .a) = true ∧
      (tPath {}).core.path.xfer = none ∧ (tPath {}).core.path.export_ = none ∧ (tPath {}).core.path.exOff = none ∧
      (tPath {}).core.path.active ≠ some .main ∧ (tPath {}).core.path.active ≠ some (pdInp .b) ∧
      (tPath { inputs := tMainOn, active := some .main }).core.path.active = some .main ∧
      pathFree (tPath { inputs := tMainOn, active := some .main }).core = true ∧
      selectable (tPath { inputs := tMainOn, active := some .main }).core .pda = false ∧
      selectable (tPath { inputs := tMainOn, active := some .main }).core .pdb = false ∧
      (tPath { active := some .pda }).core.path.active = some (pdInp .a) ∧
      selectable (tPath { active := some .pda }).core .main = false ∧
      pairWaiting (tPath { offWait := some .main }).core = some .main ∧
      pairWaiting (tPath { exOff := some .pda }).core = some .pda ∧
      (tPath { batfet := .full }).core.path.batfet = .full ∧ (tPath { batfet := .linear }).core.path.batfet = .linear ∧
      (tPath {}).core.path.batfet = .off := by decide

theorem test_hyp_noResetRaisedPath (p : PathG) : noResetRaised (tPath p).core := fun _ he => nomatch he

/-- A transfer from PDA to MAIN at one of its steps. -/
def tXfer (st : XferStep) : Xfer := { out := some .pda, inc := .main, step := st }

theorem test_hyp_TransfersBreakBeforeMake :
    (tPath { xfer := some (tXfer .outOff) }).core.path.xfer = some (tXfer .outOff) ∧
      (tPath { xfer := some (tXfer .outOff) }).core.path.exportWait = none ∧
      drained (tPath { xfer := some (tXfer .outOff) }).core .main = true ∧
      drained { (tPath { xfer := some (tXfer .outOff) }).core with meas := { vmain := 24000, vcin := 24501 } } .main = false ∧
      (tPath { xfer := some (tXfer .drain) }).core.path.xfer = some (tXfer .drain) ∧
      (tPath { xfer := some (tXfer .inOn) }).core.path.xfer = some (tXfer .inOn) ∧ (tXfer .inOn).out ≠ none ∧
      (tPath { xfer := some (tXfer .ramp) }).core.path.xfer = some (tXfer .ramp) ∧
      ({ tXfer .ramp with out := none } : Xfer).out = none ∧ (tXfer .drain).step ≠ .ramp := by decide

/-- An export of the MAIN port at one of its steps. -/
def tExp (st : ExStep) : Export := { port := .main, step := st, volt := 24000, limit := 2000 }

theorem test_hyp_ExportsStartAndEnd :
    (tPath { export_ := some (tExp .ramp) }).core.path.export_ = some (tExp .ramp) ∧ (tExp .ramp).step = .ramp ∧
      (tPath { export_ := some (tExp .pairOn) }).core.path.export_ = some (tExp .pairOn) ∧ (tExp .pairOn).port = .main ∧
      ({ tExp .pairOn with port := .pdb } : Export).port ≠ .main ∧
      ({ tExp .pairOn with port := .pdb } : Export).port.pd = some .b ∧
      (tPath { export_ := some (tExp .active) }).core.life.st = .run := by decide

theorem test_hyp_BatfetFollowsItsTable :
    (tPath { active := some .main, batfet := .full }).core.path.active ≠ none ∧
      (tPath { active := some .main, batfet := .full }).core.path.held = false ∧
      (tPath { active := some .main, batfet := .full }).core.path.linFault = false ∧
      (tPath { active := some .main, batfet := .linear }).core.path.uvOpen = false ∧
      (tPath { active := some .main, batfet := .off }).core.path.batfet = .off ∧
      (tPath { active := some .main, batfet := .full }).core.path.collapsed = false ∧
      (tPath { active := some .main, batfet := .linear }).core.path.linFault = false ∧
      (tPath { active := some .main, batfet := .linear }).core.path.held = false ∧
      (tPath { active := some .main, batfet := .full, collapsed := true }).core.path.collapsed = true ∧
      (tPath { active := some .main, batfet := .full, collapsed := true }).core.path.active ≠ none ∧
      undervoltage { (tPath { batfet := .full }).core with
        mq := some { pack := { vUv := 2800 } }, cel := { cells := List.replicate 8 27999 } } = true ∧
      undervoltage { (tPath { batfet := .full }).core with
        mq := some { pack := { vUv := 2800 } }, cel := { cells := List.replicate 8 28000 } } = false ∧
      (tIn .safeHold).core.path.held = false ∧
      ({ core := { life := { st := .safeHold }, path := { held := true } } } : State).core.path.held = true ∧
      ((tIn .safeHold).core.path.inp .main).qual = false ∧
      ({ core := { life := { st := .safeHold, pwmLock := true } } } : State).core.life.pwmLock = true ∧
      (tIn .safeHold).core.life.pwmLock = false ∧ (tIn .safeHold).core.life.klnLost = false ∧
      inChisel (tIn .safeHold).core.gdr = false ∧
      (tPath { batfet := .full }).core.path.active = none ∧ (tIn .safeHold).core.thm.tripped = false ∧
      (tIn .safeHold).core.path.shConv = false ∧
      ({ core := { life := { st := .safeHold }, path := { gbtWait := true } } } : State).core.path.gbtWait = true ∧
      (({ core := { life := { st := .safeHold }, path := { inputs := tMainOn } } } : State).core.path.inp .main).qual
        = true := by decide

/-! ### The stage and the loops (chapters 08 and 09) -/

/-- Run with a state of the converter stage. -/
def tGdr (g : GdrG) : State := tWith fun c => { c with gdr := g }

/-- All phases in one state. -/
def tPhases (st : PhaseSt) : Vector PhaseG 4 := Vector.replicate 4 { st := st }

theorem test_hyp_PulseLedgersBalance :
    State.reset.pulsesBalance = true ∧ goesOn (step State.reset) = true ∧
      (tGdr { sw := Vector.replicate 16 { residue := 3, residuePrev := 5, cnt := #v[10, 12, 0, 0, 0, 0] } }).pulsesBalance
        = true := by decide

theorem test_hyp_PeriodsCarryOutTheirCommands :
    (tGdr { st := .switching, ph := tPhases .run }).core.gdr.st = .switching ∧
      (∀ n : Fin 4, (tGdr { st := .switching, ph := tPhases .run }).core.gdr.ph[n].st = .run) ∧
      (tGdr { st := .switching, ph := tPhases .run }).core.loop.runs = [] ∧
      (∀ n : Fin 4, (tGdr { st := .switching, ph := tPhases .run }).core.gdr.ph[n].bsNext = false) ∧
      (∀ n : Fin 4, (tGdr { st := .switching, ph := Vector.replicate 4 { st := .run, bsNext := true } }).core.gdr.ph[n].bsNext
        = true) := by decide

/-- A sample that every converter delivered. -/
def tLoopSample : LoopSample :=
  { vds := some 1000, vsys := some 48000, vcin := some 24000, vstk := some 27000, port := some 0, iss := some 0, isp := some 0 }

theorem test_hyp_PeriodsHaveTheirSamples :
    missing true tLoopSample = 0 ∧ missing true { tLoopSample with vds := none, isp := none } = 2 ∧
      missing false { tLoopSample with vds := none, isp := none } = 1 := by decide

/-- One run of descriptor 2 at word 1 of a microcode. -/
def tLoop (code : List Word) : State :=
  tWith fun c => { c with
    mq := c.mq.map fun m => { m with loop := { m.loop with
      code := code, n := code.length, desc := List.replicate 8 { worst := 6 } } }
    loop := { c.loop with runs := [{ desc := 2, x := vupd (Vector.replicate 16 5) 1 fun _ => 3, pc := 1, cycles := 4 }] } }

/-- That run. -/
def tRunOf : LoopRun := { desc := 2, x := vupd (Vector.replicate 16 5) 1 fun _ => 3, pc := 1, cycles := 4 }

/-- A microcode word (R244): opcode, destination, A and B. -/
def tCode (op d a b : Nat) : Word := BitVec.ofNat 32 (op * 67108864 + d * 1048576 + a * 16384 + b * 256)

theorem test_hyp_StageAndLoopFaultsTurnOff :
    (vget (tGdr { st := .switching, ph := tPhases .run }).core.gdr.ph (15 / 4) {}).live = true ∧ 1500 < 1501 ∧
      (tGdr { ph := tPhases .run }).core.gdr.sw[(15 : Fin 16)].stuckOn = 0 ∧
      1 ≤ (tGdr { sw := Vector.replicate 16 { stuckOn := 1 } }).core.gdr.sw[(15 : Fin 16)].stuckOn ∧
      (tGdr {}).core.maq.stag.iOc * (vget (tGdr {}).core.gdr.sw 15 {}).rEst < 10 * 1 ∧
      nPresent (tGdr {}).core * (tGdr {}).core.maq.stag.iOc * 110 < 1 ∧
      (∀ p ∈ (tGdr {}).core.gdr.ph.toList, p.st ≠ .calibrating) ∧
      (∃ p ∈ (tGdr { ph := tPhases .calibrating }).core.gdr.ph.toList, p.st = .calibrating) ∧
      pastWorst (tLoop []).core tRunOf (max tRunOf.cycles 7) = true ∧
      pastWorst (tLoop []).core tRunOf (max tRunOf.cycles 6) = false ∧
      (vget (tGdr { st := .switching, ph := tPhases .run }).core.gdr.ph ((4 : Fin 16).val / 4) {}).st = .run ∧
      (4 : Fin 16).val % 4 = 0 ∧ (7 : Fin 16).val % 4 = 3 ∧ (tLoop []).core.loop.runs.head? = some tRunOf ∧
      tRunOf.desc.val < 4 := by decide

theorem test_hyp_noResetRaisedStage (code : List Word) (g : GdrG) :
    noResetRaised (tLoop code).core ∧ noResetRaised (tGdr g).core :=
  ⟨(fun _ he => nomatch he), (fun _ he => nomatch he)⟩

theorem test_hyp_FourthOverrunInARow :
    ({ consec := 3 } : DescG).consec = 3 ∧ (vget (tLoop []).core.gdr.ph tRunOf.desc.val {}).backstop = false ∧
      (vget (tLoop []).core.gdr.ph tRunOf.desc.val {}).bsNext = false := by decide

theorem test_hyp_PhasesStartAndStop :
    (tGdr { ph := tPhases .chisel2 }).core.gdr.ph[(3 : Fin 4)].st = .chisel2 ∧
      (∀ k : Fin 4, (tGdr { ph := tPhases .precharge }).core.gdr.ph[k].st = .precharge) ∧
      (tGdr { ph := tPhases .precharge, starting := true }).core.gdr.starting = true ∧
      (tGdr { ph := tPhases .precharge, starting := true }).core.gdr.parkAsk = false ∧
      (tGdr { ph := tPhases .precharge, starting := true, parkAsk := true }).core.gdr.parkAsk = true ∧
      (∀ k : Fin 4, (tGdr { ph := Vector.replicate 4 { st := .precharge, cal := true } }).core.gdr.ph[k].cal = true) ∧
      (∀ p ∈ (resetEntry (tGdr { st := .switching, ph := tPhases .run }).core .order 2 0).outs.ph.toList, p = .chisel1) ∧
      (tIn .reset).core.life.st = .reset ∧ tRun.core.life.st ≠ .reset ∧
      (∀ k : Fin 4, (tGdr { ph := tPhases .precharge }).core.gdr.ph[k].cal = false) ∧
      (tGdr { ph := tPhases .calibrating }).core.gdr.ph[(0 : Fin 4)].st = .calibrating ∧ 0 < 1000 ∧
      (∀ j : Fin 4, 200 ≤ (#v[200, 201, 5000, 20000] : Vector Nat 4)[j] * 1000 / 1000 ∧
        (#v[200, 201, 5000, 20000] : Vector Nat 4)[j] * 1000 / 1000 ≤ 20000) := by decide

theorem test_hyp_headAt (w : Word) : HeadAt (tLoop [0, w]).core tRunOf w :=
  { run := rfl, head := rfl, word := rfl, within := by simp [tLoop, tWith, tRun, tRunOf, pastWorst, Core.maq] }

theorem test_hyp_MicrocodeComputes :
    operand (tLoop [0, 0]).core tRunOf 0 = some 5 ∧ operand (tLoop [0, 0]).core tRunOf 1 = some 3 ∧
      operand (tLoop [0, 0]).core tRunOf 31 = some 0 ∧ (15 : BitVec 6).toNat < 16 ∧
      isWord2 4 15 0 1 (tCode 4 15 0 1) = true ∧ isWord2 5 15 0 1 (tCode 5 15 0 1) = true ∧
      isWord2 6 15 0 1 (tCode 6 15 0 1) = true ∧ isWord2 7 15 0 1 (tCode 7 15 0 1) = true ∧
      isWord2 8 15 0 1 (tCode 8 15 0 1) = true ∧ isWord2 9 15 0 31 (tCode 9 15 0 31) = true ∧
      isWord 3 15 0 (tCode 3 15 0 0) = true ∧ isWord 3 16 0 (tCode 3 16 0 0) = true ∧ (16 : BitVec 6).toNat < 24 := by
  decide

theorem test_hyp_LoadsAndBranches :
    wordField (0x04F0FFFF : Word) 26 6 = (1 : BitVec 6) ∧ wordField (0x04F0FFFF : Word) 20 6 = (15 : BitVec 6) ∧
      wordField (0x04F0FFFF : Word) 0 16 = (0xFFFF : BitVec 16) ∧
      wordField (0x08F00001 : Word) 26 6 = (2 : BitVec 6) ∧ wordField (0x08F00001 : Word) 0 12 = (1 : BitVec 12) ∧
      (tLoop [0, 0x08F00001]).core.maq.loop.code[(1 : BitVec 12).toNat]? = some 0x08F00001 ∧
      wordField (tCode 10 0 0 1 + 1) 26 6 = (10 : BitVec 6) ∧ wordField (tCode 10 0 0 1 + 1) 14 6 = (0 : BitVec 6) ∧
      wordField (tCode 10 0 0 1 + 1) 8 6 = (1 : BitVec 6) ∧ wordField (tCode 10 0 0 1 + 1) 0 8 = (1 : BitVec 8) ∧
      (3 : Word).toInt ≤ (5 : Word).toInt ∧ 1 + 1 + (1 : BitVec 8).toNat < (tLoop [0, 0, 0, 0]).core.maq.loop.n ∧
      wordField (tCode 11 0 1 0) 26 6 = (11 : BitVec 6) ∧ wordField (tCode 11 0 1 0) 14 6 = (1 : BitVec 6) := by decide

/-! ### Charger, cells, ledger, records and Probes (chapters 06, 07, 10, 20, 11) -/

/-- An eight-cell pack whose cells all stand at a voltage, in 0.1 mV, with the charger in a state. -/
def tPack (g : ChgG) (cell : Nat) : State :=
  tWith fun c => { c with
    mq := c.mq.map fun m => { m with
      pack := { m.pack with vCond := 1000, vPre := 2500, iTerm := 10, vFloat := 3450, vOv := 3600 }
      band := { m.band with pack := List.replicate 6 { chgPct := 100, restOn := 5 } } }
    chg := g, thm := { c.thm with pack := 2, packApp := 2, stage := 0, stageApp := 0, board := 0, boardApp := 0 }
    life := { c.life with mode := .charge }, path := { c.path with active := some .main }
    cel := { c.cel with cells := List.replicate 8 cell, stack := 8 * cell / 10 } }

theorem test_hyp_ChargerFollowsItsPhases :
    chargerDecides (tPack { phase := .cond } 9999).core = true ∧ (tPack { phase := .cond } 9999).core.chg.newCycle = false ∧
      (tPack { phase := .cond } 9999).core.chg.noWarm = false ∧
      suspended { (tPack { phase := .cond } 9999).core with path := {} } = true ∧
      suspended (tPack { phase := .cond } 9999).core = false ∧
      phaseHeld { (tPack { phase := .cond } 9999).core with path := {} } = true ∧
      phaseHeld (tPack { phase := .cond } 9999).core = false ∧ phaseHeld (tPack { phase := .cv } 34000).core = false ∧
      phaseHeld { (tPack { phase := .cv } 34000).core with path := { (tPack { phase := .cv } 34000).core.path with
        xfer := some (tXfer .ramp) } } = true ∧
      lowCell (tPack { phase := .cond } 9999).core < (tPack { phase := .cond } 9999).core.maq.pack.vCond * 10 ∧
      (tPack { phase := .cond, qPh := 99 } 10000).core.maq.pack.vCond * 10 ≤ lowCell (tPack { phase := .cond } 10000).core ∧
      100 ≤ ({ phase := .cond, qPh := 100 } : ChgG).qPh ∧
      (tPack { phase := .cv, qTerm := 3000 } 34000).core.life.mode = .charge ∧
      (tPack { phase := .cv } 34000).core.maq.pack.vPre * 10 < lowCell (tPack { phase := .cv } 34000).core + 1000 ∧
      termCurrent (tPack { phase := .cv } 34000).core 99 < ((tPack { phase := .cv } 34000).core.maq.pack.iTerm * 10 : Nat) ∧
      (((tPack { phase := .cv } 34000).core.maq.pack.iTerm * 10 : Nat) : Int)
        ≤ termCurrent (tPack { phase := .cv } 34000).core 100 ∧
      (packEntry (tPack { phase := .bulk } 34000).core).restOn ≠ 0 ∧
      chargerDecides (tPack { heater := true } 34000).core = true ∧ (tPack { heater := true } 34000).core.chg.heater = true := by decide

theorem test_hyp_noResetRaisedPack (g : ChgG) (n : Nat) : noResetRaised (tPack g n).core := fun _ he => nomatch he

/-- A ledger sample that every channel delivered. -/
def tSample : Sample :=
  { got := 0xFE, ism := 1, isa := 0, isb := 0, isc := -5, isp := 7, iss := 2, axs := 3, axp := 4, vmain := 24000, vcin := 24000
    vsys := 48000, vpack := 27000, vbusa := 0, vbusb := 0, lswin := 0, lsw := [], tch := [] }

/-- Run with one isolated channel and one whose last sample was missing. -/
def tLdg : State :=
  tWith fun c => { c with ldg := { c.ldg with
    ch := vupd (vupd c.ldg.ch 1 fun x => { x with iso := true }) 2 fun x => { x with missed := true } } }

theorem test_hyp_SamplesAreBookedOnTheirChannels :
    tLdg.core.life.st = .run ∧ tSample.got.getLsbD 0 = false ∧ tSample.got.getLsbD 7 = true ∧
      tLdg.core.ldg.ch[(7 : Fin 8)].iso = false ∧ tLdg.core.ldg.ch[(1 : Fin 8)].iso = true ∧
      tLdg.core.ldg.ch[(2 : Fin 8)].missed = true ∧ tLdg.core.ldg.ch[(3 : Fin 8)].missed = false ∧
      blockProbed tLdg.core (probeBlock tLdg.core 0x0803 (BitVec.ofNat 8 (2 : Fin 8).val)) = false ∧
      tLdg.core.flt.q.length < 16 := by decide

/-- An eight-cell pack in the second window of a cycle. -/
def tDiag (d : Nat) : State :=
  let s := tPack {} 34000
  { s with core := { s.core with
    cel := { s.core.cel with hist := [(List.replicate 8 34000, 27200)], raw := List.replicate 8 34000, diag := d }, ldg := { s.core.ldg with basePend := false } } }

theorem test_hyp_CellMonitorJudgesItsWindows :
    (1 : BitVec 16) ≠ 0 ∧ (tDiag 1).core.cel.balFault = false ∧
      (tDiag 1).core.cel.raw = List.replicate 8 34000 ∧ (tDiag 1).core.cel.adopted = 0 ∧ (tDiag 9).core.cel.testNow = none ∧
      (tDiag 9).core.cel.diag = 8 + 1 ∧ 8 ≤ (tDiag 9).core.maq.pack.n ∧ (tDiag 9).core.maq.pack.n ≤ 16 ∧
      moved (List.replicate 8 34000) (List.replicate 8 34049) 7 < 50 ∧
      5000 < moved (List.replicate 8 34000) (List.replicate 8 28999) 7 ∧ (tDiag 33).core.cel.diag = 33 + (0 : Fin 16).val ∧
      (List.replicate 8 29949).getD 0 0 < 29950 ∧ 30050 < (List.replicate 8 30051).getD 0 0 := by decide

theorem test_hyp_OvercellInAWindow :
    (tDiag 1).core.maq.pack.vOv * 10 < highCell { (tDiag 1).core with
      cel := { (tDiag 1).core.cel with cells := List.replicate 8 36001 } } := by decide

/-- At rest, on a steep part of its curve. -/
def tRest : State :=
  let s := tDiag 0
  { s with core := { s.core with
    mq := s.core.mq.map fun m => { m with
      pack := { m.pack with ocv := [3000, 3100, 3200, 3300, 3400, 3500, 3600, 3700, 3800, 3900, 4000] }
      cell := { m.cell with restI := 100 } }
    cel := { s.core.cel with refKnown := true } } }

theorem test_hyp_OcvCorrection : ocvAllowed tRest.core = true := by decide

theorem test_hyp_NvmStaysCanonical :
    State.reset.nvmOk = true ∧ goesOn (step State.reset) = true ∧
      ({ core := { nvm := { cells := [(4, 0x5A)] } } } : State).nvmOk = true := by decide

/-- Run with the NVM busy with an operation, the head sector open and one record waiting. -/
def tNvm (o : Option NvmOp) : State :=
  tWith fun c => { c with nvm := { c.nvm with op := o, sectors := [(3, { good := true, start := 7, free := 32 })] }
                          own := { c.own with scan := true, head := some 3, q := [{ type := .boot, body := [1, 2] }] } }

theorem test_hyp_LogAndNvmWorkIsCarriedOut :
    (tNvm none).core.own.scan = true ∧ (tNvm (some (.erase 4096))).core.nvm.op = some (.erase 4096) ∧
      (tNvm (some (.program 0 [1]))).core.nvm.op = some (.program 0 [1]) ∧ (tNvm (some (.program 0 [1]))).nvmOk = true ∧
      (tNvm (some .logRecord)).core.own.head = some 3 ∧
      (tNvm (some .logRecord)).core.own.q = [{ type := .boot, body := [1, 2] }] ∧ (tNvm none).core.nvm.op = none ∧
      headOf ((tNvm none).core.nvm.sectors.filter fun x => decide (x.1 < logSectors (tNvm none).core)) = some 3 ∧
      headOf (tRun.core.nvm.sectors.filter fun x => decide (x.1 < logSectors tRun.core)) = none ∧
      ({ step := 4 } : OwnG).step = 4 ∧ tRun.core.otp.epoch ≠ 2047 ∧ ({ epoch := 2047 } : OtpG).epoch = 2047 ∧
      (tNvm none).core.life.st ≠ .dormant ∧ (tIn .dormant).core.life.entering = false ∧
      ({ core := { life := { st := .dormant, entering := true } } } : State).core.life.entering = true ∧
      (tNvm none).core.own.keyFault = false ∧ queueUse (tNvm none).core.own.q + 96 ≤ 16384 := by decide

theorem test_hyp_noResetRaisedNvm (o : Option NvmOp) : noResetRaised (tNvm o).core := fun _ he => nomatch he

/-- Run with a staging session of 2048 bytes that has taken two. -/
def tStage (second : Bool) : State :=
  tWith fun c => { c with mqs := { c.mqs with open_ := true, len := 2048, buf := [0x4D, 0x51], second := second } }

theorem test_hyp_StagingAndDecryptionAnswer :
    tRun.core.mqs.open_ = false ∧ (tStage false).core.mqs.open_ = true ∧ (tStage false).core.mqs.second = false ∧
      (tStage true).core.mqs.second = true ∧
      (tIn .safeHold).core.life.st = .safeHold ∧ (tIn .safeHold).core.otp.provisioned = false ∧
      (tIn .safeHold).core.otp.burnProv = none ∧
      tRun.core.own.step = 0 ∧ tRun.core.own.keyFault = false ∧ ({ dStat := 1 } : OwnG).dStat = 1 ∧
      ({ dStat := 1 } : OwnG).scan = false ∧ tRun.core.own.step ≠ 3 ∧
      ({ burnProv := some (Vector.replicate 4 (some 9), true, false) } : OtpG).burnProv.isSome = true ∧
      tRun.core.otp.slots[(0 : Fin 4)] = none := by decide

theorem test_hyp_ProvisioningKey : (0xC5000031 : BitVec 32).toNat / 16777216 = 0xC5 ∧ (0xC5000031 : BitVec 32).toNat % 16 ≠ 0 := by simp

theorem test_hyp_BlankSlots : ∀ x ∈ (tIn .safeHold).core.otp.slots.toList, x = none := by simp [tIn]

theorem test_hyp_ChunksInOrder :
    chunkOk (tStage false).core 0x3802 3 = true ∧ chunkOk (tStage false).core 0x3801 3 = false := by decide

theorem test_hyp_DecryptFindsRecords :
    recordAt tRun.core 0x20 = none ∧
      (recordAt { tRun.core with nvm := { tRun.core.nvm with
        sectors := [(0, { good := true, recs := [{ num := 5, type := .boot }] })] } } 0x20).map (·.type)
        = some .boot := by decide

/-- Run with one Probe waiting or running. -/
def tProbe (code : BitVec 16) (inst : BitVec 8) (running : Bool) : State :=
  tMq (fun m => { m with fltr := { m.fltr with probes := true } }) |> fun s =>
  { s with core := { s.core with flt := { s.core.flt with q := [{ code := code, inst := inst, running := running }] } } }

theorem test_hyp_ProbesClassifyFaults :
    probeFree (tProbe 0x0A01 1 false).core 0x0A01 (BitVec.ofNat 8 ((0 : Fin 4).val + 1)) = true ∧
      solePhase (tProbe 0x0A01 1 false).core 0 = false ∧ (tProbe 0x0A01 1 false).core.gdr.ph[(0 : Fin 4)].st = .off ∧
      (tProbe 0x0803 7 true).core.flt.q = [{ code := 0x0803, inst := BitVec.ofNat 8 (7 : Fin 8).val, running := true }] ∧
      (addTransient (dequeue (tProbe 0x0405 0 true).core 0x0405 0) 0x0405 0 100).2 = false ∧
      (∃ x ∈ (tProbe 0x0405 0 true).core.flt.q, x.code = 0x0405 ∧ x.inst = 0 ∧ x.running = true) ∧
      (∃ x ∈ (tProbe 0x0A04 4 true).core.flt.q, x.code = 0x0A04 ∧ x.inst = BitVec.ofNat 8 ((3 : Fin 4).val + 1) ∧
        x.running = true) ∧
      (∃ x ∈ (tProbe 0x0E01 8 true).core.flt.q, x.code = 0x0E01 ∧ x.inst = BitVec.ofNat 8 ((7 : Fin 8).val + 1) ∧
        x.running = true) ∧
      (tProbe 0 0 false).core.maq.fltr.probes = true ∧ rotationSkips (tProbe 0 0 false).core ((9 : Fin 10).val + 1) 1 = false ∧
      classInForce (tProbe 0 0 false).core 0x1805 (rotationClass 10 1) ≠ .d ∧
      classInForce (tProbe 0 0 false).core 0x1805 (rotationClass 5 0) = .d ∧
      rotationSkips (tProbe 0 0 false).core ((4 : Fin 10).val + 1) 0 = false ∧
      rotationWaits (tProbe 0 0 false).core ((4 : Fin 10).val + 1) 0 = false ∧
      rotationWaits (tProbe 0x0803 7 false).core ((1 : Fin 10).val + 1) 7 = true ∧
      rotationSkips (tProbe 0x0803 7 false).core ((1 : Fin 10).val + 1) 7 = false ∧
      rotationSkips (tProbe 0 0 false).core ((0 : Fin 10).val + 1) 4 = true ∧
      (∀ i ∈ rotInstances (tProbe 0 0 false).core ((4 : Fin 10).val + 1), i = 0 ∨
        ((4 : Fin 10).val + 1, i) ∈ (tProbe 0 0 false).core.flt.rotInst) ∧
      sharing (tProbe 0x0803 7 true).core 0x0803 7 = [] ∧ sharing (tProbe 0x0405 0 true).core 0x0405 0 = [] ∧
      sharing (tProbe 0x0A04 4 true).core 0x0A04 4 = [] ∧ sharing (tProbe 0x0E01 8 true).core 0x0E01 8 = [] := by decide

theorem test_hyp_HoldOffEnds :
    restartDue { (tGdr { holdOff := true }).core with gdr := { (tGdr { holdOff := true }).core.gdr with holdOff := false } } =
      true ∧ restartDue (tGdr {}).core = true ∧ restartDue { (tGdr {}).core with gdr := { (tGdr {}).core.gdr with st := .switching } } = false ∧
      stageMayStart (tMq fun m => { m with stag := { m.stag with mask := 0xF } }).core = true ∧
      phasePresent (tMq fun m => { m with stag := { m.stag with mask := 0xF } }).core 3 = true := by decide

theorem test_hyp_RecordsCoalesce :
    [((0x0A01 : BitVec 16), (1 : BitVec 8), 3)].find? (fun x => x.1 == 0x0A01 && x.2.1 == 1) = some (0x0A01, 1, 3) ∧
      [((0x0A01 : BitVec 16), (1 : BitVec 8), 0)].find? (fun x => x.1 == 0x0A01 && x.2.1 == 1) = some (0x0A01, 1, 0) := by
  decide

theorem test_hyp_noResetRaisedProbe (code : BitVec 16) (inst : BitVec 8) (b : Bool) : noResetRaised (tProbe code inst b).core := fun _ he => nomatch he

/-! ### The USB-C ports (chapter 14) -/

/-- Run with a state of port A, which the Maquette lets do everything, and a state of the path. -/
def tPort (g : PdG) (p : PathG) : State :=
  tWith fun c => { c with
    mq := c.mq.map fun m => { m with
      pd := vupd m.pd 0 fun _ => { present := true, sink := true, source := true, altMode := true, moisture := true
                                   vconn := true, spr := [{ v := 400, i := 300 }], wet := 500 }
      plbs := { m.plbs with route := true, ports := vupd m.plbs.ports 3 fun x => { x with present := true } } }
    pd := vupd c.pd 0 fun _ => g, path := p }

/-- A contract of 20 V and 3 A on object 2. -/
def tDeal : PdContract := { v50 := 400, i10 := 300, pos := 2 }

theorem test_hyp_PortsAttachAndSinksContract :
    ((tPort { cc := .rd } {}).core.port .a).att = .unattached ∧ ((tPort { cc := .rd } {}).core.port .a).cc ≠ .open_ ∧
      (pdCfg (tPort {} {}).core .a).sink = true ∧ ((tPort { ready := true } {}).core.port .a).ready = true ∧
      (((tPort { att := .sink } {}).core.port .a).att = .sink ∨ ((tPort { att := .sink } {}).core.port .a).att = .source) ∧
      ((tPort { toggling := true } {}).core.port .a).toggling = true ∧
      chooseSink [{ v := 240, i := 100 }, { v := 400, i := 300 }]
        [{ fixed := true, v50 := 100, i10 := 300 }, { fixed := true, v50 := 400, i10 := 225 }] false
        = some { v50 := 400, i10 := 225, pos := 2 } ∧
      ((tPort { want := some tDeal } {}).core.port .a).want = some tDeal ∧
      ((tPort { want := some tDeal, contract := some { tDeal with v50 := 100 } } {}).core.port .a).contract
        = some { tDeal with v50 := 100 } ∧
      ((tPort { trans := some tDeal } {}).core.port .a).trans = some tDeal ∧
      ((tPort { att := .sink, epr := true } {}).core.port .a).epr = true := by decide

/-- Port A exporting. -/
def tExA : PathG := { export_ := some { port := .pda, step := .active, volt := 5000, limit := 3000 } }

theorem test_hyp_SourcesContractAndPortsAnswer :
    ((tPort { att := .source } tExA).core.port .a).att = .source ∧ pdExporting (tPort { att := .source } tExA).core .a = true ∧
      (offerSent [(100, 300), (180, 0), (400, 225)])[2 - 1]? = some (400, 225) ∧
      (offerSent [(100, 300), (180, 0), (400, 225)])[3 - 1]? = none ∧ 225 < 226 ∧
      ((tPort { trans := some tDeal, stWait := true } tExA).core.port .a).stWait = true ∧
      ((tPort { trans := some tDeal, contract := some tDeal } tExA).core.port .a).contract ≠ none ∧
      ((tPort { discharge := true } {}).core.port .a).discharge = true ∧
      ((tPort { att := .errorRecovery } {}).core.port .a).att = .errorRecovery ∧
      ((tPort { txWait := true, txQueue := [.enterMode] } {}).core.port .a).txQueue = [.enterMode] ∧
      PdMsg.enterMode ≠ .hardReset ∧ PdMsg.enterMode ≠ .reject ∧
      (pdCfg tRun.core .a).sink = false ∧ pdExporting (tPort {} {}).core .a = false ∧
      ((tPort { vconn := true } {}).core.port .a).vconn = true ∧ mayVconn (tPort {} {}).core .a true = true ∧
      mayVconn (tPort {} {}).core .a false = false := by decide

theorem test_hyp_ModesMoistureAndPortFaults :
    offersMode (tPort { att := .sink, contract := some tDeal } {}).core .a = true ∧
      offersMode (tPort { att := .sink } {}).core .a = false ∧
      ((tPort { att := .source, altListed := true, contract := some tDeal } tExA).core.port .a).altListed = true ∧
      ((tPort { alt := true } {}).core.port .a).alt = true ∧ (tPort {} {}).core.maq.plbs.route = true ∧
      ((tPort { cableWait := true } {}).core.port .a).cableWait = true ∧ (pdCfg (tPort {} {}).core .a).moisture = true ∧
      ((tPort {} {}).core.port .a).iso = false ∧
      (∀ k : Fin 4, (pdCfg (tPort {} {}).core .a).wet ≤ (Vector.replicate 4 500 : Vector Nat 4)[k]) ∧
      pinMeasured ((tPort {} {}).core.port .a) 3 = true ∧ 499 < (pdCfg (tPort {} {}).core .a).wet ∧
      2 ≤ ((tPort { wet := Vector.replicate 4 2 } {}).core.port .a).wet[(3 : Fin 4)] ∧
      9 ≤ ((tPort { damp := true, dry := 9 } {}).core.port .a).dry ∧
      (∀ k : Fin 4, 2 * (pdCfg (tPort {} {}).core .a).wet < (Vector.replicate 4 1001 : Vector Nat 4)[k]) ∧
      ((tPort { damp := true } {}).core.port .a).corroded = false ∧ (pdCfg (tPort {} {}).core .a).present = true ∧
      ((tPort { att := .outOfService } {}).core.port .a).att = .outOfService ∧
      faultActive (tPort {} {}).core (pdFaultCode .a 2) 0 = false ∧
      faultActive { tRun.core with flt := { tRun.core.flt with
        l := vupd tRun.core.flt.l 5 fun _ => some { code := pdFaultCode .a 2, inst := 0, cls := .b } } }
        (pdFaultCode .a 2) 0 = true := by decide

theorem test_hyp_noResetRaisedPort (g : PdG) (p : PathG) : noResetRaised (tPort g p).core := fun _ he => nomatch he

/-! ### Load switches, thermal and twin (chapters 15, 16, 17) -/

/-- Run with a state of channel 1, which retries twice. -/
def tChan (x : LswCh) : State :=
  tWith fun c => { c with
    mq := c.mq.map fun m => { m with lsw := vupd m.lsw 0 fun y => { y with present := true, retries := 2, duty := 2 } }
    lsw := { c.lsw with ch := vupd c.lsw.ch 0 fun _ => x }, meas := { c.meas with lswin := 24000 } }

theorem test_hyp_LoadSwitchesTripAndRetry :
    (tChan { on := true }).core.lsw.ch[(0 : Fin 8)].on = true ∧ (tChan { on := true }).core.lsw.ch[(0 : Fin 8)].noWheel = false ∧
      (tChan { on := true, retries := 1 }).core.lsw.ch[(0 : Fin 8)].retries < (lswCfg (tChan {}).core 0).retries ∧
      (lswCfg (tChan {}).core 0).retries ≤ (tChan { retries := 2 }).core.lsw.ch[(0 : Fin 8)].retries ∧
      (tChan { curTrip := true }).core.lsw.ch[(0 : Fin 8)].fault = false ∧
      (tChan { thTrip := true }).core.lsw.ch[(0 : Fin 8)].hot = false ∧
      (tChan { retryDly := true }).core.lsw.ch[(0 : Fin 8)].retryDly = true ∧
      (tChan { on := true }).core.lsw.ch[(0 : Fin 8)].limiting = false ∧ (lswCfg (tChan {}).core 0).present = true ∧
      (lswCfg (tChan {}).core 0).duty ≠ 5 ∧ (tChan {}).core.lsw.uv = false ∧
      (tChan {}).core.lsw.ch[(0 : Fin 8)].on = false ∧ 3000 + 1000 ≤ (tChan {}).core.meas.lswin ∧
      3000 < 3001 ∧ 3001 + 1000 ≤ (tChan {}).core.meas.lswin ∧ (tChan {}).core.meas.lswin < 23001 + 1000 ∧
      (tChan { startWait := true }).core.lsw.ch[(0 : Fin 8)].startWait = true ∧
      lswProbing (tChan {}).core 0 = false ∧ (tChan {}).core.lsw.ch[(0 : Fin 8)].openOff = false ∧
      (tChan {}).core.lsw.ch[(0 : Fin 8)].shortSup = false ∧
      (∀ k : Fin 8, (tChan {}).core.lsw.ch[k].startWait = false) := by decide

theorem test_hyp_noResetRaisedChannel (x : LswCh) : noResetRaised (tChan x).core := fun _ he => nomatch he

/-- A lifecycle state with NTC1 read at 30.0 °C, tripped or not. -/
def tTherm (l : Life) (tripped : Bool) : State :=
  { core := { life := { st := l, mode := if l = .run then .charge else .none, pwmLock := true }
              mq := some { thrm := { ntcMask := 1 }, stag := { mask := 1 } }, twn := { role := .lead }
              thm := { s := vupd (Vector.replicate 11 {}) 2 fun x => { x with temp := some 300, hist := [(0, 300)] }, tripped := tripped } } }

theorem test_hyp_SensorsAndTheKilnGuard :
    sensorPresent (tTherm .run false).core 2 = true ∧ (tTherm .run false).core.thm.s[(2 : Fin 11)].out = false ∧
      readingBad 2 { temp := 800, ratio := 150, diodeMv := 0 } = false ∧
      (tTherm .run false).core.thm.s[(2 : Fin 11)].hist.head? = some (0, 300) ∧ ((800 : Int) - 300).natAbs ≤ 500 ∧
      readingBad 2 { temp := 300, ratio := 149, diodeMv := 0 } = true ∧ 500 < ((801 : Int) - 300).natAbs ∧
      kilnWatches (tTherm .run false).core .ntc1 = true ∧ (tTherm .run true).core.thm.tripped = true ∧
      (tTherm .safeHold false).core.life.st = .safeHold ∧ kilnWatches (tTherm .safeHold false).core .d0 = true ∧
      kilnWatches (tTherm .boot false).core .d0 = true ∧ (lswCfg (tTherm .run false).core 0).duty ≠ 2 ∧
      (lswCfg (tChan {}).core 0).duty = 2 ∧
      restartDue { (tTherm .run true).core with thm := { (tTherm .run true).core.thm with
        tripped := false, tripSrc := 0, relRun := false, relCnt := 0 } } = true ∧
      stageMayStart { (tTherm .run true).core with thm := { (tTherm .run true).core.thm with tripped := false } } = true ∧
      kilnWatches (tTherm .reset false).core .ntc1 = true ∧ (tTherm .run true).core.gdr.st = .stopped ∧
      classAOpen (tTherm .run true).core = false ∧ (tTherm .run true).core.twn.role = .lead ∧
      phasePresent (tTherm .run true).core 0 = true := by decide

theorem test_hyp_noResetRaisedTherm (l : Life) (b : Bool) : noResetRaised (tTherm l b).core := fun _ he => nomatch he

/-- Run with a twin expected, and a state of the link. -/
def tTwin (g : TwnG) : State :=
  tWith fun c => { c with
    twn := g, mq := c.mq.map fun m => { m with head := { m.head with groupId := 7 }, twin := { m.twin with expected := true } } }

/-- The IDENT of a twin of the same group and image. -/
def tIdent : IdentMsg := { version := 1, plinthMaster := false, serial := 5, group := 7, digest := 0 }

/-- A good header whose sequence is 4. -/
def tHdr : LinkHdr := { seq := 4, crcOk := true }

theorem test_hyp_TheTwinLinksAndAttaches :
    (tTwin {}).core.maq.twin.expected = true ∧ (tTwin { trained := true }).core.twn.trained = true ∧
      ({ tHdr with crcOk := false } : LinkHdr).crcOk = false ∧
      (∃ x ∈ (tTwin { rxSeq := [(2, 1)] }).core.twn.rxSeq, x.1 = 2) ∧
      tHdr.seq ≠ kget 0 2 (tTwin { rxSeq := [(2, 1)] }).core.twn.rxSeq + 1 ∧
      paired (tTwin {}).core = false ∧ (tTwin {}).core.twn.locked = false ∧ (tTwin {}).core.twn.role ≠ .detached ∧
      (tTwin {}).core.twn.refused = false ∧ refuseCause (tTwin {}).core tIdent = none ∧
      refuseCause (tTwin {}).core { tIdent with group := 8 } = some 0 ∧ (4 : BitVec 64) ≠ (5 : BitVec 64) ∧
      (tTwin { role := .pending }).core.twn.fence = .none ∧
      (tTwin { mirrorWait := true, role := .lead }).core.twn.attached = false ∧
      (tTwin { attached := true, role := .follow }).core.twn.shareFroz = false ∧
      (tTwin { ramp := true }).core.twn.rampDown = false ∧
      (tTwin { ramp := true, rampDown := true }).core.twn.leaving ≠ some true ∧
      (tTwin { ramp := true, rampDown := true, leaving := some true }).core.twn.leaving = some true := by decide

theorem test_hyp_inOrder (k : Nat) (g : TwnG) (h : g.rxSeq = []) : InOrder (tTwin g).core tHdr k :=
  { run := rfl, expected := rfl, crc := rfl, seq := .inl (by intro x hx; simp [tTwin, tWith, h] at hx) }

theorem test_hyp_nakAsks :
    (([{ type := 3, seq := 6, data := [] }, { type := 3, seq := 5, data := [] }] : List TwFrame).filter fun f =>
      f.type == (3 : BitVec 8).toNat).length = ((7 : BitVec 8) - 4 - 1).toNat := by decide

theorem test_hyp_noResetRaisedTwin (g : TwnG) : noResetRaised (tTwin g).core := fun _ he => nomatch he

/-- A heartbeat of a twin in a role. -/
def tBeat (role : BitVec 8) : HeartbeatMsg :=
  { tick := 0, tickHi := 0, charger := 0, auditFailed := false, role := role, lifeMode := 0, flags := 0, active := 0, path := 0, ordGen := 0, isc := 0, digest := 0 }

theorem test_hyp_FencingLeavesOneController :
    (tTwin { trained := true }).core.twn.trained = true ∧ (tTwin { trained := true }).core.twn.lossNow = false ∧
      (tTwin { trained := true }).core.twn.last = none ∧ (tTwin { trained := true }).core.twn.fence = .none ∧
      (tTwin { fence := .won, role := .follow, xMirOk := true }).core.twn.xMirOk = true ∧
      (tTwin { trained := true, last := some (tBeat 5) }).core.twn.last = some (tBeat 5) ∧
      (tTwin { trained := true }).core.twn.role ≠ .fenced ∧ (tTwin { fence := .delay }).core.twn.fence = .delay ∧
      (tTwin { fence := .gap }).core.twn.fence = .gap ∧ (tTwin { fence := .contest }).core.twn.slot < 63 ∧
      (tTwin {}).core.otp.serial.getLsbD 0 = false ∧ (tTwin { fence := .contest, slot := 63 }).core.twn.slot = 63 ∧
      ({ serial := 9223372036854775808 } : OtpG).serial.getLsbD (63 - 0) = true ∧
      (tTwin { fence := .won, role := .follow }).core.twn.role = .follow ∧
      (tTwin {}).core.twn.rxBlock = false ∧ (tTwin { rxBlock := true }).core.twn.rxBlock = true ∧
      (tTwin { role := .follow }).core.thm.tripped = false ∧ (tIn .safeHold).core.life.st = .safeHold ∧
      (tTwin {}).core.life.st ≠ .safeHold := by decide

theorem test_hyp_PairDataAndControlsAreTaken :
    (tTwin { attached := true }).core.twn.attached = true ∧ (tTwin { twSumReset := true }).core.twn.twSumReset = true ∧
      baseCloses < 6 ∧ (tTwin {}).core.cel.adopted = 0 ∧
      ({ (tTwin { xLdgOk := true }) with core := { (tTwin { xLdgOk := true }).core with ldg := { twBase := some 4 } } } :
        State).core.ldg.twBase = some 4 ∧
      (tTwin {}).core.maq.twin.dqx < ((1000 : Int) / 1000 - (0 - 4)).natAbs ∧ (tTwin { role := .lead }).core.twn.role = .lead ∧
      (tTwin { role := .follow }).core.twn.role = .follow ∧ 4063 < 4064 ∧ (tTwin {}).core.twn.role ≠ .follow ∧
      (tTwin {}).core.twn.ctl = none ∧ (tTwin { ctl := some (1, 9) }).core.twn.ctl = some (1, 9) ∧
      (tTwin { ctl := some (1, 9) }).core.twn.leaving ≠ some true ∧
      (tTwin { ctl := some (2, 9) }).core.twn.ctl = some (2, 9) := by decide

/-! ### Completion -/

/-- What the completion statement asks beside the hypotheses shown above: a burn in progress, no export on the port, a
transfer from no input, and a partner's frame. -/
theorem test_hyp_CommandsComplete :
    isExportPort (tPath {}).core .main = false ∧ isExportPort (tPath {}).core (pdInp .a) = false ∧
      ({ burnProv := some (Vector.replicate 4 (some 9), true, false) } : OtpG).burnProv.isSome = true ∧
      (tWith fun c => { c with life := { c.life with resetOrder := true } }).core.life.resetOrder = true ∧
      (tBusOf { st := .restricted }).core.life.st = .run ∧
      (∃ x ∈ (tProbe 0x0A04 4 true).core.flt.q, x.code = 0x0A04 ∧ x.inst = BitVec.ofNat 8 ((3 : Fin 4).val + 1) ∧
        sharing (tProbe 0x0A04 4 true).core 0x0A04 x.inst = [] ∧ x.running = true) ∧
      solePhase (tProbe 0x0A01 1 false).core 0 = false ∧ (tGdr { holdOff := true }).core.gdr.holdOff = true ∧
      ({ dStat := 1 } : OwnG).dStat = 1 ∧ (tNvm none).core.own.scan = true ∧ (tIn .safeHold).core.life.st = .safeHold := by
  decide

/-! ### Single steps -/

/-- 1.5 × −2 is −3 in Q16.16 (R244, Table 09-2). -/
theorem test_mul : (Word.ofSat ((0x18000 : Word).toInt * (0xFFFE0000 : Word).toInt / 65536)) = 0xFFFD0000 := by decide

/-- A host that orders a charge inhibit has it at the next merge tick (R480). -/
theorem test_inhibitMerges :
    ((slotOf (tOut (.mergeTick 0 0 0) (tOut (.chargeInhibitOrder .host 1) tRun)).core 5).host,
      (slotOf (tOut (.mergeTick 0 0 0) (tOut (.chargeInhibitOrder .host 1) tRun)).core 5).res) = (some 1, some .accepted) := by
  decide +kernel

/-- A lease that ends gives its 25 tokens back to F, and so does its undelivered lowering (Table 13-2). -/
theorem test_leaseEnd :
    (((tOut (.leaseEnd 0 .supply) tBus).core.vlt.acct 0).sup.level,
      ((tOut (.leaseEnd 0 .supply) tBus).core.vlt.acct 0).sup.lower, (tOut (.leaseEnd 0 .supply) tBus).core.vlt.sup.f)
      = (0, 0, 100) := by decide

/-- A BEACON goes to every partner with the level and the cycle number (Table 12-3). -/
theorem test_beacon :
    ((tOut (.pollSlotStart 0 0 false false) tBus).core.plbPort 0).sent.map (fun f => (f.dest, f.src, f.type)) = [(0xFF, 0, 0x01)] := by
  decide

/-- The identity page begins with the device identity of the spec (Table 19-5). -/
theorem test_identity :
    ((tOut (.identity (readFrame 0x9F 0 16)) tRun).win.sdo.drop 5).take 4 = [0x10, 0x48, 0x01, 0x02] := by decide +kernel

/-! ### A whole Maquette in the NVM, for the end of Boot in Run (chapter 03)

Every section has the length of Table 03-3; the values stand in the ranges of Tables 03-4 to 03-24, and no byte is erased. -/

/-- Numbers of two bytes each. -/
def tU16 (l : List Nat) : List Byte := l.flatMap (toLe 2)

/-- `n` zero bytes. -/
def tZ (n : Nat) : List Byte := List.replicate n 0

/-- The bodies of the sections before VALT. -/
def tFront : List (List Byte) :=
  [ toLe 4 0x31514D4B ++ tU16 [0x0100, 0x4810] ++ toLe 4 33636 ++ tZ 20 ++ [0, 4] ++ tZ 30,
    [1, 8] ++ tU16 [100, 4000, 3900, 3000, 2600, 4200, 2500, 1000, 2000, 100, 50, 60, 60] ++ tZ 40 ++ tU16 [4000, 10],
    tU16 [10, 0, 0, 0] ++ tU16 [100, 0, 0, 0] ++ tU16 [200, 0, 0, 0] ++ tU16 [400, 0, 0, 0] ++ tU16 [500, 0, 0, 0]
      ++ tU16 [600, 0, 0, 0] ++ tU16 [800, 900, 1000, 600, 700] ++ [3, 0] ++ tZ 8,
    [1, 1] ++ tU16 [36000, 2000, 20000, 50000, 100, 2000, 100, 100, 100, 100, 100, 100, 10, 100, 10, 10, 0],
    [0x0F, 0] ++ tU16 [100, 500, 500, 500, 500, 500, 500, 500, 500, 1000, 1000, 100, 1000, 500, 0],
    tU16 [1, 2000, 10, 100, 30000] ++ tZ 6
      ++ ((List.range 8).flatMap fun d => [if d < 4 then 1 else BitVec.ofNat 8 (d - 2),
        if d < 4 then BitVec.ofNat 8 (d + 1) else 0, 1, 0] ++ tU16 [0, 10, 500, 100] ++ tZ 4)
      ++ toLe 4 0x2C000000,
    [8, 1] ++ tU16 [100, 50, 3000, 60, 100, 10, 300],
    [0, 7, 1, 2, 3] ++ tZ 27 ++ tU16 [10] ++ [50, 25],
    ((List.range 8).flatMap fun _ => [0, 0] ++ tU16 [1000, 500] ++ [40, 3] ++ tU16 [10, 0]),
    ((List.range 2).flatMap fun _ => [0, 1, 0, 0] ++ tU16 [100, 300] ++ tZ 52 ++ tU16 [500, 0]),
    [0, 0, 0, 0] ++ ((List.range 4).flatMap fun _ => [4, 0] ++ tU16 [4, 0, 0]) ++ tU16 [0, 0] ]

/-- A public key, whose private key is 1. -/
def tKey : List Byte := Sha.toBe 32 P256.g.x ++ Sha.toBe 32 P256.g.y

/-- The signature of the image under that key. -/
def tSig : List Byte := Sha.toBe 32 P256.g.x 
  ++ Sha.toBe 32 0xb8735bfa38b6bb301687a1356a64e19bfe99fb4eb7129f2019ca00125cfd010b

/-- The bodies of the sections after VALT. -/
def tBack : List (List Byte) :=
  [ tU16 [0, 100, 500, 10], tU16 [10, 0, 60, 0], [0, 0, 0, 3] ++ tU16 [60, 24],
    toLe 4 262144 ++ tU16 [0x0F07, 900, 0, 0], [0, 1, 0, 0] ++ tKey ++ tSig ]

/-- The limits of VALT; its 4064 accounts are inactive. -/
def tValt : List Byte := tU16 [1000] ++ [5, 10] ++ tU16 [0, 50] ++ tZ 4 ++ [1, 0, 0, 0]

/-- The sections of the image: headers and bodies in the order of Table 03-3. -/
def tSecs : List (List Byte × List Byte) :=
  let hdr (k : Nat) (body : List Byte) (n : Nat) : List Byte × List Byte :=
    (((sectionTable[k]?).getD ([], 0)).1 ++ toLe 4 n ++ [1, 0, 0, 0], body)
  tFront.zipIdx.map (fun x => hdr x.2 x.1 x.1.length) ++ [hdr 11 (tValt ++ tZ 32512) 32528]
    ++ tBack.zipIdx.map fun x => hdr (12 + x.2) x.1 x.1.length

/-- The bytes of sections in order. -/
def tFlat (l : List (List Byte × List Byte)) : List Byte := l.flatMap fun x => x.1 ++ x.2

/-- Sections that `splitSections` splits off: each with its tag, its length and its version. -/
def tOk : List (List Byte × Nat) → Nat → List (List Byte × List Byte) → Bool
  | [], _, [] => true
  | (tag, len) :: ts, k, (h, b) :: ss =>
    bodyLen len b (k == 5) (k == 14) == some b.length && decide (2 ≤ b.length) && h.take 4 == tag
      && fieldAt h 4 4 == b.length && fieldAt h 8 2 == 1 && h.length == 12 && tOk ts (k + 1) ss
  | _, _, _ => false

theorem leNat_two_append (b r : List Byte) (h : 2 ≤ b.length) : leNat 2 (b ++ r) = leNat 2 b := by
  match b, h with
  | x :: y :: l, _ => rfl

theorem splitSections_cons (tag : List Byte) (len : Nat) (ts : List (List Byte × Nat)) (k : Nat) (h b r : List Byte)
    (hl : bodyLen len b (k == 5) (k == 14) = some b.length) (h2 : 2 ≤ b.length) (ht : h.take 4 = tag)
    (hf : fieldAt h 4 4 = b.length) (hv : fieldAt h 8 2 = 1) (h12 : h.length = 12) :
    splitSections ((tag, len) :: ts) k (h ++ (b ++ r)) = (splitSections ts (k + 1) r).map fun x => (h, b) :: x := by
  have e1 : (h ++ (b ++ r)).take 12 = h := by rw [← h12]; simp
  have e2 : (h ++ (b ++ r)).drop 12 = b ++ r := by rw [← h12]; simp
  have e3 : bodyLen len (b ++ r) (k == 5) (k == 14) = some b.length := by
    rw [← hl]; simp only [bodyLen, leNat_two_append b r h2]
  simp [splitSections, e1, e2, e3, ht, hf, hv, h12]

theorem splitSections_flat (ss : List (List Byte × List Byte)) :
    ∀ (ts ts' : List (List Byte × Nat)) (k : Nat) (r : List Byte), tOk ts k ss = true →
      splitSections (ts ++ ts') k (tFlat ss ++ r) = (splitSections ts' (k + ss.length) r).map fun x => ss ++ x := by
  induction ss with
  | nil =>
    intro ts ts' k r h
    cases ts with
    | nil => simp [tFlat]
    | cons a b => simp [tOk] at h
  | cons s ss ih =>
    intro ts ts' k r h
    cases ts with
    | nil => simp [tOk] at h
    | cons a ts =>
      obtain ⟨tag, len⟩ := a
      obtain ⟨hd, b⟩ := s
      simp only [tOk, Bool.and_eq_true, beq_iff_eq, decide_eq_true_eq] at h
      obtain ⟨⟨⟨⟨⟨⟨hl, h2⟩, ht⟩, hf⟩, hv⟩, h12⟩, hr⟩ := h
      have e : tFlat ((hd, b) :: ss) ++ r = hd ++ (b ++ (tFlat ss ++ r)) := by simp [tFlat]
      rw [e, List.cons_append, splitSections_cons tag len _ k hd b _ hl h2 ht hf hv h12, ih ts ts' (k + 1) r hr]
      simp [Option.map_map, Function.comp_def, show k + (ss.length + 1) = k + 1 + ss.length by omega]

theorem parseAccts_zeros (n : Nat) : ∀ k, parseAccts n k (tZ (8 * n)) = (List.range' k n).map fun i => (i, ({} : MqAcct)) := by
  induction n with
  | zero => intro k; rfl
  | succ n ih =>
    intro k
    have e1 : (tZ (8 * (n + 1))).take 8 = tZ 8 := by simp [tZ, List.take_replicate]
    have e2 : (tZ (8 * (n + 1))).drop 8 = tZ (8 * n) := by simp [tZ, List.drop_replicate]; omega
    have e3 : parseAcct (tZ 8) = {} := by decide
    simp [parseAccts, e1, e2, e3, ih, List.range'_succ]

/-- The NVM cells of bytes from an address. -/
def tCells : Nat → List Byte → List Host.Cell
  | _, [] => []
  | a, b :: bs => (a, b) :: tCells (a + 1) bs

theorem nvmWalk_cells (bs : List Byte) : ∀ n a, n ≤ bs.length → nvmWalk n a (tCells a bs) = bs.take n := by
  induction bs with
  | nil => intro n a h; simp at h; subst h; rfl
  | cons b bs ih =>
    intro n a h
    cases n with
    | zero => rfl
    | succ n => simp only [tCells, nvmWalk, if_true, List.take_succ_cons]; rw [ih n (a + 1) (by simpa using h)]

theorem nvmBytes_cells (bs : List Byte) (n : Nat) (h : n ≤ bs.length) : nvmBytes n 0 (tCells 0 bs) = bs.take n := by
  have e : (tCells 0 bs).dropWhile (fun p => decide (p.1 < 0)) = tCells 0 bs := by
    cases tCells 0 bs <;> simp
  rw [nvmBytes, e, nvmWalk_cells bs n 0 h]

/-- The section VALT of the image. -/
def tValtSec : List Byte × List Byte := (([0x56, 0x41, 0x4C, 0x54] : List Byte) ++ toLe 4 32528 ++ [1, 0, 0, 0], tValt ++ tZ 32512)

theorem tSecs_eq : tSecs = tSecs.take 11 ++ (tValtSec :: tSecs.drop 12) := by rfl

theorem tSplit : splitSections sectionTable 0 (tFlat tSecs) = some tSecs := by
  have e : tFlat tSecs = tFlat (tSecs.take 11) ++ (tValtSec.1 ++ (tValtSec.2 ++ (tFlat (tSecs.drop 12) ++ []))) := by
    conv_lhs => rw [tSecs_eq]
    simp [tFlat]
  have t : sectionTable = sectionTable.take 11 ++ (([0x56, 0x41, 0x4C, 0x54], 32528) :: sectionTable.drop 12) := rfl
  have hlen : tValtSec.2.length = 32528 := by
    simp only [tValtSec, List.length_append, tZ, List.length_replicate]; rfl
  have hc := splitSections_cons [0x56, 0x41, 0x4C, 0x54] 32528 (sectionTable.drop 12) (0 + (tSecs.take 11).length)
    tValtSec.1 tValtSec.2 (tFlat (tSecs.drop 12) ++ []) (by rw [hlen]; rfl) (by rw [hlen]; omega) rfl (by rw [hlen]; decide)
    (by decide) rfl
  have hb := splitSections_flat (tSecs.drop 12) (sectionTable.drop 12) [] (0 + (tSecs.take 11).length + 1) []
    (by decide +kernel)
  rw [List.append_nil] at hb
  rw [e, t, splitSections_flat _ _ _ _ _ (by decide +kernel), hc, hb]
  conv_rhs => rw [tSecs_eq]
  simp [splitSections]

theorem tFlat_length : (tFlat tSecs).length = 33636 := by
  have e : (tFlat tSecs).length = (tFlat (tSecs.take 11)).length + (12 + tValt.length + 32512) + (tFlat (tSecs.drop 12)).length := by
    conv_lhs => rw [tSecs_eq]
    simp only [tFlat, List.flatMap_append, List.flatMap_cons, List.length_append, tValtSec, tZ, List.length_replicate]
    simp only [toLe, List.length_cons, List.length_nil]
    omega
  rw [e]
  decide +kernel

theorem tAccts_zero (p : Nat × MqAcct) (h : p ∈ parseAccts 4064 0 ((tValt ++ tZ 32512).drop 16)) : p.2 = {} := by
  have e : (tValt ++ tZ 32512).drop 16 = tZ (8 * 4064) := by
    simp [show (tValt ++ tZ 32512).drop 16 = tZ 32512 from rfl]
  rw [e, parseAccts_zeros] at h
  simp only [List.mem_map] at h
  obtain ⟨i, _, rfl⟩ := h
  rfl

/-- What the image says of the vault. -/
def tMqValt : MqValt := { nCap := 1000, reserve := 5, taper := 10, sFull := 0, lease := 50, burstMax := 0, weight := 1 }

theorem tParse_valt : parseValt (tValt ++ tZ 32512) = tMqValt := by
  have h : ((parseAccts 4064 0 ((tValt ++ tZ 32512).drop 16)).filter fun p => p.2.active) = [] := by
    rw [List.filter_eq_nil_iff]
    intro p hp
    rw [tAccts_zero p hp]
    decide
  rw [parseValt, h]
  rfl

theorem tRanges : rangesOk tSecs = true := by
  have hv : (parseBodies tSecs).valt.ok (parseAccts 4064 0 ((((tSecs[11]?).getD ([], [])).2).drop 16))
      (maxL (((parseBodies tSecs).plbs.ports.toList.filter fun p => p.present).map fun p => p.expected)) = true := by
    have e : (parseBodies tSecs).valt = tMqValt := tParse_valt
    rw [e, show ((tSecs[11]?).getD ([], [])).2 = tValt ++ tZ 32512 from rfl]
    simp only [MqValt.ok, Bool.and_eq_true, List.all_eq_true, decide_eq_true_eq]
    refine ⟨⟨by decide +kernel, ?_⟩, by decide +kernel⟩
    intro p hp
    rw [tAccts_zero p hp]
    decide
  simp only [rangesOk, Bool.and_eq_true]
  repeat' apply And.intro
  all_goals first | with_reducible exact hv | decide +kernel

/-- A machine in Boot whose copy A holds the image, signed with the key of slot 0. -/
def tBooting : State :=
  { core := { life := { st := .boot }, nvm := { cells := tCells 0 (tFlat tSecs) }
              otp := { slots := vupd (Vector.replicate 4 none) 0 fun _ => some (digestOf tKey) } } }

theorem tCopyBytes : copyBytes tBooting.core false = tFlat tSecs := by
  have h24 : nvmBytes 24 0 tBooting.core.nvm.cells = (tFlat tSecs).take 24 :=
    nvmBytes_cells _ _ (by rw [tFlat_length]; omega)
  have hlen : fieldAt ((tFlat tSecs).take 24) 20 4 = 33636 := by decide +kernel
  have hall : nvmBytes 33636 0 tBooting.core.nvm.cells = tFlat tSecs := by
    rw [show tBooting.core.nvm.cells = tCells 0 (tFlat tSecs) from rfl,
      nvmBytes_cells _ _ (by rw [tFlat_length]), ← tFlat_length, List.take_length]
  simp only [copyBytes, copyBase, Bool.false_eq_true, if_false, h24, hlen]
  exact hall

/-! #### The digest and the signature of the image -/

/-- The rounds of a block of zeros, whose schedule is all zeros. -/
def tZeroRounds : List Nat → Sha.Vars → Sha.Vars
  | [], v => v
  | k :: ks, v =>
    match Sha.round v k 0 with
    | ⟨a, b, c, d, e, f, g, h⟩ => tZeroRounds ks ⟨a, b, c, d, e, f, g, h⟩

/-- `n` blocks of zeros entered, with these round constants. -/
def tZeroBlocks (ks : List Nat) : Nat → Sha.Vars → Sha.Vars
  | 0, v => v
  | n + 1, v =>
    match tZeroRounds ks v with
    | ⟨a, b, c, d, e, f, g, h⟩ =>
      tZeroBlocks ks n
        { a := Sha.low (v.a + a), b := Sha.low (v.b + b), c := Sha.low (v.c + c), d := Sha.low (v.d + d)
          e := Sha.low (v.e + e), f := Sha.low (v.f + f), g := Sha.low (v.g + g), h := Sha.low (v.h + h) }

theorem rounds_zero (ks : List Nat) :
    ∀ v, Sha.rounds ks ⟨0, 0, 0, 0, 0, 0, 0, 0, 0, 0, 0, 0, 0, 0, 0, 0⟩ v = tZeroRounds ks v := by
  have z : Sha.low (Nat.add (Nat.add (Sha.sigma1 0) 0) (Nat.add (Sha.sigma0 0) 0)) = 0 := by decide +kernel
  induction ks with
  | nil => intro v; simp only [Sha.rounds, tZeroRounds]
  | cons k ks ih =>
    intro v
    rw [Sha.rounds, tZeroRounds]
    generalize Sha.round v k 0 = r
    obtain ⟨a, b, c, d, e, f, g, h⟩ := r
    rw [z]
    exact ih _

theorem window_zero (r : List Byte) :
    Sha.window (Sha.wordsBe 16 ((tZ 64 ++ r).take 64)) = ⟨0, 0, 0, 0, 0, 0, 0, 0, 0, 0, 0, 0, 0, 0, 0, 0⟩ := by
  rw [List.take_left' (by simp [tZ])]
  decide +kernel

theorem blocks_zero (ks : List Nat) (hk : Sha.constants = ks) (n m : Nat) :
    ∀ v r, Sha.blocks (n + m) v (tZ (64 * n) ++ r) = Sha.blocks m (tZeroBlocks ks n v) r := by
  induction n with
  | zero => intro v r; simp [tZ, tZeroBlocks]
  | succ n ih =>
    intro v r
    have e : tZ (64 * (n + 1)) ++ r = tZ 64 ++ (tZ (64 * n) ++ r) := by
      simp [tZ, show 64 * (n + 1) = 64 + 64 * n by omega, List.replicate_add]
    rw [show n + 1 + m = (n + m) + 1 by omega, Sha.blocks, e, List.drop_left' (by simp [tZ]), ih, tZeroBlocks, Sha.block,
      window_zero, hk, rounds_zero]

theorem blocks_append (n m : Nat) : ∀ v (a r : List Byte), a.length = 64 * n →
    Sha.blocks (n + m) v (a ++ r) = Sha.blocks m (Sha.blocks n v a) r := by
  induction n with
  | zero => intro v a r h; simp at h; subst h; simp [Sha.blocks]
  | succ n ih =>
    intro v a r h
    have e1 : (a ++ r).take 64 = a.take 64 := by rw [List.take_append_of_le_length (by omega)]
    have e2 : (a ++ r).drop 64 = a.drop 64 ++ r := by rw [List.drop_append_of_le_length (by omega)]
    rw [show n + 1 + m = (n + m) + 1 by omega, Sha.blocks, e1, e2, ih _ _ _ (by simp; omega), Sha.blocks]

/-- The signed region up to the accounts of VALT: 14 blocks. -/
def tHead : List Byte := tFlat (tSecs.take 11) ++ (tValtSec.1 ++ tValt)

/-- The signed region after VALT. -/
def tEnd : List Byte := tFlat ((tSecs.drop 12).take 4)

/-! The hash value after the head and after each quarter of the accounts. -/

def tV0 : Sha.Vars := ⟨1551712546, 4284522196, 3002356184, 1431156282, 4214114766, 2541063287, 2450242549, 4128520546⟩
def tV1 : Sha.Vars := ⟨285892550, 2113258824, 384113056, 3802611102, 1840441629, 2767715899, 2078607368, 661279529⟩
def tV2 : Sha.Vars := ⟨1623797615, 317862239, 1470738133, 1909152959, 1731693928, 3659203374, 4188316431, 2538777992⟩
def tV3 : Sha.Vars := ⟨20035435, 3477118231, 4205321287, 2943096852, 479915795, 2547021029, 1826187063, 3899277215⟩
def tV4 : Sha.Vars := ⟨304359782, 2403276541, 419661328, 13615315, 924725970, 127777858, 3209459007, 878360807⟩

theorem tHash0 : Sha.blocks 14 Sha.start tHead = tV0 := by decide +kernel
theorem tHash1 : tZeroBlocks Sha.constants 127 tV0 = tV1 := by decide +kernel
theorem tHash2 : tZeroBlocks Sha.constants 127 tV1 = tV2 := by decide +kernel
theorem tHash3 : tZeroBlocks Sha.constants 127 tV2 = tV3 := by decide +kernel
theorem tHash4 : tZeroBlocks Sha.constants 127 tV3 = tV4 := by decide +kernel

theorem tRegion : signedRegion (tFlat tSecs) = tHead ++ (tZ (64 * 127) ++ (tZ (64 * 127) ++ (tZ (64 * 127)
    ++ (tZ (64 * 127) ++ tEnd)))) := by
  have hlen : fieldAt (tFlat tSecs) 20 4 = 33636 := by decide +kernel
  have hz : tZ 32512 = tZ (64 * 127) ++ (tZ (64 * 127) ++ (tZ (64 * 127) ++ tZ (64 * 127))) := by
    simp only [tZ, List.replicate_append_replicate]
  have hd : tSecs.drop 12 = (tSecs.drop 12).take 4 ++ tSecs.drop 16 := by rfl
  have e : tFlat tSecs = (tHead ++ (tZ (64 * 127) ++ (tZ (64 * 127) ++ (tZ (64 * 127) ++ (tZ (64 * 127) ++ tEnd)))))
      ++ tFlat (tSecs.drop 16) := by
    conv_lhs => rw [tSecs_eq, hd]
    simp only [tFlat, tHead, tEnd, tValtSec, hz, List.flatMap_append, List.flatMap_cons, List.append_assoc]
  have hl : (tHead ++ (tZ (64 * 127) ++ (tZ (64 * 127) ++ (tZ (64 * 127) ++ (tZ (64 * 127) ++ tEnd))))).length
      = 33636 - 144 := by
    have h1 : tHead.length = 896 := by decide +kernel
    have h2 : tEnd.length = 84 := by decide +kernel
    simp only [List.length_append, h1, h2, tZ, List.length_replicate]
  rw [signedRegion, hlen, e, List.take_left' hl]

/-- The digest of the image, and what the signature signs. -/
theorem tDigest : sha256 (signedRegion (tFlat tSecs)) = 0x4d5b8a07578a78e81dcaba5006c0a0a987967dcd89276b7f2528c6cc84643e75 := by
  have h1 : tHead.length = 64 * 14 := by decide +kernel
  have h2 : tEnd.length = 84 := by decide +kernel
  have hl : (signedRegion (tFlat tSecs)).length = 33492 := by
    rw [tRegion]
    simp only [List.length_append, h1, h2, tZ, List.length_replicate]
  have hb : Sha.blocks 523 Sha.start (signedRegion (tFlat tSecs)) = Sha.blocks 1 tV4 tEnd := by
    rw [tRegion, show 523 = 14 + (127 + (127 + (127 + (127 + 1)))) by rfl, blocks_append 14 _ _ _ _ h1, tHash0,
      blocks_zero _ rfl, tHash1, blocks_zero _ rfl, tHash2, blocks_zero _ rfl, tHash3, blocks_zero _ rfl, tHash4]
  have hr : (signedRegion (tFlat tSecs)).drop (64 * 523) = tEnd.drop 64 := by
    have e : signedRegion (tFlat tSecs) = (tHead ++ (tZ (64 * 127) ++ (tZ (64 * 127) ++ (tZ (64 * 127) ++ tZ (64 * 127)))))
        ++ tEnd := by rw [tRegion]; simp only [List.append_assoc]
    have hk : (tHead ++ (tZ (64 * 127) ++ (tZ (64 * 127) ++ (tZ (64 * 127) ++ tZ (64 * 127))))).length = 64 * 522 := by
      simp only [List.length_append, h1, tZ, List.length_replicate]
    rw [e, show 64 * 523 = 64 * 522 + 64 by rfl, ← List.drop_drop, List.drop_left' hk]
  rw [sha256, hl, show 33492 / 64 = 523 by rfl, hb, hr]
  decide +kernel

theorem tReserved : reservedZero tSecs = true := by decide +kernel

/-- The fuses with the key of slot 0. -/
def tOtp : OtpG := { slots := vupd (Vector.replicate 4 none) 0 fun _ => some (digestOf tKey) }

theorem tImageChecks : imageChecks tOtp (tFlat tSecs) = (0, some (parseBodies tSecs)) := by
  have htake : (tFlat tSecs).take 33636 = tFlat tSecs := by rw [← tFlat_length, List.take_length]
  have h1 : (fieldAt ((tFlat tSecs).drop 12) 0 4 == 0x31514D4B && fieldAt ((tFlat tSecs).drop 12) 4 2 == 0x0100
    && fieldAt ((tFlat tSecs).drop 12) 6 2 == 0x4810) = true := by decide +kernel
  have h2 : fieldAt ((tFlat tSecs).drop 12) 8 4 = 33636 := by decide +kernel
  have h6 : (tOtp.slotHash (parseBodies tSecs).sign.slot != some (parseBodies tSecs).sign.keyHash) = false := by decide +kernel
  have h7 : (!(parseBodies tSecs).sign.verifies (signedRegion (tFlat tSecs))) = false := by
    rw [MqSign.verifies, tDigest]
    decide +kernel
  have h8 : ¬ (parseBodies tSecs).head.secVersion < tOtp.rollback := by decide +kernel
  rw [imageChecks]
  simp only [h1, h2, htake, tSplit, tFlat_length, tReserved, tRanges, h6, h7, h8, Bool.not_true, Bool.false_eq_true,
    if_false, bne_self_eq_false, show ¬ 262144 < 33636 by omega]

theorem test_hyp_BootEndsInRun : bootSelect tBooting.core tBoot = (0, 15, some (parseBodies tSecs, false)) := by
  apply bootSelect_passed
  rw [tCopyBytes]
  exact bootCheck_passed _ _ _ _ tImageChecks (by decide +kernel)

theorem test_hyp_BootEndsInRunFrom :
    tBooting.core.life.st = .boot ∧ tBooting.core.life.tmodeHold = false ∧ tBoot.keyTestOk = true ∧
      tBooting.core.pins.twPres = false ∧ tBooting.core.cel = {} ∧ tBooting.core.chg = {} :=
  ⟨rfl, rfl, rfl, rfl, rfl, rfl⟩
end

section
/-! PROOFS. Window Port transactions (chapter 19): what the port notes, when it answers, and what a read leaves. -/

namespace Sys2Proof.Machine

/-! ### What the port reports of a transaction -/

section
variable (s : State) (bit : Nat)

@[simp] theorem portNote_win_pend : (portNote s bit).win.pend = s.win.pend := rfl
@[simp] theorem portNote_win_frozen : (portNote s bit).win.frozen = s.win.frozen := rfl
@[simp] theorem portNote_attnNew :
    (portNote s bit).core.ord.attnNew = putBit s.core.ord.attnNew 2 true := rfl

/-- In CORE a report changes the error counts and the waiting attention causes alone. -/
theorem portNote_core : (portNote s bit).core = { s.core with ord := { s.core.ord with
    err := (portNote s bit).core.ord.err, attnNew := (portNote s bit).core.ord.attnNew } } := rfl

theorem portNote_status_self (h : bit < 6) : (portNote s bit).win.status.getLsbD bit = true := by
  have hp : (portNote s bit).win.status = putBit s.win.status bit true := rfl
  rw [hp, getLsbD_putBit _ _ _ _ h, if_pos rfl]

end

/-! ### What a frame's checks tell of its header -/

/-- A transaction that is not malformed has a whole header. -/
theorem winHead_of_not_malformed {f : WinFrame} (hm : winMalformed f = false) : ∃ h, winHead f.bytes = some h := by
  cases hh : winHead f.bytes with
  | some h => exact ⟨h, rfl⟩
  | none => simp [winMalformed, hh] at hm

/-- Only a read or an identity transaction has a header CRC that can fail (R495). -/
theorem not_isWrite_of_headerFails {f : WinFrame} {h : WinHead} (hh : winHead f.bytes = some h)
    (hx : winHeaderFails f = true) : isWrite h.op = false := by
  obtain ⟨bytes, stray⟩ := f
  match bytes with
  | o :: a :: l :: k :: x :: r =>
    obtain rfl : _ = h := Option.some.inj hh
    simp only [winHeaderFails, Bool.and_eq_true, Bool.not_eq_true'] at hx
    exact hx.1.1
  | [] | [_] | [_, _] | [_, _, _] | [_, _, _, _] => cases hx

/-! ### Which transactions the lifecycle state serves (R506) -/

theorem exec_snapshotRead (f : WinFrame) (s : State) : exec (.snapshotRead f) s = transact f s := rfl

theorem exec_identity (f : WinFrame) (s : State) : exec (.identity f) s = transact f s := rfl

theorem transact_of_open (f : WinFrame) (s : State)
    (h : s.core.life.st = .run ∨ s.core.life.st = .dormant ∨ s.core.life.st = .safeHold) :
    transact f s = .next (transactOpen f s) := by
  rcases h with h | h | h <;> simp only [transact, h]

theorem transact_of_undriven (f : WinFrame) (s : State) (h : s.core.life.st = .off ∨ s.core.life.st = .reset) :
    transact f s = .next { s with win := { s.win with sdo := [] } } := by
  rcases h with h | h <;> simp only [transact, h]

/-- In Boot every transaction but identity is left undriven (R506). -/
theorem transact_of_boot_not_identity (f : WinFrame) (s : State) (h : s.core.life.st = .boot)
    (hf : f.bytes.head? ≠ some 0x9F) :
    transact f s = .next { s with win := { s.win with sdo := [], status := 0 } } := by
  have hb : transactBoot f s = { s with win := { s.win with sdo := [], status := 0 } } := by
    unfold transactBoot
    split
    · next r hr => exact absurd (by rw [hr]; rfl) hf
    · rfl
  simp only [transact, h, hb]

/-! ### Transactions of a port that serves every opcode -/

/-- The port once a transaction has been driven: the bytes come from the image, and the next status byte begins with the
image's ATTN_N (R493, R498). -/
def State.driven (s : State) (f : WinFrame) : State :=
  { s with win := { s.win with
    sdo := sdoBytes s.img (s.win.status.zeroExtend 8) f, status := if s.img.pins.attn then 0x10 else 0 } }

@[simp] theorem State.driven_core (s : State) (f : WinFrame) : (s.driven f).core = s.core := rfl
@[simp] theorem State.driven_win_pend (s : State) (f : WinFrame) : (s.driven f).win.pend = s.win.pend := rfl
@[simp] theorem State.driven_win_frozen (s : State) (f : WinFrame) : (s.driven f).win.frozen = s.win.frozen := rfl

/-- A malformed transaction is driven and sets FRAME (R496, R498). -/
theorem transactOpen_malformed {f : WinFrame} (s : State) (hm : winMalformed f = true)
    (hx : winHeaderFails f = false) : transactOpen f s = portNote (s.driven f) 1 := by
  simp only [transactOpen, hm, hx, if_true, Bool.false_eq_true, if_false, State.driven]

/-- A transaction whose header CRC fails is driven and sets HCRC, and freezes no image (R496, R498). -/
theorem transactOpen_headerFails {f : WinFrame} (s : State) (hm : winMalformed f = false)
    (hx : winHeaderFails f = true) : transactOpen f s = portNote (s.driven f) 3 := by
  obtain ⟨h, hh⟩ := winHead_of_not_malformed hm
  have hw := not_isWrite_of_headerFails hh hx
  simp only [transactOpen, hm, hx, hh, hw, if_true, Bool.false_eq_true, if_false, Bool.not_true, Bool.and_false,
    State.driven]

/-- A good snapshot read is driven and freezes the image (R499, R552). -/
theorem transactOpen_snapshot {f : WinFrame} {h : WinHead} (s : State) (hh : winHead f.bytes = some h)
    (hm : winMalformed f = false) (hx : winHeaderFails f = false) (hop : h.op = 0x0B) :
    transactOpen f s = { s.driven f with win := { (s.driven f).win with frozen := s.img.life.imgNo } } := by
  have hw : isWrite 0x0B = false := rfl
  simp only [transactOpen, hm, hx, hh, hop, hw, Bool.false_eq_true, if_false, Bool.not_false, decide_true, Bool.and_self,
    if_true, State.driven]

/-- A good identity transaction is driven and nothing more (R505). -/
theorem transactOpen_identity {f : WinFrame} {h : WinHead} (s : State) (hh : winHead f.bytes = some h)
    (hm : winMalformed f = false) (hx : winHeaderFails f = false) (hop : h.op = 0x9F) :
    transactOpen f s = s.driven f := by
  have hw : isWrite 0x9F = false := rfl
  have hne : ¬ (0x9F : Byte) = 0x0B := by decide
  simp only [transactOpen, hm, hx, hh, hop, hw, hne, Bool.false_eq_true, if_false, decide_false, Bool.false_and,
    State.driven]

end Sys2Proof.Machine

open Sys2Proof Sys2Proof.Machine

/-- Settles O24: each clause is the lemma of its kind of transaction, and a bad one leaves exactly what `portNote` notes. -/
theorem readsAnswerFromTheImage : Obligations.ReadsAnswerFromTheImage := by
  intro f s
  refine ⟨?good, ?malformed, ?badHeader, ?boot, ?undriven⟩
  case good =>
    intro h hh hm hx hst
    rw [exec_snapshotRead, exec_identity, transact_of_open f s hst]
    refine ⟨fun hop => ?_, fun hop => ?_⟩
    · rw [transactOpen_snapshot s hh hm hx hop, State.driven]
    · rw [transactOpen_identity s hh hm hx hop, State.driven]
  case malformed =>
    intro hst hm hx
    refine ⟨portNote (s.driven f) 1, ?_, portNote_status_self _ 1 (by decide), by simp, by simp, portNote_core _ 1⟩
    rw [exec_snapshotRead, transact_of_open f s (.inl hst), transactOpen_malformed s hm hx]
  case badHeader =>
    intro hst hm hx
    refine ⟨portNote (s.driven f) 3, ?_, portNote_status_self _ 3 (by decide), by simp, by simp⟩
    rw [exec_identity, transact_of_open f s (.inl hst), transactOpen_headerFails s hm hx]
  case boot =>
    intro hst hf
    rw [exec_snapshotRead, transact_of_boot_not_identity f s hst hf]
  case undriven =>
    intro hst
    rw [exec_snapshotRead, transact_of_undriven f s hst]
end

section
/-! PROOFS. The state after reset, and the supply of VAUX (chapters 02 and 04). -/

namespace Sys2Proof.Machine

/-- A command that leaves the lifecycle state as it is leaves what its function gives. -/
theorem afterReset_of_st_eq {c d : Core} (h : d.life.st = c.life.st) : afterReset c d = d := by
  by_cases hr : c.life.st = .reset
  · exact afterReset_of_reset hr
  · exact afterReset_of_ne (h ▸ hr)

theorem onCore_of_st_eq (s : State) (f : Core → Core) (h : (f s.core).life.st = s.core.life.st) :
    onCore s f = .next { s with core := f s.core } := by
  rw [onCore_next, afterReset_of_st_eq h]

/-- The VAUX selector's choice (R564): SYS and the pack stand within 500 mV of the highest supply, and MAIN is taken only
where it is the highest by more. -/
theorem vauxSelect_spec (vmain vpack vsys : Nat) :
    (vauxSelect vmain vpack vsys = .vsys → vmain ≤ vsys + 500 ∧ vpack ≤ vsys + 500) ∧
      (vauxSelect vmain vpack vsys = .vpack → vmain ≤ vpack + 500 ∧ vsys ≤ vpack + 500) ∧
      (vauxSelect vmain vpack vsys = .vmain → vsys < vmain ∧ vpack < vmain) ∧ vauxSelect vmain vpack vsys ≠ .none := by
  unfold vauxSelect
  dsimp only
  split
  · simp; omega
  · split
    · simp; omega
    · simp; omega

/-- VAUX_LOSS outside Off (R30, R563). -/
theorem exec_vauxLoss {s : State} (h : s.core.life.st ≠ .off) :
    exec .vauxLoss s = .next (newPort s (offCore s.core)) := by
  show execVauxLoss s = _
  rw [execVauxLoss, if_neg (by simpa using h)]

/-- VAUX_SOURCE_CHANGE outside Off changes the source of VAUX alone (R564). -/
theorem exec_vauxSourceChange {s : State} (vmain vpack vsys : Nat) (h : s.core.life.st ≠ .off) :
    exec (.vauxSourceChange vmain vpack vsys) s =
      .next { s with core := { s.core with pins := { s.core.pins with vaux := vauxSelect vmain vpack vsys } } } := by
  show execVauxSourceChange vmain vpack vsys s = _
  rw [execVauxSourceChange, onCoreIf_pos _ _ _ (by simpa using h)]
  exact onCore_of_st_eq s _ rfl

/-- NVM work cut short leaves no operation and no queue. -/
theorem nvmCut_idle (c : Core) : (nvmCut c).op = none ∧ (nvmCut c).queue = [] := by
  unfold nvmCut
  repeat' split
  all_goals exact ⟨rfl, rfl⟩

end Sys2Proof.Machine

open Sys2Proof Sys2Proof.Machine

/-- Settles O5: the machine after reset is a closed value, on which each invariant evaluates to true. -/
theorem resetMeetsTheInvariants : Obligations.ResetMeetsTheInvariants := by
  unfold Obligations.ResetMeetsTheInvariants
  decide

/-- Settles O8: a loss leaves what `offCore` keeps, and a change of source leaves what `vauxSelect` chooses. -/
theorem vauxKeepsTheControllerAlive : Obligations.VauxKeepsTheControllerAlive := by
  intro s h
  refine ⟨⟨_, exec_vauxLoss h, ?_⟩, fun vmain vpack vsys => ⟨_, exec_vauxSourceChange vmain vpack vsys h, rfl, ?_⟩⟩
  · obtain ⟨hop, hqueue⟩ := nvmCut_idle s.core
    exact ⟨rfl, rfl, rfl, rfl, rfl, rfl, rfl, hop, hqueue, rfl, rfl, rfl, rfl, rfl, rfl, rfl, rfl, rfl⟩
  · exact vauxSelect_spec vmain vpack vsys
end

section
/-! PROOFS. The dwell of the mode decisions (chapter 01). -/

namespace Sys2Proof.Machine

/-! ### What a decision does to the dwell -/

section
variable {l : LifeG} {m : Mode}

/-- A decision that names the standing mode ends the candidate. -/
theorem decideMode_standing (l : LifeG) :
    decideMode l l.mode = { l with modeNow := false, pathDriven := false, modePend := none } := by
  rw [decideMode, if_pos rfl]

/-- A new candidate under the dwell becomes pending and counts from 0. -/
theorem decideMode_new (hn : l.modeNow = false) (hp : l.pathDriven = false) (hm : m ≠ l.mode)
    (hc : l.modePend ≠ some m) :
    decideMode l m = { l with modeNow := false, pathDriven := false, modePend := some m, dwell := 0 } := by
  rw [decideMode, if_neg hm, if_neg (by simp [hn, hp]), if_neg hc]

/-- A decision that names the pending candidate counts, before the 50th count. -/
theorem decideMode_again (hn : l.modeNow = false) (hp : l.pathDriven = false) (hm : m ≠ l.mode)
    (hc : l.modePend = some m) (hd : l.dwell + 1 ≠ 50) :
    decideMode l m = { l with modeNow := false, pathDriven := false, dwell := l.dwell + 1 } := by
  rw [decideMode, if_neg hm, if_neg (by simp [hn, hp]), if_pos hc, if_neg hd]

/-- At the 50th count the candidate is taken. -/
theorem decideMode_taken (hn : l.modeNow = false) (hp : l.pathDriven = false) (hm : m ≠ l.mode)
    (hc : l.modePend = some m) (hd : l.dwell + 1 = 50) :
    decideMode l m = { l with modeNow := false, pathDriven := false, mode := m, modePend := none, dwell := 50 } := by
  rw [decideMode, if_neg hm, if_neg (by simp [hn, hp]), if_pos hc, if_pos hd]

/-- After `k + 1` decisions for a new candidate, at most 50, the mode stands and the count is `k`. -/
theorem decideMode_iterate (hn : l.modeNow = false) (hp : l.pathDriven = false) (hm : m ≠ l.mode)
    (hc : l.modePend ≠ some m) (k : Nat) (hk : k < 50) :
    (fun x => decideMode x m)^[k + 1] l =
      { l with modeNow := false, pathDriven := false, modePend := some m, dwell := k } := by
  induction k with
  | zero => exact decideMode_new hn hp hm hc
  | succ k ih =>
    rw [Function.iterate_succ_apply', ih (by omega)]
    exact decideMode_again rfl rfl hm rfl (by dsimp only; omega)

end

end Sys2Proof.Machine

open Sys2Proof Sys2Proof.Machine

/-- Settles O18: the count after `k` decisions is the lemma `decideMode_iterate`; the 51st is `decideMode_taken` after it. -/
theorem modeChangesAtThe51stDecision : Obligations.ModeChangesAtThe51stDecision := by
  intro l m hn hp hne hc
  have h51 : (fun x => decideMode x m)^[51] l =
      { l with modeNow := false, pathDriven := false, mode := m, modePend := none, dwell := 50 } := by
    rw [Function.iterate_succ_apply', decideMode_iterate hn hp hne.symm hc 49 (by decide)]
    exact decideMode_taken rfl rfl hne.symm rfl rfl
  refine ⟨fun k h1 hk => ?_, ?_, ?_, ?_, ?_, fun n hn' hc' => ?_⟩
  · obtain ⟨j, rfl⟩ : ∃ j, k = j + 1 := ⟨k - 1, by omega⟩
    rw [decideMode_iterate hn hp hne.symm hc j (by omega)]
    exact ⟨rfl, rfl, rfl⟩
  · rw [h51]
  · rw [h51]
  · rw [decideMode_standing]
  · rw [decideMode_standing]
  · rw [decideMode_new hn hp hn' hc']
    exact ⟨rfl, rfl, rfl⟩
end

section
/-! PROOFS. Three counterexamples of chapters 01, 02 and 04: an FLTR entry that raises a refused pack (0x0403) to class D,
and loss of the system PLL while TMODE holds Boot. -/

namespace Sys2Proof.Machine

/-- An image for a pack of one cell whose one FLTR entry raises 0x0403 to class D (R81). -/
def raisingMaquette : Maquette :=
  { pack := { ({} : Maquette).pack with n := 1 }
    fltr := { ({} : Maquette).fltr with entries := [{ code := 0x0403, cls := 4 }] } }

/-- A controller with that image: a charge cycle at its start voltage, to be evaluated anew at the next mode decision. -/
def refusingState (l : LifeG) : State :=
  { core :=
    { life := l
      mq := some raisingMaquette
      twn := { role := .lead }
      path := { active := some .main }
      chg := { phase := .cv, wasRes := true } } }

/-- Boot held by TMODE (R61). -/
def heldInBoot : State := { core := { life := { st := .boot, tmodeHold := true } } }

/-- Boot held by TMODE does not see the system PLL go. -/
theorem systemPllLossOfLock_heldInBoot : exec .systemPllLossOfLock heldInBoot = .next heldInBoot := rfl

end Sys2Proof.Machine

open Sys2Proof Sys2Proof.Machine

/-- Refutes O9: in Boot held by TMODE, loss of the system PLL's lock changes nothing, so no Reset is taken. -/
theorem not_resetSourcesTakeReset : ¬ Obligations.ResetSourcesTakeReset := by
  intro h
  obtain ⟨-, hpll, -⟩ := h heldInBoot
  obtain ⟨t, ht, hreset⟩ := hpll (.inr (.inr rfl))
  obtain rfl : heldInBoot = t := Host.Outcome.next.inj (systemPllLossOfLock_heldInBoot.symm.trans ht)
  exact absurd hreset.st (by decide)

/-- Refutes O17: at the lock the first decision evaluates the charge cycle anew, refuses the pack's voltage (0x0403), and
the image raises that fault to class D: the controller is in Reset, not in Run. -/
theorem not_dormantIsLeftByWakeAndLock : ¬ Obligations.DormantIsLeftByWakeAndLock := by
  intro h
  obtain ⟨-, -, -, -, hlock⟩ := h (refusingState { st := .dormant, waking := true }) rfl
  obtain ⟨t, ht, hrun, -⟩ := (hlock 0 0).2 rfl
  have hreset : ∀ u, exec (.wakePllLock 0 0) (refusingState { st := .dormant, waking := true }) = .next u →
      u.core.life.st = .reset := by
    rintro u ⟨⟩
    decide
  exact absurd ((hreset t ht).symm.trans hrun) (by decide)

/-- Refutes O19: the decision that leaves Reservoir evaluates the charge cycle anew, refuses the pack's voltage (0x0403), and
the image raises that fault to class D: the controller is in Reset, not in Run. -/
theorem not_decisionsFollowTheModeTable : ¬ Obligations.DecisionsFollowTheModeTable := by
  intro h
  obtain ⟨t, ht, hrun, -⟩ := h 0
    (refusingState { st := .run, mode := .reservoir, modeNow := true, due := [.decision] }) rfl rfl rfl
  have hreset : ∀ u, exec (.modeDecision 0)
      (refusingState { st := .run, mode := .reservoir, modeNow := true, due := [.decision] }) = .next u →
      u.core.life.st = .reset := by
    rintro u ⟨⟩
    decide
  exact absurd ((hreset t ht).symm.trans hrun) (by decide)
end

section
/-! PROOFS. What the end of exporting and the action of class A change and leave (chapters 05 and 11). -/

namespace Sys2Proof.Machine

/-! ### The parts of the end of exporting -/

section
variable (c : Core) (p : PdId) (i : Inp) (hr : Bool)

theorem altExit_eq : altExit c p =
    { c with pd := (altExit c p).pd, plb := (altExit c p).plb, vlt := (altExit c p).vlt } := by
  unfold altExit
  split
  · rw [dropMedium_eq]
    rfl
  · rfl

theorem pdExportEnd_eq : pdExportEnd c p =
    { c with pd := (pdExportEnd c p).pd, plb := (pdExportEnd c p).plb, vlt := (pdExportEnd c p).vlt } := by
  unfold pdExportEnd
  dsimp only
  rw [altExit_eq]
  rfl

theorem pairOff_eq : pairOff c i = { c with path := (pairOff c i).path } := by
  unfold pairOff
  dsimp only
  split <;> rfl

theorem stagePark_eq : stagePark c = { c with gdr := (stagePark c).gdr } := by
  unfold stagePark
  repeat' split
  all_goals rfl

theorem stagePark_gdr_of_stopped {c : Core} (h : c.gdr.st = .stopped) : (stagePark c).gdr = c.gdr := by
  simp [stagePark, h]

/-- The pair off and the stage parked: a Stopped stage stays as it is. -/
theorem stagePark_pairOff_eq : ∃ (path : PathG) (gdr : GdrG),
    stagePark (pairOff c i) = { c with path := path, gdr := gdr } ∧ (c.gdr.st = .stopped → gdr = c.gdr) := by
  rw [pairOff_eq, stagePark_eq]
  exact ⟨_, _, rfl, stagePark_gdr_of_stopped (c := { c with path := (pairOff c i).path })⟩

/-- The end of exporting changes the path, the stage, the ports, the bus and the vault, and of the lifecycle record the
path-driven mark alone; nothing is exported after it, and a Stopped stage stays as it is. -/
theorem exportEnd_eq : ∃ (b : Bool) (path : PathG) (gdr : GdrG) (pd : Vector PdG 2) (plb : PlbG) (vlt : VltG),
    exportEnd c hr = { c with
      life := { c.life with pathDriven := b }, path := path, gdr := gdr, pd := pd, plb := plb, vlt := vlt } ∧
    path.export_ = none ∧ (c.gdr.st = .stopped → gdr = c.gdr) := by
  cases he : c.path.export_ with
  | none =>
    simp only [exportEnd, he]
    exact ⟨c.life.pathDriven, _, c.gdr, c.pd, c.plb, c.vlt, rfl, rfl, fun _ => rfl⟩
  | some e =>
    obtain ⟨path, gdr, hpark, hgdr⟩ := stagePark_pairOff_eq c e.port.inp
    simp only [exportEnd, he, hpark]
    split
    · split
      · rw [pdExportEnd_eq]
        exact ⟨_, _, _, _, _, _, rfl, rfl, hgdr⟩
      · exact ⟨_, _, _, _, _, _, rfl, rfl, hgdr⟩
    · exact ⟨_, _, _, _, _, _, rfl, rfl, hgdr⟩

end

/-! ### The action of class A -/

section
variable (b : GdrG) (c : Core) (code : BitVec 16)

theorem noteChisel_eq : noteChisel b c code =
    { c with gdr := { c.gdr with code := (noteChisel b c code).gdr.code } } := by
  unfold noteChisel
  split <;> rfl

/-- Ended bursts leave no burst in any record. -/
theorem shedBursts_burst (c : Core) : ∀ r ∈ (shedBursts c).vlt.recs, r.2.burst = none := by
  intro r hr
  simp only [shedBursts, endBursts, kmap, List.mem_map] at hr
  obtain ⟨x, -, rfl⟩ := hr
  cases hb : x.2.burst <;> simp [hb]

end

/-- What the action of class A makes of the controller (R156, R214, R232, R360). -/
structure ClassATaken (c d : Core) (cause ph : Nat) : Prop where
  life : d.life = { c.life with pathDriven := d.life.pathDriven }
  stage : stageDown d
  cause : d.gdr.cause = cause ∧ d.gdr.causePh = ph
  bursts : ∀ r ∈ d.vlt.recs, r.2.burst = none
  export_ : d.path.export_ = none

theorem classAction_a (c : Core) (cause ph : Nat) (code : BitVec 16) :
    ClassATaken c (classAction c .a cause ph code) cause ph := by
  obtain ⟨hst, hph⟩ := stageDown_chiselAll c cause ph
  obtain ⟨b, path, gdr, pd, plb, vlt, he, hexport, hgdr⟩ :=
    exportEnd_eq (noteChisel c.gdr (chiselAll c cause ph) code) true
  have hnote := noteChisel_eq c.gdr (chiselAll c cause ph) code
  obtain rfl := hgdr (by rw [hnote]; exact hst)
  have hact : classAction c .a cause ph code =
      shedBursts (exportEnd (noteChisel c.gdr (chiselAll c cause ph) code) true) := rfl
  rw [hact, he, hnote]
  exact
    { life := rfl
      stage := ⟨hst, hph⟩
      cause := ⟨rfl, rfl⟩
      bursts := shedBursts_burst _
      export_ := hexport }

/-- A fault of class A outside Reset takes the class's action and nothing more of it (R284, Table 11-4). -/
theorem faultWith_a {c : Core} {code : BitVec 16} {row : FCls} (inst : BitVec 8) (p : ProbeSt) (probe : Bool) (cause ph : Nat)
    (ha : classInForce c code row = .a) (hst : c.life.st ≠ .reset) :
    ClassATaken c (faultWith c code inst row p probe cause ph) cause ph := by
  obtain ⟨o, n, q, hrec⟩ := latchRecord_eq (latchPut c code inst .a p) code inst
  generalize hd : (if probe = true then queueProbe (latchRecord (latchPut c code inst .a p) code inst) code inst
    else latchRecord (latchPut c code inst .a p) code inst) = d
  have hkeep : ∃ o n f, d = { c with own := o, free := n, flt := f } := by
    rw [← hd, hrec, latchPut_eq]
    split
    · rw [queueProbe_eq]
      exact ⟨_, _, _, rfl⟩
    · exact ⟨_, _, _, rfl⟩
  obtain ⟨hl, hs, hc, hb, he⟩ := classAction_a d cause ph code
  have hraised : raisedC (classAction d .a cause ph code) code row .a = classAction d .a cause ph code := rfl
  have hexport : exportFault (classAction d .a cause ph code) code = classAction d .a cause ph code := by
    simp [exportFault, he]
  have hinst : noteInst d (classAction d .a cause ph code) inst = classAction d .a cause ph code := by
    obtain ⟨o, n, f, rfl⟩ := hkeep
    rw [noteInst, hl]
    simp [hst]
  simp only [faultWith, ha]
  rw [hd, hraised, hexport, hinst]
  obtain ⟨o, n, f, rfl⟩ := hkeep
  exact ⟨hl, hs, hc, hb, he⟩

/-- A fault of class D in Run takes Reset with the class D cause (R105, Table 11-4). -/
theorem faultWith_d {c : Core} {code : BitVec 16} {row : FCls} (inst : BitVec 8) (p : ProbeSt) (probe : Bool) (cause ph : Nat)
    (hd : classInForce c code row = .d) (hst : c.life.st = .run) :
    (faultWith c code inst row p probe cause ph).life.st = .reset ∧
      (faultWith c code inst row p probe cause ph).life.rstCause = putBit c.life.rstCause 4 true := by
  obtain ⟨o, n, q, hrec⟩ := latchRecord_eq (latchPut c code inst .d p) code inst
  generalize hx : (if probe = true then queueProbe (latchRecord (latchPut c code inst .d p) code inst) code inst
    else latchRecord (latchPut c code inst .d p) code inst) = d
  have hkeep : d.life = c.life := by
    rw [← hx, hrec, latchPut_eq]
    split
    · rw [queueProbe_eq]
    · rfl
  have htaken : ResetTaken d (resetEntry d .fault 4 code) 4 :=
    resetEntry_taken d .fault 4 code (by simp [hkeep, hst]) (by simp [hkeep, hst])
  obtain ⟨-, -, -, -, -, hpath, -⟩ := htaken.cleared
  have hraised : raisedC (classAction d .d cause ph code) code row .d = resetEntry d .fault 4 code := rfl
  have hexport : exportFault (resetEntry d .fault 4 code) code = resetEntry d .fault 4 code := by
    simp [exportFault, hpath]
  simp only [faultWith, hd]
  rw [hx, hraised, hexport, noteInst, htaken.st]
  simp [hkeep, hst, htaken.st, htaken.cause]

/-! ### Loss of KLN and of the PWM PLL in Run -/

/-- The controller as the loss of KLN finds it (R37). -/
def Core.withoutKln (c : Core) : Core := { c with life := { c.life with klnLost := true } }

/-- The controller as the loss of the PWM PLL's lock finds it (R38). -/
def Core.withoutPwmLock (c : Core) : Core := { c with life := { c.life with pwmLock := false } }

section
variable {s : State}

theorem exec_klnLoss (hrun : s.core.life.st = .run) (hk : s.core.life.klnLost = false) :
    exec .klnLoss s = onCore s fun c => fault c.withoutKln 0x1802 0 := by
  show execKlnLoss s = _
  rw [execKlnLoss, onCoreIf_pos _ _ _ (by simp [monitored, inRun, hrun, hk])]
  rfl

theorem exec_pwmPllLossOfLock (hrun : s.core.life.st = .run) :
    exec .pwmPllLossOfLock s = onCore s fun c => faultWith c.withoutPwmLock 0x0A08 0 .a .pending true 6 0 := by
  show execPwmPllLossOfLock s = _
  rw [execPwmPllLossOfLock, onCoreIf_pos _ _ _ (by simp [stageLive, inRun, hrun])]
  rfl

theorem stageMayStart_of_klnLost {c : Core} (h : c.life.klnLost = true) : stageMayStart c = false := by
  simp [stageMayStart, h]

theorem stageMayStart_of_pwmLock {c : Core} (h : c.life.pwmLock = false) : stageMayStart c = false := by
  simp [stageMayStart, h]

end

end Sys2Proof.Machine

open Sys2Proof Sys2Proof.Machine

/-- Settles O13: below class D both faults take the action of class A, and the clock that is gone bars the next start. -/
theorem clockFaultsStopTheStage : Obligations.ClockFaultsStopTheStage := by
  intro s hrun
  have hne : s.core.life.st ≠ .reset := by simp [hrun]
  refine ⟨fun hk ha => ?klnA, fun hk hd => ?klnD, fun ha => ?pwmA, fun hd => ?pwmD⟩
  case klnA =>
    obtain ⟨hlife, hstage, -, hbursts, hexport⟩ :=
      faultWith_a (c := s.core.withoutKln) (row := .a) 0 .pending true 3 0 ha hne
    refine ⟨_, (exec_klnLoss hrun hk).trans (onCore_of_ne _ _ ?_), hstage, latched_fault _ _ _ ?_,
      stageMayStart_of_klnLost (congrArg LifeG.klnLost hlife), hlife, hbursts, hexport⟩
    · exact (congrArg LifeG.st hlife).trans_ne hne
    · exact ha.trans_ne (by decide)
  case klnD =>
    obtain ⟨hst, hcause⟩ := faultWith_d (c := s.core.withoutKln) (row := .a) 0 .pending true 3 0 hd hrun
    obtain ⟨hst', hcause', -⟩ := afterReset_reset hst hne
    exact ⟨_, exec_klnLoss hrun hk, hst', hcause'.trans hcause⟩
  case pwmA =>
    obtain ⟨hlife, hstage, ⟨hcause, hph⟩, -, -⟩ :=
      faultWith_a (c := s.core.withoutPwmLock) (row := .a) 0 .pending true 6 0 ha hne
    have hlock := congrArg LifeG.pwmLock hlife
    refine ⟨_, (exec_pwmPllLossOfLock hrun).trans (onCore_of_ne _ _ ?_), hstage, latched_faultWith _ _ _ _ _ _ _ _ ?_,
      stageMayStart_of_pwmLock hlock, hlock, hcause, hph⟩
    · exact (congrArg LifeG.st hlife).trans_ne hne
    · exact ha.trans_ne (by decide)
  case pwmD =>
    obtain ⟨hst, -⟩ := faultWith_d (c := s.core.withoutPwmLock) (row := .a) 0 .pending true 6 0 hd hrun
    exact ⟨_, exec_pwmPllLossOfLock hrun, (afterReset_reset hst hne).1⟩
end

section
/-! PROOFS. What the functions of CORE keep of the lifecycle: its state, mode and clock, the events due, the image in force, the
twin's shed pins and the orders that arrived. A fault that the image raises to class D, or a reset, takes Reset without a mode;
nothing else moves them.  Lemmas that hold by definition are proved by `(rfl)`, so that simp also rewrites with them in the
hypothesis of a lemma about `Goes`. -/

namespace Sys2Proof.Machine

/-- What every function of CORE keeps but those of the lifecycle, the clock and the arrival of orders. -/
structure Kept where
  st : Life
  mode : Mode
  modeNow : Bool
  tick : BitVec 64
  us : BitVec 32
  due : List GridEvent
  late : List GridEvent
  overruns : Vector Nat 3
  mq : Option Maquette
  twShed : BitVec 4
  arrived : List Arrived

def Core.kept (c : Core) : Kept :=
  ⟨c.life.st, c.life.mode, c.life.modeNow, c.life.tick, c.life.us, c.life.due, c.life.late, c.life.overruns, c.mq, c.pins.twShed,
    c.ord.arrived⟩

/-- What is kept, the orders that arrived taken out. -/
def Kept.taken (k : Kept) : Kept := { k with arrived := [] }

theorem kept_taken (c : Core) : c.kept.taken = ⟨c.life.st, c.life.mode, c.life.modeNow, c.life.tick, c.life.us, c.life.due,
    c.life.late, c.life.overruns, c.mq, c.pins.twShed, []⟩ := (rfl)

/-- An FLTR entry of the image in force raises a fault to class D (R81). -/
def Kept.raises (k : Kept) : Prop := ∃ e ∈ (k.mq.getD {}).fltr.entries, FCls.ofCode e.cls = some .d

/-- A reset has been taken. -/
def Kept.isReset (k : Kept) : Prop := k.st = .reset ∧ k.mode = .none

/-- Nothing kept has changed, or Reset has been taken: by a fault raised to class D, or where `hard` allows it by any
reset. -/
def Goes (hard : Bool) (k k' : Kept) : Prop := k' = k ∨ ((hard = true ∨ k.raises) ∧ k'.isReset)

/-! ### Reading `kept` through record updates and branches -/

@[simp ↓] theorem kept_mk (life : LifeG) (pins otp nvm mq mqs path chg cel ldg gdr loop thm lsw pd plb vlt twn wdg flt own ord
    meas outs free) : Core.kept ⟨life, pins, otp, nvm, mq, mqs, path, chg, cel, ldg, gdr, loop, thm, lsw, pd, plb, vlt, twn,
      wdg, flt, own, ord, meas, outs, free⟩ =
    ⟨life.st, life.mode, life.modeNow, life.tick, life.us, life.due, life.late, life.overruns, mq, pins.twShed, ord.arrived⟩ :=
  (rfl)

@[simp] theorem mk_kept (c : Core) : Kept.mk c.life.st c.life.mode c.life.modeNow c.life.tick c.life.us c.life.due c.life.late
    c.life.overruns c.mq c.pins.twShed c.ord.arrived = c.kept := (rfl)

@[simp ↓] theorem kept_ite (p : Prop) [Decidable p] (c d : Core) :
    (if p then c else d).kept = if p then c.kept else d.kept := apply_ite _ _ _ _

theorem kept_foldl {α : Type} {f : Core → α → Core} (h : ∀ c x, (f c x).kept = c.kept) (l : List α) (c : Core) :
    (l.foldl f c).kept = c.kept := by
  induction l generalizing c with
  | nil => rfl
  | cons x l ih => exact (ih _).trans (h c x)

/-! ### `Goes` -/

section
variable {b : Bool} {k k' k'' : Kept}

@[simp] theorem Goes.refl : Goes b k k := .inl rfl

theorem Goes.trans (h : Goes b k k') (h' : Goes b k' k'') : Goes b k k'' := by
  rcases h with rfl | ⟨hr, h⟩
  · exact h'
  · rcases h' with rfl | ⟨-, h'⟩
    · exact .inr ⟨hr, h⟩
    · exact .inr ⟨hr, h'⟩

/-- What is said of the orders that arrived may be left out. -/
theorem Goes.taken (h : Goes b k k') : Goes b k.taken k'.taken := by
  rcases h with rfl | h
  · exact .refl
  · exact .inr h

theorem Goes.ite {p : Prop} [Decidable p] (h : p → Goes b k k') (h' : ¬ p → Goes b k k'') :
    Goes b k (if p then k' else k'') := by
  split
  · exact h ‹_›
  · exact h' ‹_›

@[simp] theorem goes_ite {p : Prop} [Decidable p] :
    Goes b k (if p then k' else k'') ↔ (p → Goes b k k') ∧ (¬ p → Goes b k k'') := by
  split <;> simp [*]

theorem goes_foldl {α : Type} {f : Core → α → Core} (h : ∀ c x, Goes b k c.kept → Goes b k (f c x).kept) (l : List α) {c : Core}
    (hc : Goes b k c.kept) : Goes b k (l.foldl f c).kept := by
  induction l generalizing c with
  | nil => exact hc
  | cons x l ih => exact ih (h c x hc)

end

end Sys2Proof.Machine
end


section
/-! PROOFS. Functions of CORE that raise no fault keep the lifecycle, block by block in the order of the model. -/

namespace Sys2Proof.Machine

/-! ### Reactions -/

@[simp] theorem updPd_kept (c : Core) (p : PdId) (f : PdG → PdG) : (updPd c p f).kept = c.kept := (rfl)

@[simp] theorem updPlb_kept (c : Core) (p : Nat) (f : PlbPort → PlbPort) : (updPlb c p f).kept = c.kept := (rfl)

@[simp] theorem updAcct_kept (c : Core) (a : Nat) (f : AcctRec → AcctRec) : (updAcct c a f).kept = c.kept := (rfl)

@[simp] theorem book_kept (c : Core) (a : Nat) (k : Column) (f : ColRec → ColRec) : (book c a k f).kept = c.kept := (rfl)

@[simp] theorem bookAll_kept (c : Core) (as : List Nat) (k : Column) (f : ColRec → ColRec) : (bookAll c as k f).kept = c.kept :=
  kept_foldl (fun c a => (rfl : (book c a k f).kept = c.kept)) as c

@[simp] theorem queueRec_kept (c : Core) (r : QRec) : (queueRec c r).kept = c.kept := by
  simp [queueRec]

@[simp] theorem queueFree_kept (c : Core) (t : RecType) (info : RecInfo) : (queueFree c t info).kept = c.kept := by
  simp [queueFree]

@[simp] theorem queueValues_kept (c : Core) (k : Checkpoint) (periodic nextEpoch : Bool) :
    (queueValues c k periodic nextEpoch).kept = c.kept := by
  simp [queueValues]

@[simp] theorem queueCheckpoint_kept (c : Core) (periodic nextEpoch : Bool) :
    (queueCheckpoint c periodic nextEpoch).kept = c.kept := by
  simp [queueCheckpoint]

@[simp] theorem queueLastClose_kept (c : Core) : (queueLastClose c).kept = c.kept := by
  simp [queueLastClose]

@[simp] theorem queuePatina_kept (c : Core) : (queuePatina c).kept = c.kept := by
  simp [queuePatina]

@[simp] theorem chiselAll_kept (c : Core) (cause ph : Nat) : (chiselAll c cause ph).kept = c.kept := (rfl)

@[simp] theorem chiselPhase_kept (c : Core) (n cause : Nat) : (chiselPhase c n cause).kept = c.kept := (rfl)

@[simp] theorem noteChisel_kept (before : GdrG) (c : Core) (code : BitVec 16) : (noteChisel before c code).kept = c.kept := by
  simp [noteChisel]

@[simp] theorem endTransientA_kept (c : Core) : (endTransientA c).kept = c.kept := (rfl)

@[simp] theorem clearLoops_kept (c : Core) : (clearLoops c).kept = c.kept := (rfl)

@[simp] theorem loopRestart_kept (c : Core) : (loopRestart c).kept = c.kept := (rfl)

@[simp] theorem takeDirection_kept (c : Core) : (takeDirection c).kept = c.kept := by
  simp [takeDirection]

@[simp] theorem prechargeBegin_kept (c : Core) (sel : Nat → Bool) (full : Bool) :
    (prechargeBegin c sel full).kept = c.kept := (rfl)

@[simp] theorem stageStart_kept (c : Core) (full : Bool) : (stageStart c full).kept = c.kept := by
  simp [stageStart]

@[simp] theorem stagePark_kept (c : Core) : (stagePark c).kept = c.kept := by
  unfold stagePark
  repeat' split
  all_goals rfl

@[simp] theorem calibrateNext_kept (c : Core) : (calibrateNext c).kept = c.kept := by
  unfold calibrateNext
  repeat' split
  all_goals rfl

@[simp] theorem stageUnpark_kept (c : Core) : (stageUnpark c).kept = c.kept := by
  unfold stageUnpark
  repeat' split
  all_goals simp

@[simp] theorem setPair_kept (c : Core) (i : Inp) (b : Bool) : (setPair c i b).kept = c.kept := (rfl)

@[simp] theorem pairOff_kept (c : Core) (i : Inp) : (pairOff c i).kept = c.kept := by
  simp [pairOff]

@[simp] theorem allPairsOff_kept (c : Core) : (allPairsOff c).kept = c.kept := (rfl)

@[simp] theorem batfetFull_kept (c : Core) : (batfetFull c).kept = c.kept := by
  simp [batfetFull]

@[simp] theorem pdSend_kept (c : Core) (p : PdId) (m : PdMsg) : (pdSend c p m).kept = c.kept := (rfl)

@[simp] theorem dropMedium_kept (c : Core) : (dropMedium c).kept = c.kept := by
  simp [dropMedium]

@[simp] theorem altExit_kept (c : Core) (p : PdId) : (altExit c p).kept = c.kept := by
  simp [altExit]

@[simp] theorem dropAsk_kept (c : Core) (p : PdId) : (dropAsk c p).kept = c.kept := (rfl)

@[simp] theorem pdExportEnd_kept (c : Core) (p : PdId) : (pdExportEnd c p).kept = c.kept := by
  simp [pdExportEnd]

@[simp] theorem exportEnd_kept (c : Core) (hr : Bool) : (exportEnd c hr).kept = c.kept := by
  unfold exportEnd
  repeat' split
  all_goals simp

@[simp] theorem setBurst_kept (c : Core) (a : Nat) (b : Option Burst) : (setBurst c a b).kept = c.kept := (rfl)

@[simp] theorem endBursts_kept (c : Core) (sel : Nat → Bool) : (endBursts c sel).kept = c.kept := (rfl)

@[simp] theorem shedBursts_kept (c : Core) : (shedBursts c).kept = c.kept := (rfl)

@[simp] theorem resetCause_kept (c : Core) (kind : ResetKind) (bit : Nat) (code : BitVec 16) :
    (resetCause c kind bit code).kept = c.kept := by
  simp [resetCause]

@[simp] theorem updLatch_kept (c : Core) (code : BitVec 16) (inst : BitVec 8) (f : Latch → Latch) :
    (updLatch c code inst f).kept = c.kept := (rfl)

@[simp] theorem clearActive_kept (c : Core) (code : BitVec 16) (inst : BitVec 8) :
    (clearActive c code inst).kept = c.kept := (rfl)

@[simp] theorem latchPut_kept (c : Core) (code : BitVec 16) (inst : BitVec 8) (cls : FCls) (p : ProbeSt) :
    (latchPut c code inst cls p).kept = c.kept := by
  unfold latchPut
  repeat' split
  all_goals rfl

@[simp] theorem latchRecord_kept (c : Core) (code : BitVec 16) (inst : BitVec 8) :
    (latchRecord c code inst).kept = c.kept := by
  simp [latchRecord]

@[simp] theorem queueProbe_kept (c : Core) (code : BitVec 16) (inst : BitVec 8) : (queueProbe c code inst).kept = c.kept := by
  simp [queueProbe]

@[simp] theorem raisedC_kept (c : Core) (code : BitVec 16) (row cls : FCls) : (raisedC c code row cls).kept = c.kept := by
  simp [raisedC]

@[simp] theorem noteInst_kept (before c : Core) (inst : BitVec 8) : (noteInst before c inst).kept = c.kept := by
  simp [noteInst]

@[simp] theorem exportFault_kept (c : Core) (code : BitVec 16) : (exportFault c code).kept = c.kept := by
  simp [exportFault]

@[simp] theorem recordCondition_kept (c : Core) : (recordCondition c).kept = c.kept := by
  simp [recordCondition]

@[simp] theorem attend_kept (c : Core) (bit : Nat) : (attend c bit).kept = c.kept := (rfl)

/-! ### Flags -/

@[simp] theorem freeLatches_kept (c : Core) : (freeLatches c).kept = c.kept := (rfl)

@[simp] theorem selectAccount_kept (c : Core) : (selectAccount c).kept = c.kept := by
  unfold selectAccount
  split <;> simp

@[simp] theorem settle_kept (c : Core) : (settle c).kept = c.kept := by
  simp [settle]

@[simp] theorem publish_kept (s : State) : (publish s).core.kept = s.core.kept := by
  simp [publish]

@[simp] theorem portNote_kept (s : State) (bit : Nat) : (portNote s bit).core.kept = s.core.kept := (rfl)

@[simp] theorem wakeBegin_kept (c : Core) (wd : Bool) : (wakeBegin c wd).kept = c.kept := by
  simp [wakeBegin]

@[simp] theorem refusePort_kept (s : State) : (refusePort s).core.kept = s.core.kept := by
  unfold refusePort
  split <;> simp

/-! ### Limits -/

@[simp] theorem twSend_kept (c : Core) (type : Nat) (data : List Int) : (twSend c type data).kept = c.kept := by
  simp [twSend]

/-! ### Loop -/

@[simp] theorem updDesc_kept (c : Core) (d : Nat) (f : DescG → DescG) : (updDesc c d f).kept = c.kept := (rfl)

@[simp] theorem phaseSetpoints_kept (c : Core) : (phaseSetpoints c).kept = c.kept := (rfl)

@[simp] theorem refreshSetpoints_kept (c : Core) : (refreshSetpoints c).kept = c.kept := (rfl)

@[simp] theorem outerSelect_kept (c : Core) : (outerSelect c).kept = c.kept := (rfl)

@[simp] theorem patternLogic_kept (c : Core) (n : Nat) (m : Int) : (patternLogic c n m).kept = c.kept := (rfl)

@[simp] theorem runEnded_kept (c : Core) (d : Nat) : (runEnded c d).kept = c.kept := by
  simp [runEnded]

@[simp] theorem loopOut_kept (c : Core) (r : LoopRun) (v : Word) : (loopOut c r v).kept = c.kept := by
  simp [loopOut]

@[simp] theorem backstopEnter_kept (c : Core) (n : Nat) : (backstopEnter c n).kept = c.kept := by
  simp [backstopEnter]

@[simp] theorem addCycles_kept (c : Core) (cyc : Nat) : (addCycles c cyc).kept = c.kept := (rfl)

/-! ### Stage -/

@[simp] theorem phasePeriod_kept (c : Core) (n : Nat) : (phasePeriod c n).kept = c.kept := (rfl)

@[simp] theorem bufferSwap_kept (c : Core) (first : Bool) : (bufferSwap c first).kept = c.kept := (rfl)

@[simp] theorem backstopRun_kept (c : Core) (n : Nat) : (backstopRun c n).kept = c.kept := (rfl)

@[simp] theorem latchCurrent_kept (c : Core) (n : Nat) (first : Bool) (smp : LoopSample) :
    (latchCurrent c n first smp).kept = c.kept := by
  unfold latchCurrent
  split <;> simp

@[simp] theorem chiselStep2_kept (c : Core) (n : Nat) : (chiselStep2 c n).kept = c.kept := by
  simp [chiselStep2]

@[simp] theorem chiselDone_kept (c : Core) (n : Nat) : (chiselDone c n).kept = c.kept := by
  simp [chiselDone]

/-! ### Ledger -/

@[simp] theorem sampleRun_kept (smp : Sample) (c : Core) : (sampleRun smp c).kept = c.kept := (rfl)

@[simp] theorem bookInjected_kept (c : Core) : (bookInjected c).kept = c.kept := by
  unfold bookInjected
  split <;> simp

@[simp] theorem bookDerived_kept (c : Core) (v0 : Nat) : (bookDerived c v0).kept = c.kept := by
  unfold bookDerived
  split <;> simp

@[simp] theorem modeBook_kept (c : Core) : (modeBook c).kept = c.kept := (rfl)

@[simp] theorem closeMarks_kept (c : Core) : (closeMarks c).kept = c.kept := (rfl)

@[simp] theorem socUpdate_kept (c : Core) : (socUpdate c).kept = c.kept := (rfl)

@[simp] theorem setRef_kept (c : Core) (q : Int) (coarse : Bool) : (setRef c q coarse).kept = c.kept := (rfl)

@[simp] theorem ocvStep_kept (c : Core) : (ocvStep c).kept = c.kept := by
  simp [ocvStep]

@[simp] theorem addBase_kept (c : Core) (k : Checkpoint) : (addBase c k).kept = c.kept := (rfl)

@[simp] theorem zeroAccumulators_kept (c : Core) : (zeroAccumulators c).kept = c.kept := (rfl)

@[simp] theorem restoreBase_kept (c : Core) : (restoreBase c).kept = c.kept := by
  unfold restoreBase
  dsimp only
  split <;> simp

@[simp] theorem entryRecords_kept (c : Core) : (entryRecords c).kept = c.kept := by
  unfold entryRecords
  split <;> simp

@[simp] theorem closeDormant_kept (c : Core) : (closeDormant c).kept = c.kept := (rfl)

@[simp] theorem dormantRecord_kept (c : Core) : (dormantRecord c).kept = c.kept := by
  simp [dormantRecord]

@[simp] theorem noteClose_kept (c : Core) : (noteClose c).kept = c.kept := (rfl)

@[simp] theorem closingClose_kept (c : Core) : (closingClose c).kept = c.kept := by
  simp [closingClose]

@[simp] theorem openingClose_kept (c : Core) : (openingClose c).kept = c.kept := by
  simp [openingClose]

@[simp] theorem handoverClose_kept (c : Core) : (handoverClose c).kept = c.kept := by
  unfold handoverClose
  split <;> simp

@[simp] theorem closeFrames_kept (c : Core) (net : List Int) : (closeFrames c net).kept = c.kept := by
  simp [closeFrames]

@[simp] theorem cycleBegin_kept (c : Core) : (cycleBegin c).kept = c.kept := (rfl)

@[simp] theorem closeSoc_kept (c : Core) (entry : Bool) : (closeSoc c entry).kept = c.kept := by
  simp [closeSoc]

@[simp] theorem closeRecords_kept (c : Core) (entry dormant : Bool) : (closeRecords c entry dormant).kept = c.kept := by
  simp [closeRecords]

@[simp] theorem isolateChannel_kept (c : Core) (k : Nat) : (isolateChannel c k).kept = c.kept := (rfl)

/-! ### Cells -/

@[simp] theorem publishCells_kept (c : Core) : (publishCells c).kept = c.kept := (rfl)

@[simp] theorem chooseDiag_kept (c : Core) (owed : Bool) : (chooseDiag c owed).kept = c.kept := by
  unfold chooseDiag
  dsimp only
  repeat' split
  all_goals simp

@[simp] theorem balanceStep_kept (c : Core) : (balanceStep c).kept = c.kept := (rfl)

@[simp] theorem limitCorrection_kept (c : Core) : (limitCorrection c).kept = c.kept := by
  simp [limitCorrection]

@[simp] theorem stackCheck_kept (c : Core) (cells : List Nat) (stack : Nat) : (stackCheck c cells stack).kept = c.kept := by
  simp [stackCheck]

@[simp] theorem ocvStart_kept (c : Core) : (ocvStart c).kept = c.kept := by
  simp [ocvStart]

@[simp] theorem classified_kept (c : Core) : (classified c).kept = c.kept := (rfl)

@[simp] theorem twinCells_kept (c : Core) (other : List Nat) : (twinCells c other).kept = c.kept := by
  simp [twinCells]

/-! ### Charger -/

@[simp] theorem enterPhase_kept (c : Core) (p : ChgPhase) : (enterPhase c p).kept = c.kept := (rfl)

@[simp] theorem timerFaultEnds_kept (c : Core) : (timerFaultEnds c).kept = c.kept := by
  simp [timerFaultEnds]

@[simp] theorem countStep_kept (c : Core) (iPackAvg : Int) : (countStep c iPackAvg).kept = c.kept := by
  simp [countStep]

@[simp] theorem timerStep_kept (c : Core) : (timerStep c).kept = c.kept := by
  unfold timerStep
  split
  · split <;> rfl
  · rfl

@[simp] theorem heaterStep_kept (c : Core) : (heaterStep c).kept = c.kept := by
  simp [heaterStep]

@[simp] theorem askStep_kept (c : Core) (iPackAvg : Int) : (askStep c iPackAvg).kept = c.kept := (rfl)

@[simp] theorem restStep_kept (c : Core) : (restStep c).kept = c.kept := (rfl)

@[simp] theorem chargeTargets_kept (c : Core) : (chargeTargets c).kept = c.kept := by
  simp [chargeTargets]

/-! ### Path -/

@[simp] theorem incomingOn_kept (c : Core) (x : Xfer) : (incomingOn c x).kept = c.kept := by
  simp [incomingOn]

@[simp] theorem beginTurnOn_kept (c : Core) (i : Inp) : (beginTurnOn c i).kept = c.kept := by
  simp [beginTurnOn]

@[simp] theorem beginTransfer_kept (c : Core) (out inc : Inp) (loss : Bool) :
    (beginTransfer c out inc loss).kept = c.kept := by
  simp [beginTransfer]

@[simp] theorem noInput_kept (c : Core) (i : Inp) : (noInput c i).kept = c.kept := by
  simp [noInput]

@[simp] theorem selectInput_kept (c : Core) : (selectInput c).kept = c.kept := by
  unfold selectInput
  repeat' split
  all_goals simp

@[simp] theorem setDirection_kept (c : Core) (rev : Bool) : (setDirection c rev).kept = c.kept := by
  simp [setDirection]

@[simp] theorem exportReverse_kept (c : Core) : (exportReverse c).kept = c.kept := by
  unfold exportReverse
  split <;> simp

@[simp] theorem exportBegin_kept (c : Core) (e : Export) : (exportBegin c e).kept = c.kept := by
  unfold exportBegin
  repeat' split
  all_goals simp

@[simp] theorem exportWaiting_kept (c : Core) : (exportWaiting c).kept = c.kept := by
  unfold exportWaiting
  split <;> simp

@[simp] theorem inputLost_kept (c : Core) (i : Inp) : (inputLost c i).kept = c.kept := by
  unfold inputLost
  dsimp only
  split <;> simp

@[simp] theorem safeHoldStart_kept (c : Core) : (safeHoldStart c).kept = c.kept := by
  simp [safeHoldStart]

@[simp] theorem safeHoldMain_kept (c : Core) : (safeHoldMain c).kept = c.kept := (rfl)

@[simp] theorem safeHoldResume_kept (c : Core) : (safeHoldResume c).kept = c.kept := by
  simp [safeHoldResume]

@[simp] theorem pairFault_kept (c : Core) (i : Inp) : (pairFault c i).kept = c.kept := (rfl)

@[simp] theorem pathGatesOff_kept (c : Core) (batfet : Batfet) : (pathGatesOff c batfet).kept = c.kept := (rfl)

@[simp] theorem floorStep_kept (c : Core) : (floorStep c).kept = c.kept := (rfl)

@[simp] theorem limitStep_kept (c : Core) : (limitStep c).kept = c.kept := by
  unfold limitStep
  repeat' split
  all_goals rfl

@[simp] theorem floorSuspStep_kept (c : Core) : (floorSuspStep c).kept = c.kept := (rfl)

/-! ### LoadSwitch -/

@[simp] theorem updLsw_kept (c : Core) (n : Nat) (f : LswCh → LswCh) : (updLsw c n f).kept = c.kept := (rfl)

@[simp] theorem lswOff_kept (c : Core) (n : Nat) : (lswOff c n).kept = c.kept := (rfl)

@[simp] theorem lswAllOff_kept (c : Core) : (lswAllOff c).kept = c.kept := kept_foldl (f := lswOff) (fun _ _ => rfl) _ c

@[simp] theorem lswStep_kept (c : Core) : (lswStep c).kept = c.kept := by
  simp [lswStep, kept_foldl]

@[simp] theorem lswKiln_kept (c : Core) : (lswKiln c).kept = c.kept := kept_foldl (fun _ _ => by simp) _ c

@[simp] theorem lswRelease_kept (c : Core) : (lswRelease c).kept = c.kept := (rfl)

@[simp] theorem lswRetry_kept (c : Core) (n : Nat) : (lswRetry c n).kept = c.kept := (rfl)

@[simp] theorem lswFlagStep_kept (c : Core) : (lswFlagStep c).kept = c.kept := (rfl)

/-! ### Tokens -/

@[simp] theorem updPartner_kept (c : Core) (p addr : Nat) (f : Partner → Partner) :
    (updPartner c p addr f).kept = c.kept := (rfl)

@[simp] theorem queueMsg_kept (c : Core) (p : Nat) (m : PlbMsg) : (queueMsg c p m).kept = c.kept := (rfl)

@[simp] theorem sendDefer_kept (c : Core) (a : Nat) (seq : Byte) (reason : Nat) :
    (sendDefer c a seq reason).kept = c.kept := (rfl)

@[simp] theorem sendDenied_kept (c : Core) (a : Nat) (seq : Byte) (eMax : Nat) :
    (sendDenied c a seq eMax).kept = c.kept := (rfl)

@[simp] theorem sendThrottle_kept (c : Core) (a level : Nat) : (sendThrottle c a level).kept = c.kept := (rfl)

@[simp] theorem sendShedFrame_kept (c : Core) (p cause : Nat) : (sendShedFrame c p cause).kept = c.kept := (rfl)

@[simp] theorem withdrawGrant_kept (c : Core) (a : Nat) (k : Column) : (withdrawGrant c a k).kept = c.kept := by
  simp [withdrawGrant]

@[simp] theorem grantLevel_kept (c : Core) (a : Nat) (k : Column) (target : Nat) (seq : Byte) :
    (grantLevel c a k target seq).kept = c.kept := by
  simp [grantLevel]

@[simp] theorem exportStop_kept (c : Core) (a : Nat) (hr : Bool) : (exportStop c a hr).kept = c.kept := by
  unfold exportStop
  repeat' split
  all_goals simp

@[simp] theorem recallTo_kept (c : Core) (a : Nat) (k : Column) (target : Nat) : (recallTo c a k target).kept = c.kept := by
  unfold recallTo
  repeat' split
  all_goals simp

@[simp] theorem lowerAll_kept (c : Core) (as : List Nat) : (lowerAll c as).kept = c.kept :=
  kept_foldl (fun _ _ => by simp) as c

@[simp] theorem recallPort_kept (c : Core) (p : Nat) : (recallPort c p).kept = c.kept := by
  simp [recallPort]

@[simp] theorem dropPartner_kept (c : Core) (p addr : Nat) : (dropPartner c p addr).kept = c.kept := by
  simp [dropPartner]

/-! ### Pd -/

@[simp] theorem pdTerm_kept (c : Core) (p : PdId) : (pdTerm c p).kept = c.kept := (rfl)

@[simp] theorem sinkLost_kept (c : Core) (p : PdId) : (sinkLost c p).kept = c.kept := by
  simp [sinkLost]

@[simp] theorem pdLeave_kept (c : Core) (p : PdId) (att : Attach) : (pdLeave c p att).kept = c.kept := by
  simp [pdLeave]

@[simp] theorem errorRecovery_kept (c : Core) (p : PdId) : (errorRecovery c p).kept = c.kept := by
  simp [errorRecovery]

@[simp] theorem pdCount_kept (c : Core) (p : PdId) : (pdCount c p).kept = c.kept := (rfl)

@[simp] theorem sendOffer_kept (c : Core) (p : PdId) : (sendOffer c p).kept = c.kept := by
  simp [sendOffer]

@[simp] theorem pdBacked_kept (c : Core) (p : PdId) (ok : Bool) : (pdBacked c p ok).kept = c.kept := by
  unfold pdBacked
  dsimp only
  repeat' split
  all_goals simp

@[simp] theorem beginSequence_kept (c : Core) (p : PdId) (m : PdMsg) : (beginSequence c p m).kept = c.kept := (rfl)

@[simp] theorem refuseSwap_kept (c : Core) (port : PdId) : (refuseSwap c port).kept = c.kept := (rfl)

@[simp] theorem enterAlt_kept (c : Core) (p : PdId) : (enterAlt c p).kept = c.kept := (rfl)

@[simp] theorem dampEntry_kept (c : Core) (p : PdId) : (dampEntry c p).kept = c.kept := by
  simp [dampEntry]

@[simp] theorem pdReturn_kept (c : Core) (p : PdId) : (pdReturn c p).kept = c.kept := by
  simp [pdReturn]

@[simp] theorem pdAsk_kept (c : Core) (p : PdId) : (pdAsk c p).kept = c.kept := by
  simp [pdAsk]

@[simp] theorem pdEnableOff_kept (c : Core) (p : PdId) : (pdEnableOff c p).kept = c.kept := by
  simp [pdEnableOff]

@[simp] theorem pdTick_kept (c : Core) : (pdTick c).kept = c.kept := by
  simp [pdTick]

/-! ### Vault -/

@[simp] theorem recompute_kept (c : Core) : (recompute c).kept = c.kept := (rfl)

@[simp] theorem throttleStep_kept (c : Core) : (throttleStep c).kept = c.kept := by
  unfold throttleStep
  split
  · rfl
  · simp [kept_foldl]

@[simp] theorem recallTier_kept (c : Core) (k : Column) (tier need : Nat) : (recallTier c k tier need).1.kept = c.kept := by
  unfold recallTier
  split
  · rfl
  · exact kept_foldl (fun _ _ => by simp) _ c

@[simp] theorem recallTiers_kept (k : Column) (ts : List Nat) : ∀ (c : Core) (need : Nat),
    (recallTiers c k ts need).kept = c.kept := by
  induction ts with
  | nil => exact fun _ _ => rfl
  | cons t ts ih => exact fun c need => (ih _ _).trans (recallTier_kept c k t need)

@[simp] theorem recallStep_kept (c : Core) (k : Column) : (recallStep c k).kept = c.kept := by
  simp [recallStep]

@[simp] theorem marginStep_kept (c : Core) (before : Int) : (marginStep c before).kept = c.kept := by
  simp [marginStep, kept_foldl]

@[simp] theorem serve_kept (c : Core) (k : Column) (fair : List (Nat × Nat)) (capped : Bool) (a : Nat) :
    (serve c k fair capped a).kept = c.kept := by
  unfold serve
  dsimp only
  split <;> simp

@[simp] theorem serveColumn_kept (c : Core) (k : Column) : (serveColumn c k).kept = c.kept := by
  simp [serveColumn, kept_foldl]

@[simp] theorem judgeBurst_kept (c : Core) (a : Nat) : (judgeBurst c a).kept = c.kept := by
  unfold judgeBurst
  dsimp only
  split <;> simp

@[simp] theorem burstStep_kept (c : Core) : (burstStep c).kept = c.kept := by
  simp [burstStep, kept_foldl]

@[simp] theorem releaseSurplus_kept (c : Core) (p : PdId) : (releaseSurplus c p).kept = c.kept := by
  unfold releaseSurplus
  split <;> simp

@[simp] theorem backOne_kept (c : Core) (a n : Nat) : (backOne c a n).kept = c.kept := by
  simp [backOne]

@[simp] theorem backStep_kept (c : Core) : (backStep c).kept = c.kept := by
  simp [backStep, kept_foldl]

@[simp] theorem sendMirror_kept (c : Core) : (sendMirror c).kept = c.kept :=
  kept_foldl (fun _ _ => by simp) _ c

@[simp] theorem endReturns_kept (c : Core) : (endReturns c).kept = c.kept := by
  unfold endReturns
  split
  · rfl
  · exact (kept_foldl (fun _ _ => by simp) _ _).trans (kept_foldl (fun _ _ => updPlb_kept _ _ _) _ c)

@[simp] theorem followAudit_kept (c : Core) (bad : List Nat) : (followAudit c bad).kept = c.kept := by
  simp [followAudit]

/-! ### Plinth -/

@[simp] theorem drive_kept (c : Core) (p slot : Nat) (f : Frame) : (drive c p slot f).kept = c.kept := (rfl)

@[simp] theorem deliver_kept (c : Core) (p : Nat) (m : PlbMsg) : (deliver c p m).kept = c.kept := by
  unfold deliver
  repeat' split
  all_goals rfl

@[simp] theorem undelivered_kept (c : Core) (p : Nat) (m : PlbMsg) : (undelivered c p m).kept = c.kept := by
  simp [undelivered]

@[simp] theorem makeAbsent_kept (c : Core) (p a : Nat) : (makeAbsent c p a).kept = c.kept := by
  simp [makeAbsent]

@[simp] theorem replaceSupply_kept (c : Core) (a : Nat) : (replaceSupply c a).kept = c.kept := by
  unfold replaceSupply
  dsimp only
  repeat' split
  all_goals simp

@[simp] theorem putRequest_kept (c : Core) (a : Nat) (k : Column) (tokens : Nat) (seq : Byte) :
    (putRequest c a k tokens seq).kept = c.kept := by
  unfold putRequest
  repeat' split
  all_goals simp

@[simp] theorem takeRequest_kept (c : Core) (a : Nat) (k : Column) (f : Frame) : (takeRequest c a k f).kept = c.kept := by
  simp [takeRequest]

@[simp] theorem sendOrderAck_kept (c : Core) (p a idx slot result : Nat) (seq : Byte) :
    (sendOrderAck c p a idx slot result seq).kept = c.kept := (rfl)

@[simp] theorem shedPort_kept (before c : Core) (p : Nat) : (shedPort before c p).kept = c.kept := by
  simp [shedPort]

@[simp] theorem shedTick_kept (before c : Core) : (shedTick before c).kept = c.kept :=
  kept_foldl (fun _ _ => by simp) _ _

/-! ### Twin -/

@[simp] theorem sendIdent_kept (c : Core) : (sendIdent c).kept = c.kept := by
  simp [sendIdent]

@[simp] theorem sendControl_kept (c : Core) (command tick : Nat) : (sendControl c command tick).kept = c.kept := by
  simp [sendControl]

@[simp] theorem sendOrders_kept (c : Core) : (sendOrders c).kept = c.kept := by
  simp [sendOrders]

@[simp] theorem sendPolicy_kept (c : Core) : (sendPolicy c).kept = c.kept := by
  simp [sendPolicy]

@[simp] theorem sendHeartbeat_kept (c : Core) : (sendHeartbeat c).kept = c.kept := by
  simp [sendHeartbeat]

theorem receive_goes {b : Bool} {k : Kept} {c : Core} (h : LinkHdr) (type : Nat) {act : Core → Core} (hc : Goes b k c.kept)
    (ha : ∀ d : Core, Goes b k d.kept → Goes b k (act d).kept) : Goes b k (receive c h type act).kept := by
  unfold receive
  split
  · exact hc
  · dsimp only
    split
    · simpa using hc
    · exact ha _ hc

@[simp] theorem attachRoles_kept (c : Core) (m : IdentMsg) : (attachRoles c m).kept = c.kept := (rfl)

@[simp] theorem rampBegin_kept (c : Core) : (rampBegin c).kept = c.kept := by
  simp [rampBegin]

@[simp] theorem adoptMerged_kept (c : Core) : (adoptMerged c).kept = c.kept := (rfl)

@[simp] theorem takeVault_kept (c : Core) : (takeVault c).kept = c.kept := by
  simp [takeVault]

@[simp] theorem promote_kept (c : Core) : (promote c).kept = c.kept := by
  simp [promote]

@[simp] theorem survive_kept (c : Core) : (survive c).kept = c.kept := (rfl)

@[simp] theorem shareStep_kept (c : Core) (h : HeartbeatMsg) : (shareStep c h).kept = c.kept := by
  simp [shareStep]

@[simp] theorem fenceBegin_kept (c : Core) : (fenceBegin c).kept = c.kept := by
  simp [fenceBegin]

@[simp] theorem becomeFenced_kept (c : Core) : (becomeFenced c).kept = c.kept := by
  simp [becomeFenced]

@[simp] theorem twinNet_kept (c : Core) (m : LedgerMsg) : (twinNet c m).kept = c.kept := by
  simp [twinNet]

@[simp] theorem applyMirror_kept (c : Core) (a : Nat) (r : MirrorRec) : (applyMirror c a r).kept = c.kept := by
  simp [applyMirror]

@[simp] theorem applyMirrors_kept (rs : List MirrorRec) : ∀ (c : Core) (a : Nat), (applyMirrors c a rs).kept = c.kept := by
  induction rs with
  | nil => exact fun _ _ => rfl
  | cons r rs ih => exact fun c a => (ih _ _).trans (by simp)

@[simp] theorem twinApply_kept (c : Core) : (twinApply c).kept = c.kept := by
  unfold twinApply
  dsimp only
  repeat' split
  all_goals simp

@[simp] theorem handoverBegin_kept (c : Core) : (handoverBegin c).kept = c.kept := by
  simp [handoverBegin]

@[simp] theorem detachSend_kept (c : Core) (own : Bool) : (detachSend c own).kept = c.kept := by
  simp [detachSend]

@[simp] theorem detachBegin_kept (c : Core) (own : Bool) : (detachBegin c own).kept = c.kept := by
  simp [detachBegin]

@[simp] theorem reattachBegin_kept (c : Core) : (reattachBegin c).kept = c.kept := by
  simp [reattachBegin]

@[simp] theorem detachRamp_kept (c : Core) : (detachRamp c).kept = c.kept := (rfl)

@[simp] theorem detachDone_kept (c : Core) : (detachDone c).kept = c.kept := by
  simp [detachDone]

@[simp] theorem rampWeight_kept (c : Core) : (rampWeight c).kept = c.kept := by
  simp [rampWeight]

/-! ### Orders -/

@[simp] theorem updSlot_kept (c : Core) (k : Nat) (f : SlotG → SlotG) : (updSlot c k f).kept = c.kept := (rfl)

@[simp] theorem formMerged_kept (c : Core) : (formMerged c).kept = c.kept := by
  simp [formMerged]

@[simp] theorem supervisorGone_kept (c : Core) : (supervisorGone c).kept = c.kept := by
  simp [supervisorGone]

@[simp] theorem clearSupervisor_kept (c : Core) : (clearSupervisor c).kept = c.kept := (rfl)

@[simp] theorem report_kept (c : Core) (a : Arrived) (r : OrdRes) : (report c a r).kept = c.kept := by
  unfold report
  repeat' split
  all_goals simp

@[simp] theorem ownerHandover_kept (c : Core) : (ownerHandover c).kept = c.kept := by
  simp [ownerHandover]

@[simp] theorem exportOrderStep_kept (c : Core) : (exportOrderStep c).kept = c.kept := by
  simp [exportOrderStep]

/-! ### Records -/

@[simp] theorem updSector_kept (c : Core) (i : Nat) (f : LogSector → LogSector) : (updSector c i f).kept = c.kept := (rfl)

@[simp] theorem freshRecord_kept (c : Core) (t : RecType) : (freshRecord c t).kept = c.kept := by
  simp [freshRecord]

@[simp] theorem dropRecord_kept (c : Core) : (dropRecord c).kept = c.kept := (rfl)

@[simp] theorem logBegin_kept (n : Nat) : ∀ c : Core, (logBegin n c).kept = c.kept := by
  induction n with
  | zero => exact fun _ => rfl
  | succ n ih =>
    intro c
    unfold logBegin
    split
    · rfl
    · exact (ih _).trans (dropRecord_kept c)
    · exact freshRecord_kept c _
    · rfl

@[simp] theorem nvmKick_kept (c : Core) : (nvmKick c).kept = c.kept := by
  unfold nvmKick
  split
  · rfl
  · dsimp only
    generalize hd : (if inRun c = true then logBegin (c.own.q.length + 1) c else c) = d
    have hk : d.kept = c.kept := by
      rw [← hd]
      simp
    repeat' split
    all_goals exact hk

@[simp] theorem markStart_kept (c : Core) : (markStart c).kept = c.kept := (rfl)

@[simp] theorem scanFresh_kept (c : Core) : (scanFresh c).kept = c.kept := (rfl)

@[simp] theorem scanRef_kept (c : Core) : (scanRef c).kept = c.kept := (rfl)

@[simp] theorem scanFound_kept (c : Core) (h : Nat) : (scanFound c h).kept = c.kept := (rfl)

@[simp] theorem recordDone_kept (c : Core) (r : QRec) : (recordDone c r).kept = c.kept := by
  unfold recordDone
  split <;> simp

@[simp] theorem recordWritten_kept (c : Core) : (recordWritten c).kept = c.kept := by
  unfold recordWritten
  split <;> simp

@[simp] theorem countErase_kept (c : Core) : (countErase c).kept = c.kept := (rfl)

@[simp] theorem sectorOpened_kept (c : Core) (i : Nat) : (sectorOpened c i).kept = c.kept := (rfl)

@[simp] theorem nvmDone_kept (c : Core) (o : NvmOp) : (nvmDone c o).kept = c.kept := by
  unfold nvmDone
  split <;> simp

@[simp] theorem handoverFuse_kept (c : Core) : (handoverFuse c).kept = c.kept := by
  simp [handoverFuse]

@[simp] theorem handoverKey_kept (c : Core) : (handoverKey c).kept = c.kept := by
  simp [handoverKey]

@[simp] theorem endPass_kept (c : Core) (r : Nat) (digest : Option (BitVec 256)) : (endPass c r digest).kept = c.kept := (rfl)

@[simp] theorem provisioned_kept (c : Core) (ok : Bool) : (provisioned c ok).kept = c.kept := by
  unfold provisioned
  split <;> simp

/-! ### Thermal -/

@[simp] theorem updSensor_kept (c : Core) (i : Nat) (f : SensorG → SensorG) : (updSensor c i f).kept = c.kept := (rfl)

@[simp] theorem packBandStep_kept (c : Core) : (packBandStep c).kept = c.kept := by
  simp [packBandStep]

@[simp] theorem bandsAfter_kept (c : Core) (role : Nat) : (bandsAfter c role).kept = c.kept := by
  unfold bandsAfter
  split <;> simp

@[simp] theorem rateStep_kept (c : Core) (i : Nat) (t : Int) : (rateStep c i t).kept = c.kept := by
  simp [rateStep]

@[simp] theorem twinThermal_kept (c : Core) (m : Option TwinTherm) : (twinThermal c m).kept = c.kept := by
  unfold twinThermal
  split <;> simp

@[simp] theorem gatesFree_kept (c : Core) : (gatesFree c).kept = c.kept := by
  simp [gatesFree]

@[simp] theorem stageRestart_kept (c : Core) : (stageRestart c).kept = c.kept := by
  simp [stageRestart]

@[simp] theorem kilnCount_kept (c : Core) : (kilnCount c).kept = c.kept := by
  simp [kilnCount]

@[simp] theorem applyBands_kept (c : Core) : (applyBands c).kept = c.kept := (rfl)

/-! ### Faults -/

@[simp] theorem addTransient_kept (c : Core) (code : BitVec 16) (inst : BitVec 8) (sec : Nat) :
    (addTransient c code inst sec).1.kept = c.kept := (rfl)

@[simp] theorem probeEffect_kept (c : Core) (code : BitVec 16) (inst : BitVec 8) :
    (probeEffect c code inst).kept = c.kept := by
  unfold probeEffect
  repeat' split
  all_goals simp

@[simp] theorem phaseReturn_kept (c : Core) (n : Nat) : (phaseReturn c n).kept = c.kept := by
  simp [phaseReturn]

@[simp] theorem isolatePhase_kept (c : Core) (n : Nat) : (isolatePhase c n).kept = c.kept := by
  simp [isolatePhase]

@[simp] theorem isolateInput_kept (c : Core) (n : Nat) : (isolateInput c n).kept = c.kept := (rfl)

@[simp] theorem sensorReturn_kept (c : Core) (n : Nat) : (sensorReturn c n).kept = c.kept := (rfl)

@[simp] theorem channelReturn_kept (c : Core) (k : Nat) : (channelReturn c k).kept = c.kept := by
  simp [channelReturn]

@[simp] theorem portReturn_kept (c : Core) (n : Nat) : (portReturn c n).kept = c.kept := by
  simp [portReturn]

@[simp] theorem rotTransient_kept (c : Core) (x : Nat × BitVec 8) : (rotTransient c x).kept = c.kept := by
  unfold rotTransient
  split <;> simp

@[simp] theorem rotLasting_kept (c : Core) (x : Nat × BitVec 8) : (rotLasting c x).kept = c.kept := by
  unfold rotLasting
  split <;> simp

@[simp] theorem transientAct_kept (c : Core) (code : BitVec 16) (inst : BitVec 8) : (transientAct c code inst).kept = c.kept := by
  unfold transientAct
  dsimp only
  split
  all_goals simp [kept_foldl]

@[simp] theorem vaultLost_kept (c : Core) : (vaultLost c).kept = c.kept := by
  unfold vaultLost
  split
  · simp
  · exact kept_foldl (fun _ _ => by simp) _ _

@[simp] theorem closureProbe_kept (c : Core) (ch : Nat) (pass : Bool) (sec : Nat) (st : ProbeSt) :
    (closureProbe c ch pass sec st).kept = c.kept := by
  unfold closureProbe
  dsimp only
  repeat' split
  all_goals rfl

@[simp] theorem dequeue_kept (c : Core) (code : BitVec 16) (inst : BitVec 8) : (dequeue c code inst).kept = c.kept := (rfl)

@[simp] theorem rotationRun_kept (c : Core) (item : Fin 10) (inst : BitVec 8) :
    (rotationRun c item inst).kept = c.kept := (rfl)

@[simp] theorem rotationEffect_kept (c : Core) (item : Nat) (inst : BitVec 8) :
    (rotationEffect c item inst).kept = c.kept := by
  unfold rotationEffect
  split <;> simp

/-! ### Window -/

@[simp] theorem holdWrite_kept (s : State) (w : WinWrite) : (holdWrite s w).core.kept = s.core.kept := by
  unfold holdWrite
  split <;> simp

@[simp] theorem takePending_kept (s : State) (op : Byte) (h : WinHead) (f : WinFrame) :
    (takePending s op h f).core.kept = s.core.kept := by
  unfold takePending
  dsimp only
  split <;> simp

@[simp] theorem transactOpen_kept (f : WinFrame) (s : State) : (transactOpen f s).core.kept = s.core.kept := by
  unfold transactOpen
  repeat' split
  all_goals simp

@[simp] theorem transactBoot_kept (f : WinFrame) (s : State) : (transactBoot f s).core.kept = s.core.kept := by
  unfold transactBoot
  repeat' split
  all_goals rfl

@[simp] theorem ackNew_kept (c : Core) (mask : Nat) (image : BitVec 64) : (ackNew c mask image).kept = c.kept := (rfl)

@[simp] theorem ackWord_kept (c : Core) (a : Nat) (v : BitVec 32) (image : BitVec 64) :
    (ackWord c a v image).kept = c.kept := by
  unfold ackWord
  split <;> simp

/-! ### Grid -/

@[simp] theorem queueEvent_kept (c : Core) (k : EventKind) : (queueEvent c k).kept = c.kept := by
  simp [queueEvent]

@[simp] theorem eventStep_kept (c : Core) : (eventStep c).kept = c.kept := by
  simp [eventStep, kept_foldl]

@[simp] theorem endTick_kept (s : State) : (endTick s).core.kept = s.core.kept := by
  unfold endTick
  split <;> simp

@[simp] theorem shadow_kept (pc : BitVec 32) (c : Core) : (shadow pc c).kept = c.kept := (rfl)

@[simp] theorem hourTick_kept (c : Core) : (hourTick c).kept = c.kept := (rfl)

@[simp] theorem clearSent_kept (c : Core) : (clearSent c).kept = c.kept := (rfl)

@[simp] theorem twinFrames_kept (c : Core) : (twinFrames c).kept = c.kept := by
  simp [twinFrames]

@[simp] theorem entryStep_kept (c : Core) : (entryStep c).kept = c.kept := (rfl)

@[simp] theorem safeSoft_kept (c : Core) : (safeSoft c).kept = c.kept := by
  simp [safeSoft]

/-! ### Lifecycle -/

@[simp] theorem bootLasting_kept (c : Core) (code : BitVec 16) (inst : BitVec 8) :
    (bootLasting c code inst).kept = c.kept := by
  simp [bootLasting]

@[simp] theorem latchAtRun_kept (b : BootRead) (c : Core) (x : BitVec 16 × BitVec 8) : (latchAtRun b c x).kept = c.kept := by
  unfold latchAtRun
  dsimp only
  rw [latchRecord_kept]
  split
  · split <;> simp
  · simp

@[simp] theorem watchdogAtRun_kept (c : Core) : (watchdogAtRun c).kept = c.kept := by
  simp [watchdogAtRun]

@[simp] theorem burnsAtRun_kept (c : Core) : (burnsAtRun c).kept = c.kept := (rfl)

@[simp] theorem recordsAtRun_kept (c : Core) : (recordsAtRun c).kept = c.kept := by
  simp [recordsAtRun]

@[simp] theorem keyStarting_kept (c : Core) (key : BitVec 16) (us : Nat) : (keyStarting c key us).kept = c.kept := by
  unfold keyStarting
  split <;> simp

@[simp] theorem dormantNotice_kept (c : Core) : (dormantNotice c).kept = c.kept := (rfl)

end Sys2Proof.Machine
end


section
/-! PROOFS. What the ledger, the balancing and the audit count, and the faults that stand: the functions that run in a merge tick, a
close and an audit and that move none of it, block by block in the order of the model. -/

namespace Sys2Proof.Machine

/-- An active latch of the code and place that no restart of the stage ends (R289). -/
def Latch.stands (x : Latch) (code : BitVec 16) (inst : BitVec 8) : Prop :=
  x.code = code ∧ x.inst = inst ∧ x.active = true ∧ x.probe ≠ .transient

/-- A latch of the code and place stands, or the table has overflowed. -/
def FltG.struck (f : FltG) (code : BitVec 16) (inst : BitVec 8) : Prop :=
  (∃ (i : Nat) (h : i < 64) (x : Latch), f.l[i] = some x ∧ x.stands code inst) ∨ f.ovfNew = true ∨ f.ovf = true

/-- What the ledger, the balancing and the audit count, and the faults that stand: of the functions that a merge tick, a close
and an audit run, few move any of it. -/
structure Tally where
  ch : Vector LdgChan 8
  closeNo : BitVec 32
  balSw : BitVec 16
  started : Bool
  auditNo : BitVec 16
  pass : Bool
  failed : Nat
  noRaise : Nat
  role : Role
  struck : BitVec 16 → BitVec 8 → Prop

def Core.tally (c : Core) : Tally :=
  ⟨c.ldg.ch, c.ldg.closeNo, c.cel.balSw, c.cel.started, c.vlt.auditNo, c.vlt.pass, c.vlt.failed, c.vlt.noRaise,
    c.twn.role, c.flt.struck⟩

@[simp ↓] theorem tally_mk (life : LifeG) (pins otp nvm mq mqs path chg cel ldg gdr loop thm lsw pd plb vlt twn wdg flt own ord
    meas outs free) : Core.tally ⟨life, pins, otp, nvm, mq, mqs, path, chg, cel, ldg, gdr, loop, thm, lsw, pd, plb, vlt, twn,
      wdg, flt, own, ord, meas, outs, free⟩ =
    ⟨ldg.ch, ldg.closeNo, cel.balSw, cel.started, vlt.auditNo, vlt.pass, vlt.failed, vlt.noRaise, twn.role,
      flt.struck⟩ := (rfl)

@[simp] theorem mk_tally (c : Core) : Tally.mk c.ldg.ch c.ldg.closeNo c.cel.balSw c.cel.started c.vlt.auditNo c.vlt.pass
    c.vlt.failed c.vlt.noRaise c.twn.role c.flt.struck = c.tally := (rfl)

/-- The tally without the faults that stand. -/
def Tally.counts (t : Tally) : Tally := { t with struck := fun _ _ => False }

@[simp] theorem counts_mk (ch closeNo balSw started auditNo pass failed noRaise role struck) : Tally.counts ⟨ch, closeNo, balSw,
    started, auditNo, pass, failed, noRaise, role, struck⟩ =
      ⟨ch, closeNo, balSw, started, auditNo, pass, failed, noRaise, role, fun _ _ => False⟩ := (rfl)

@[simp] theorem mk_counts (c : Core) : Tally.mk c.ldg.ch c.ldg.closeNo c.cel.balSw c.cel.started c.vlt.auditNo c.vlt.pass
    c.vlt.failed c.vlt.noRaise c.twn.role (fun _ _ => False) = c.tally.counts := (rfl)

@[simp ↓] theorem tally_ite (p : Prop) [Decidable p] (c d : Core) :
    (if p then c else d).tally = if p then c.tally else d.tally := apply_ite _ _ _ _

theorem tally_foldl {α : Type} {f : Core → α → Core} (h : ∀ c x, (f c x).tally = c.tally) (l : List α) (c : Core) :
    (l.foldl f c).tally = c.tally := by
  induction l generalizing c with
  | nil => rfl
  | cons x l ih => exact (ih _).trans (h c x)

theorem latched_of_struck {c : Core} {code : BitVec 16} {inst : BitVec 8} (h : c.flt.struck code inst) :
    latched c code inst := by
  rcases h with ⟨i, hi, x, hx, hcode, hinst, hact, -⟩ | h
  · exact .inl (faultActive_of_getElem code inst i hi x hx hcode hinst hact)
  · exact .inr h

theorem struck_of_tally {c d : Core} {code : BitVec 16} {inst : BitVec 8} (h : d.tally = c.tally)
    (hs : c.flt.struck code inst) : d.flt.struck code inst :=
  (congrFun (congrFun (congrArg Tally.struck h) code) inst).mpr hs

/-! ### Reactions -/

@[simp] theorem updPd_tally (c : Core) (p : PdId) (f : PdG → PdG) : (updPd c p f).tally = c.tally := (rfl)

@[simp] theorem updPlb_tally (c : Core) (p : Nat) (f : PlbPort → PlbPort) : (updPlb c p f).tally = c.tally := (rfl)

@[simp] theorem updAcct_tally (c : Core) (a : Nat) (f : AcctRec → AcctRec) : (updAcct c a f).tally = c.tally := (rfl)

@[simp] theorem book_tally (c : Core) (a : Nat) (k : Column) (f : ColRec → ColRec) : (book c a k f).tally = c.tally := by
  cases k <;> rfl

theorem setTot_tally (c : Core) (k : Column) (x : ColTot) : Core.tally { c with vlt := c.vlt.setTot k x } = c.tally := by
  cases k <;> rfl

@[simp] theorem bookAll_tally (c : Core) (as : List Nat) (k : Column) (f : ColRec → ColRec) :
    (bookAll c as k f).tally = c.tally := by
  simp [bookAll, tally_foldl]

@[simp] theorem queueRec_tally (c : Core) (r : QRec) : (queueRec c r).tally = c.tally := by
  simp [queueRec]

@[simp] theorem queueFree_tally (c : Core) (t : RecType) (info : RecInfo) : (queueFree c t info).tally = c.tally := by
  simp [queueFree]

@[simp] theorem queueValues_tally (c : Core) (k : Checkpoint) (periodic nextEpoch : Bool) :
    (queueValues c k periodic nextEpoch).tally = c.tally := by
  simp [queueValues]

@[simp] theorem queueCheckpoint_tally (c : Core) (periodic nextEpoch : Bool) :
    (queueCheckpoint c periodic nextEpoch).tally = c.tally := by
  simp [queueCheckpoint]

@[simp] theorem queueLastClose_tally (c : Core) : (queueLastClose c).tally = c.tally := by
  simp [queueLastClose]

@[simp] theorem queuePatina_tally (c : Core) : (queuePatina c).tally = c.tally := by
  simp [queuePatina]

@[simp] theorem chiselAll_tally (c : Core) (cause ph : Nat) : (chiselAll c cause ph).tally = c.tally := (rfl)

@[simp] theorem chiselPhase_tally (c : Core) (n cause : Nat) : (chiselPhase c n cause).tally = c.tally := (rfl)

@[simp] theorem noteChisel_tally (before : GdrG) (c : Core) (code : BitVec 16) :
    (noteChisel before c code).tally = c.tally := by
  simp [noteChisel]

/-- What stands is no transient error, and a restart of the stage leaves it. -/
@[simp] theorem endTransientA_tally (c : Core) : (endTransientA c).tally = c.tally := by
  have hstruck : (endTransientA c).flt.struck = c.flt.struck := by
    funext code inst
    refine propext (or_congr_left ⟨?_, ?_⟩)
    · rintro ⟨i, hi, y, hy, hcode, hinst, hact, hprobe⟩
      simp only [endTransientA, getElem_vmap, Option.map_eq_some_iff] at hy
      obtain ⟨x, hx, hxy⟩ := hy
      split at hxy
      · simp [← hxy] at hact
      · exact ⟨i, hi, y, hxy ▸ hx, hcode, hinst, hact, hprobe⟩
    · rintro ⟨i, hi, x, hx, hcode, hinst, hact, hprobe⟩
      refine ⟨i, hi, x, ?_, hcode, hinst, hact, hprobe⟩
      simp [endTransientA, hx, hprobe]
  simp only [Core.tally, hstruck]
  rfl

@[simp] theorem clearLoops_tally (c : Core) : (clearLoops c).tally = c.tally := (rfl)

@[simp] theorem loopRestart_tally (c : Core) : (loopRestart c).tally = c.tally := (rfl)

@[simp] theorem takeDirection_tally (c : Core) : (takeDirection c).tally = c.tally := by
  simp [takeDirection]

@[simp] theorem prechargeBegin_tally (c : Core) (sel : Nat → Bool) (full : Bool) :
    (prechargeBegin c sel full).tally = c.tally := (rfl)

@[simp] theorem stageStart_tally (c : Core) (full : Bool) : (stageStart c full).tally = c.tally := by
  simp [stageStart]

@[simp] theorem stagePark_tally (c : Core) : (stagePark c).tally = c.tally := by
  unfold stagePark
  repeat' split
  all_goals rfl

@[simp] theorem calibrateNext_tally (c : Core) : (calibrateNext c).tally = c.tally := by
  unfold calibrateNext
  repeat' split
  all_goals rfl

@[simp] theorem stageUnpark_tally (c : Core) : (stageUnpark c).tally = c.tally := by
  unfold stageUnpark
  repeat' split
  all_goals simp

@[simp] theorem setPair_tally (c : Core) (i : Inp) (b : Bool) : (setPair c i b).tally = c.tally := (rfl)

@[simp] theorem pairOff_tally (c : Core) (i : Inp) : (pairOff c i).tally = c.tally := by
  simp [pairOff]

@[simp] theorem batfetFull_tally (c : Core) : (batfetFull c).tally = c.tally := by
  simp [batfetFull]

@[simp] theorem pdSend_tally (c : Core) (p : PdId) (m : PdMsg) : (pdSend c p m).tally = c.tally := (rfl)

@[simp] theorem dropMedium_tally (c : Core) : (dropMedium c).tally = c.tally := by
  simp [dropMedium]

@[simp] theorem altExit_tally (c : Core) (p : PdId) : (altExit c p).tally = c.tally := by
  simp [altExit]

@[simp] theorem dropAsk_tally (c : Core) (p : PdId) : (dropAsk c p).tally = c.tally := (rfl)

@[simp] theorem pdExportEnd_tally (c : Core) (p : PdId) : (pdExportEnd c p).tally = c.tally := by
  simp [pdExportEnd]

@[simp] theorem exportEnd_tally (c : Core) (hr : Bool) : (exportEnd c hr).tally = c.tally := by
  cases he : c.path.export_ with
  | none => simp [exportEnd, he]
  | some e =>
    have hend : ∀ d : Core, (book (stagePark (pairOff c e.port.inp)) e.port.acct .supply ColRec.release).tally = d.tally →
        c.tally = d.tally := fun d hd => by simpa using hd
    refine Eq.symm (hend _ ?_)
    simp only [exportEnd, he]
    split
    · split
      · rw [pdExportEnd_tally]
        rfl
      · rfl
    · rfl

@[simp] theorem setBurst_tally (c : Core) (a : Nat) (b : Option Burst) : (setBurst c a b).tally = c.tally := (rfl)

@[simp] theorem endBursts_tally (c : Core) (sel : Nat → Bool) : (endBursts c sel).tally = c.tally := (rfl)

@[simp] theorem shedBursts_tally (c : Core) : (shedBursts c).tally = c.tally := (rfl)

@[simp] theorem resetCause_tally (c : Core) (kind : ResetKind) (bit : Nat) (code : BitVec 16) :
    (resetCause c kind bit code).tally = c.tally := by
  simp [resetCause]

@[simp] theorem latchRecord_tally (c : Core) (code : BitVec 16) (inst : BitVec 8) :
    (latchRecord c code inst).tally = c.tally := by
  obtain ⟨o, n, q, h⟩ := latchRecord_eq c code inst
  rw [h]
  rfl

@[simp] theorem raisedC_tally (c : Core) (code : BitVec 16) (row cls : FCls) : (raisedC c code row cls).tally = c.tally := by
  simp [raisedC]

@[simp] theorem noteInst_tally (before c : Core) (inst : BitVec 8) : (noteInst before c inst).tally = c.tally := by
  unfold noteInst
  split <;> rfl

@[simp] theorem exportFault_tally (c : Core) (code : BitVec 16) : (exportFault c code).tally = c.tally := by
  simp [exportFault]

@[simp] theorem attend_tally (c : Core) (bit : Nat) : (attend c bit).tally = c.tally := (rfl)

/-! ### Flags -/

@[simp] theorem selectAccount_tally (c : Core) : (selectAccount c).tally = c.tally := by
  unfold selectAccount
  split <;> simp

@[simp] theorem settle_tally (c : Core) : (settle c).tally = c.tally := by
  have hsettle : ∀ d : Core, d.tally = c.tally → Core.tally { d with flt := { d.flt with
      ovf := d.flt.ovf || d.flt.ovfNew, ovfNew := false } } = c.tally := by
    intro d hd
    have hstruck : FltG.struck { d.flt with ovf := d.flt.ovf || d.flt.ovfNew, ovfNew := false } = d.flt.struck := by
      funext code inst
      simp [FltG.struck, or_comm]
    rw [← hd]
    simp only [Core.tally, hstruck]
  unfold settle
  dsimp only
  split
  · exact hsettle (attend (selectAccount c) 5) (by simp)
  · exact hsettle (selectAccount c) (by simp)

/-! ### Limits -/

@[simp] theorem twSend_tally (c : Core) (type : Nat) (data : List Int) : (twSend c type data).tally = c.tally := by
  simp [twSend]

/-! ### Ledger -/

@[simp] theorem modeBook_tally (c : Core) : (modeBook c).tally = c.tally := (rfl)

@[simp] theorem socUpdate_tally (c : Core) : (socUpdate c).tally = c.tally := (rfl)

@[simp] theorem setRef_tally (c : Core) (q : Int) (coarse : Bool) : (setRef c q coarse).tally = c.tally := (rfl)

@[simp] theorem ocvStep_tally (c : Core) : (ocvStep c).tally = c.tally := by
  simp [ocvStep]

@[simp] theorem entryRecords_tally (c : Core) : (entryRecords c).tally = c.tally := by
  unfold entryRecords
  split <;> simp

@[simp] theorem closeDormant_tally (c : Core) : (closeDormant c).tally = c.tally := (rfl)

@[simp] theorem dormantRecord_tally (c : Core) : (dormantRecord c).tally = c.tally := by
  simp [dormantRecord]

@[simp] theorem noteClose_tally (c : Core) : (noteClose c).tally = c.tally := (rfl)

@[simp] theorem closingClose_tally (c : Core) : (closingClose c).tally = c.tally := by
  simp [closingClose]

@[simp] theorem closeFrames_tally (c : Core) (net : List Int) : (closeFrames c net).tally = c.tally := by
  simp [closeFrames]

/-! ### Charger -/

@[simp] theorem enterPhase_tally (c : Core) (p : ChgPhase) : (enterPhase c p).tally = c.tally := (rfl)

/-! ### Path -/

@[simp] theorem incomingOn_tally (c : Core) (x : Xfer) : (incomingOn c x).tally = c.tally := by
  simp [incomingOn]

@[simp] theorem beginTurnOn_tally (c : Core) (i : Inp) : (beginTurnOn c i).tally = c.tally := by
  simp [beginTurnOn]

@[simp] theorem beginTransfer_tally (c : Core) (out inc : Inp) (loss : Bool) :
    (beginTransfer c out inc loss).tally = c.tally := by
  simp [beginTransfer]

@[simp] theorem noInput_tally (c : Core) (i : Inp) : (noInput c i).tally = c.tally := by
  simp [noInput]

@[simp] theorem selectInput_tally (c : Core) : (selectInput c).tally = c.tally := by
  unfold selectInput
  repeat' split
  all_goals simp

@[simp] theorem setDirection_tally (c : Core) (rev : Bool) : (setDirection c rev).tally = c.tally := by
  simp [setDirection]

@[simp] theorem exportReverse_tally (c : Core) : (exportReverse c).tally = c.tally := by
  unfold exportReverse
  split <;> simp

@[simp] theorem exportBegin_tally (c : Core) (e : Export) : (exportBegin c e).tally = c.tally := by
  unfold exportBegin
  repeat' split
  all_goals simp

@[simp] theorem exportWaiting_tally (c : Core) : (exportWaiting c).tally = c.tally := by
  unfold exportWaiting
  split <;> simp

@[simp] theorem inputLost_tally (c : Core) (i : Inp) : (inputLost c i).tally = c.tally := by
  unfold inputLost
  dsimp only
  split <;> simp

/-! ### Tokens -/

@[simp] theorem queueMsg_tally (c : Core) (p : Nat) (m : PlbMsg) : (queueMsg c p m).tally = c.tally := (rfl)

@[simp] theorem sendDefer_tally (c : Core) (a : Nat) (seq : Byte) (reason : Nat) :
    (sendDefer c a seq reason).tally = c.tally := (rfl)

@[simp] theorem sendDenied_tally (c : Core) (a : Nat) (seq : Byte) (eMax : Nat) :
    (sendDenied c a seq eMax).tally = c.tally := (rfl)

@[simp] theorem sendThrottle_tally (c : Core) (a level : Nat) : (sendThrottle c a level).tally = c.tally := (rfl)

@[simp] theorem withdrawGrant_tally (c : Core) (a : Nat) (k : Column) : (withdrawGrant c a k).tally = c.tally := by
  simp [withdrawGrant]

@[simp] theorem grantLevel_tally (c : Core) (a : Nat) (k : Column) (target : Nat) (seq : Byte) :
    (grantLevel c a k target seq).tally = c.tally := by
  simp [grantLevel]

@[simp] theorem exportStop_tally (c : Core) (a : Nat) (hr : Bool) : (exportStop c a hr).tally = c.tally := by
  unfold exportStop
  repeat' split
  all_goals simp

@[simp] theorem recallTo_tally (c : Core) (a : Nat) (k : Column) (target : Nat) : (recallTo c a k target).tally = c.tally := by
  unfold recallTo
  repeat' split
  all_goals simp

@[simp] theorem lowerAll_tally (c : Core) (as : List Nat) : (lowerAll c as).tally = c.tally := by
  simp [lowerAll, tally_foldl]

@[simp] theorem recallPort_tally (c : Core) (p : Nat) : (recallPort c p).tally = c.tally := by
  simp [recallPort]

/-! ### Pd -/

@[simp] theorem sinkLost_tally (c : Core) (p : PdId) : (sinkLost c p).tally = c.tally := by
  simp [sinkLost]

@[simp] theorem pdLeave_tally (c : Core) (p : PdId) (att : Attach) : (pdLeave c p att).tally = c.tally := by
  simp [pdLeave]

@[simp] theorem errorRecovery_tally (c : Core) (p : PdId) : (errorRecovery c p).tally = c.tally := by
  simp [errorRecovery]

@[simp] theorem pdBacked_tally (c : Core) (p : PdId) (ok : Bool) : (pdBacked c p ok).tally = c.tally := by
  unfold pdBacked
  dsimp only
  repeat' split
  all_goals simp

/-! ### Vault -/

@[simp] theorem recompute_tally (c : Core) : (recompute c).tally = c.tally := (rfl)

@[simp] theorem throttleStep_tally (c : Core) : (throttleStep c).tally = c.tally := by
  unfold throttleStep
  split
  · rfl
  · simp [tally_foldl]

@[simp] theorem recallTier_tally (c : Core) (k : Column) (tier need : Nat) : (recallTier c k tier need).1.tally = c.tally := by
  unfold recallTier
  split
  · rfl
  · exact tally_foldl (fun _ _ => by simp) _ c

@[simp] theorem recallTiers_tally (k : Column) (ts : List Nat) : ∀ (c : Core) (need : Nat),
    (recallTiers c k ts need).tally = c.tally := by
  induction ts with
  | nil => exact fun _ _ => rfl
  | cons t ts ih => exact fun c need => (ih _ _).trans (recallTier_tally c k t need)

@[simp] theorem recallStep_tally (c : Core) (k : Column) : (recallStep c k).tally = c.tally := by
  unfold recallStep
  dsimp only
  repeat' split
  · exact setTot_tally _ _ _
  · exact setTot_tally _ _ _
  · exact (recallTiers_tally _ _ _ _).trans (setTot_tally _ _ _)

@[simp] theorem marginStep_tally (c : Core) (before : Int) : (marginStep c before).tally = c.tally := by
  simp [marginStep, tally_foldl]

@[simp] theorem serve_tally (c : Core) (k : Column) (fair : List (Nat × Nat)) (capped : Bool) (a : Nat) :
    (serve c k fair capped a).tally = c.tally := by
  unfold serve
  dsimp only
  split <;> simp

@[simp] theorem serveColumn_tally (c : Core) (k : Column) : (serveColumn c k).tally = c.tally := by
  unfold serveColumn
  rw [bookAll_tally, tally_foldl fun _ _ => serve_tally _ _ _ _ _]
  exact setTot_tally _ _ _

@[simp] theorem judgeBurst_tally (c : Core) (a : Nat) : (judgeBurst c a).tally = c.tally := by
  unfold judgeBurst
  dsimp only
  split <;> simp

@[simp] theorem burstStep_tally (c : Core) : (burstStep c).tally = c.tally := by
  simp [burstStep, tally_foldl]

@[simp] theorem releaseSurplus_tally (c : Core) (p : PdId) : (releaseSurplus c p).tally = c.tally := by
  unfold releaseSurplus
  split <;> simp

@[simp] theorem backOne_tally (c : Core) (a n : Nat) : (backOne c a n).tally = c.tally := by
  simp [backOne]

@[simp] theorem backStep_tally (c : Core) : (backStep c).tally = c.tally := by
  simp [backStep, tally_foldl]

@[simp] theorem sendMirror_tally (c : Core) : (sendMirror c).tally = c.tally := by
  simp [sendMirror, tally_foldl]

@[simp] theorem endReturns_tally (c : Core) : (endReturns c).tally = c.tally := by
  simp [endReturns, tally_foldl]

/-! ### Plinth -/

@[simp] theorem sendOrderAck_tally (c : Core) (p a idx slot result : Nat) (seq : Byte) :
    (sendOrderAck c p a idx slot result seq).tally = c.tally := (rfl)

/-! ### Twin -/

@[simp] theorem sendControl_tally (c : Core) (command tick : Nat) : (sendControl c command tick).tally = c.tally := by
  simp [sendControl]

@[simp] theorem handoverBegin_tally (c : Core) : (handoverBegin c).tally = c.tally := by
  simp [handoverBegin]

@[simp] theorem detachSend_tally (c : Core) (own : Bool) : (detachSend c own).tally = c.tally := by
  simp [detachSend]

@[simp] theorem detachBegin_tally (c : Core) (own : Bool) : (detachBegin c own).tally = c.tally := by
  simp [detachBegin]

@[simp] theorem reattachBegin_tally (c : Core) : (reattachBegin c).tally = c.tally := by
  simp [reattachBegin]

/-! ### Orders -/

@[simp] theorem updSlot_tally (c : Core) (k : Nat) (f : SlotG → SlotG) : (updSlot c k f).tally = c.tally := (rfl)

@[simp] theorem formMerged_tally (c : Core) : (formMerged c).tally = c.tally := by
  simp [formMerged]

@[simp] theorem supervisorGone_tally (c : Core) : (supervisorGone c).tally = c.tally := by
  simp [supervisorGone]

@[simp] theorem clearSupervisor_tally (c : Core) : (clearSupervisor c).tally = c.tally := (rfl)

@[simp] theorem report_tally (c : Core) (a : Arrived) (r : OrdRes) : (report c a r).tally = c.tally := by
  unfold report
  repeat' split
  all_goals simp

@[simp] theorem ownerHandover_tally (c : Core) : (ownerHandover c).tally = c.tally := by
  simp [ownerHandover]

/-! ### Thermal -/

@[simp] theorem kilnCount_tally (c : Core) : (kilnCount c).tally = c.tally := by
  simp [kilnCount]

/-! ### Grid -/

@[simp] theorem shadow_tally (pc : BitVec 32) (c : Core) : (shadow pc c).tally = c.tally := (rfl)

@[simp] theorem hourTick_tally (c : Core) : (hourTick c).tally = c.tally := (rfl)

@[simp] theorem entryStep_tally (c : Core) : (entryStep c).tally = c.tally := (rfl)

end Sys2Proof.Machine
end


section
/-! PROOFS. What the write that a merge tick takes leaves as it is (chapter 19). -/

namespace Sys2Proof.Machine

/-! ### What a pending write leaves -/

/-- What no write that a merge tick takes moves of CORE: the lifecycle, the errors whose Probe never ran, and what is counted. -/
def Core.rest (c : Core) : Kept × List (BitVec 16 × BitVec 8) × Tally := (c.kept, c.flt.noProbe, c.tally.counts)

/-- The same of the machine: the waiting commands too, and the place of the pending write. -/
def State.rest (s : State) : (Kept × List (BitVec 16 × BitVec 8) × Tally) × List Instr × Option WinWrite :=
  (s.core.rest, s.pending, s.win.pend)

theorem rest_foldl {α : Type} {f : Core → α → Core} (h : ∀ c x, (f c x).rest = c.rest) (l : List α) (c : Core) :
    (l.foldl f c).rest = c.rest := by
  induction l generalizing c with
  | nil => rfl
  | cons x l ih => exact (ih _).trans (h c x)

section
variable (c : Core) (s : State)

theorem wakeBegin_rest (wd : Bool) : (wakeBegin c wd).rest = c.rest := by
  unfold wakeBegin
  split <;> rfl

theorem refusePort_rest : (refusePort s).rest = s.rest := by
  unfold refusePort
  split
  · have hwake : ({ s with core := wakeBegin s.core false } : State).rest = s.rest :=
      congrArg (·, s.pending, s.win.pend) (wakeBegin_rest s.core false)
    exact hwake
  · rfl

theorem freshRecord_rest (t : RecType) : (freshRecord c t).rest = c.rest := by
  unfold freshRecord
  split <;> rfl

theorem ackWord_rest (a : Nat) (v : BitVec 32) (image : BitVec 64) : (ackWord c a v image).rest = c.rest := by
  unfold ackWord
  split
  · rfl
  · rfl
  · split <;> rfl
  · rfl
  · rfl

end

theorem logBegin_rest (n : Nat) : ∀ c : Core, (logBegin n c).rest = c.rest := by
  induction n with
  | zero => exact fun _ => rfl
  | succ n ih =>
    intro c
    unfold logBegin
    split
    · rfl
    · exact ih (dropRecord c)
    · exact freshRecord_rest c _
    · rfl

theorem nvmKick_rest (c : Core) : (nvmKick c).rest = c.rest := by
  unfold nvmKick
  split
  · rfl
  · dsimp only
    generalize hd : (if inRun c = true then logBegin (c.own.q.length + 1) c else c) = d
    have hrest : d.rest = c.rest := by
      rw [← hd]
      split
      · exact logBegin_rest _ c
      · rfl
    repeat' split
    all_goals exact hrest

/-! Commands that a write carries: each leaves the rest as it is. -/

/-- A command that leaves the rest as it is. -/
def KeepsOn (s : State) (r : Res) : Prop := ∀ t, r = .next t → t.rest = s.rest

section
variable {s : State} {f : Core → Core}

theorem keepsOn_next {t : State} (h : t.rest = s.rest) : KeepsOn s (.next t) := by
  rintro _ ⟨⟩
  exact h

theorem keepsOn_onCore (h : ∀ c : Core, (f c).rest = c.rest) : KeepsOn s (onCore s f) :=
  keepsOn_next (by
    have hkept : (f s.core).kept = s.core.kept := congrArg Prod.fst (h s.core)
    rw [afterReset_of_st_eq (congrArg Kept.st hkept)]
    exact congrArg (·, s.pending, s.win.pend) (h s.core))

theorem keepsOn_onCoreIf {p : Core → Bool} (h : ∀ c : Core, (f c).rest = c.rest) : KeepsOn s (onCoreIf s p f) :=
  keepsOn_onCore fun c => by
    split
    · exact h c
    · rfl

theorem after_rest {r : Res} (h : KeepsOn s r) : (after r s).rest = s.rest := by
  unfold after
  split
  · exact h _ rfl
  · rfl

end

theorem keepsOn_accsel (v : BitVec 32) (s : State) : KeepsOn s (execAccsel v s) := by
  unfold execAccsel
  split
  · exact keepsOn_next (refusePort_rest s)
  · exact keepsOn_onCoreIf fun c => wakeBegin_rest { c with vlt := { c.vlt with dselPend := some (v.toNat % 8192) } } false

theorem keepsOn_decryptCommand (v : BitVec 32) (s : State) : KeepsOn s (execDecryptCommand v s) := by
  unfold execDecryptCommand
  split
  · exact keepsOn_next (refusePort_rest s)
  · exact keepsOn_onCoreIf fun c => by
      dsimp only
      rw [wakeBegin_rest]
      rfl

theorem keepsOn_stagingBegin (len : BitVec 32) (s : State) : KeepsOn s (execStagingBegin len s) := by
  unfold execStagingBegin
  dsimp only
  split
  · exact keepsOn_next (refusePort_rest s)
  · exact keepsOn_next (congrArg (·, s.pending, s.win.pend) (nvmKick_rest _))

theorem keepsOn_stagingData (addr : Nat) (data : List Byte) (s : State) : KeepsOn s (execStagingData addr data s) := by
  unfold execStagingData
  dsimp only
  split
  · exact keepsOn_next (refusePort_rest s)
  · split
    · exact keepsOn_next (congrArg (·, s.pending, s.win.pend) (nvmKick_rest _))
    · exact keepsOn_next rfl

theorem keepsOn_stagingEnd (s : State) : KeepsOn s (execStagingEnd s) := by
  unfold execStagingEnd
  dsimp only
  split
  · exact keepsOn_next (refusePort_rest s)
  · exact keepsOn_onCoreIf fun c => rfl

theorem keepsOn_stagingAbort (s : State) : KeepsOn s (execStagingAbort s) := by
  unfold execStagingAbort
  dsimp only
  split
  · exact keepsOn_next (refusePort_rest s)
  · exact keepsOn_onCoreIf fun c => rfl

theorem keepsOn_provisioningOrder (cmd : BitVec 32) (hashes : Vector (BitVec 256) 4) (s : State) :
    KeepsOn s (execProvisioningOrder cmd hashes s) :=
  keepsOn_onCore fun c => by
    dsimp only
    split
    · rfl
    · split
      · rfl
      · split
        · rw [wakeBegin_rest]
          rfl
        · split <;> rfl

/-! What a merge tick takes of a pending write. -/

theorem stagingWord_rest (s : State) (v : BitVec 32) (arg : Option (BitVec 32)) :
    (stagingWord s v arg).rest = s.rest := by
  unfold stagingWord
  generalize v.toNat % 16 = n
  match n, arg with
  | 1, some len => exact after_rest (keepsOn_stagingBegin len s)
  | 2, none => exact after_rest (keepsOn_stagingEnd s)
  | 3, none => exact after_rest (keepsOn_stagingAbort s)
  | 0, _ | 1, none | 2, some _ | 3, some _ | _ + 4, _ => rfl

theorem stagingChunk_rest (s : State) (l : List (Nat × BitVec 32)) : (stagingChunk s l).rest = s.rest := by
  unfold stagingChunk
  split
  · rfl
  · exact after_rest (keepsOn_stagingData _ _ s)

theorem provisionWrite_rest (s : State) (l : List (Nat × BitVec 32)) :
    (provisionWrite s l).rest = s.rest := by
  unfold provisionWrite
  split
  · split
    · exact after_rest (keepsOn_provisioningOrder _ _ s)
    · rfl
  · rfl

/-- The rest, the orders that arrived left out. -/
def State.restTaken (s : State) : (Kept × List (BitVec 16 × BitVec 8) × Tally) × List Instr × Option WinWrite :=
  ((s.core.kept.taken, s.core.flt.noProbe, s.core.tally.counts), s.pending, s.win.pend)

theorem restTaken_of_rest {s t : State} (h : t.rest = s.rest) : t.restTaken = s.restTaken :=
  congrArg (fun r => ((r.1.1.taken, r.1.2), r.2)) h

theorem orderWord_rest (s : State) (a : Nat) (v : BitVec 32) (arg : Option (BitVec 32)) :
    (orderWord s a v arg).restTaken = s.restTaken := by
  unfold orderWord
  split
  · rfl
  · split
    · rfl
    · exact restTaken_of_rest (after_rest (keepsOn_accsel v s))
    · exact restTaken_of_rest (after_rest (keepsOn_decryptCommand v s))
    · exact restTaken_of_rest (stagingWord_rest s v arg)
    · rfl

theorem orderWords_rest (l : List (Nat × BitVec 32)) : ∀ s : State, (orderWords s l).restTaken = s.restTaken := by
  induction l with
  | nil => exact fun _ => rfl
  | cons x l ih => exact fun s => (ih _).trans (orderWord_rest s _ _ _)

/-- The pending write is taken, and moves nothing of the rest but the orders that arrived. -/
theorem takeWrite_rest (s : State) :
    (takeWrite s).restTaken = ({ s with win := { s.win with pend := none } } : State).restTaken := by
  unfold takeWrite
  split
  · rename_i h
    simp only [State.restTaken, h]
  · dsimp only
    split
    · exact restTaken_of_rest (congrArg (·, s.pending, none) (rest_foldl (fun _ _ => ackWord_rest _ _ _ _) _ _))
    · refine (restTaken_of_rest (provisionWrite_rest _ _)).trans ?_
      split
      · split
        · exact (restTaken_of_rest (stagingChunk_rest _ _)).trans (orderWords_rest _ _)
        · exact orderWords_rest _ _
      · exact orderWords_rest _ _

/-- A pending write moves nothing of what is kept but the orders that arrived. -/
theorem takeWrite_kept (s : State) : (takeWrite s).core.kept.taken = s.core.kept.taken :=
  congrArg (·.1.1) (takeWrite_rest s)

theorem takeWrite_noProbe (s : State) : (takeWrite s).core.flt.noProbe = s.core.flt.noProbe :=
  congrArg (·.1.2.1) (takeWrite_rest s)

theorem takeWrite_counts (s : State) : (takeWrite s).core.tally.counts = s.core.tally.counts :=
  congrArg (·.1.2.2) (takeWrite_rest s)

theorem takeWrite_pending (s : State) : (takeWrite s).pending = s.pending := congrArg (·.2.1) (takeWrite_rest s)

theorem takeWrite_pend (s : State) : (takeWrite s).win.pend = none := congrArg (·.2.2) (takeWrite_rest s)

end Sys2Proof.Machine
end


section
/-! PROOFS. Functions of CORE that may raise a fault keep the lifecycle or take Reset, block by block in the order of the model. -/

namespace Sys2Proof.Machine

section
variable {b : Bool} {k : Kept} {c : Core}

/-- An entry into Reset is a reset; Off knows none, and in Reset it is a further cause. -/
@[simp] theorem resetEntry_goes (kind : ResetKind) (bit : Nat) (code : BitVec 16) (h : Goes true k c.kept) :
    Goes true k (resetEntry c kind bit code).kept := by
  unfold resetEntry
  split
  · exact h
  · simpa using h
  · exact .trans h (.inr ⟨.inl rfl, rfl, rfl⟩)

/-- A code raised to class D where its row is below it is raised by the image in force (R81). -/
theorem raises_of_classInForce {code : BitVec 16} {row : FCls} (hr : row ≠ .d) (hd : classInForce c code row = .d) :
    c.kept.raises := by
  by_contra hn
  refine classInForce_ne_d code (c := c) (fun e he hc => hn ⟨e, he, hc⟩) hr hd

/-- The action of a class is a reset for class D alone. -/
theorem classAction_goes (cls : FCls) (cause ph : Nat) (code : BitVec 16) (hd : cls = .d → b = true ∨ k.raises)
    (h : Goes b k c.kept) : Goes b k (classAction c cls cause ph code).kept := by
  cases cls with
  | a => simpa [classAction] using h
  | b => exact h
  | c => exact h
  | d =>
    have hreset := resetEntry_goes (k := c.kept) .fault 4 code .refl
    rcases h with h | ⟨why, h⟩
    · rcases hreset with hsame | ⟨-, hreset⟩
      · exact .inl (hsame.trans h)
      · exact .inr ⟨hd rfl, hreset⟩
    · rcases hreset with hsame | ⟨-, hreset⟩
      · exact .inr ⟨why, show Kept.isReset (resetEntry c .fault 4 code).kept from hsame ▸ h⟩
      · exact .inr ⟨why, hreset⟩

/-- A fault resets where its row is of class D or the image raises it (Table 11-4). -/
@[simp] theorem faultWith_goes (code : BitVec 16) (inst : BitVec 8) (row : FCls) (p : ProbeSt) (probe : Bool) (cause ph : Nat)
    (h : Goes b k c.kept) (hrow : b = true ∨ row ≠ .d) : Goes b k (faultWith c code inst row p probe cause ph).kept := by
  have hd : classInForce c code row = .d → b = true ∨ k.raises := by
    intro hcls
    rcases hrow with hb | hrow
    · exact .inl hb
    · rcases h with h | ⟨why, -⟩
      · exact .inr (h ▸ raises_of_classInForce hrow hcls)
      · exact why
  unfold faultWith
  dsimp only
  rw [noteInst_kept, exportFault_kept, raisedC_kept]
  refine classAction_goes _ _ _ _ hd ?_
  split <;> simpa using h

@[simp] theorem fault_goes (code : BitVec 16) (inst : BitVec 8) (h : Goes b k c.kept)
    (hrow : b = true ∨ (rowClass code).getD .b ≠ .d) : Goes b k (fault c code inst).kept :=
  faultWith_goes _ _ _ _ _ _ _ h hrow

@[simp] theorem faultLasting_goes (code : BitVec 16) (inst : BitVec 8) (h : Goes b k c.kept)
    (hrow : b = true ∨ (rowClass code).getD .b ≠ .d) : Goes b k (faultLasting c code inst).kept :=
  faultWith_goes _ _ _ _ _ _ _ h hrow

end

/-! ### Loop -/

@[simp] theorem backstopDue_goes {k₀ : Kept} {c : Core} (d : Nat) (hk : Goes true k₀ c.kept) :
    Goes true k₀ (backstopDue c d).kept := by
  simp [backstopDue, hk]

@[simp] theorem overrun_goes {k₀ : Kept} {c : Core} (d : Nat) (hk : Goes true k₀ c.kept) :
    Goes true k₀ (overrun c d).kept := by
  simp [overrun, hk]

@[simp] theorem loopSample_goes {k₀ : Kept} {c : Core} (d : Fin 8) (ph : Nat) (smp : LoopSample) (hk :
    Goes true k₀ c.kept) : Goes true k₀ (loopSample c d ph smp).kept := by
  unfold loopSample
  dsimp only
  repeat' split
  all_goals simp [hk]

@[simp] theorem loopIllegal_goes {k₀ : Kept} {c : Core} (d : Nat) (hk : Goes true k₀ c.kept) :
    Goes true k₀ (loopIllegal c d).kept := by
  simp [loopIllegal, hk]

@[simp] theorem runStep_goes {k₀ : Kept} {c : Core} (r : LoopRun) (pc cyc : Nat) (hk : Goes true k₀ c.kept) :
    Goes true k₀ (runStep c r pc cyc).kept := by
  simp [runStep, hk]

@[simp] theorem writeDest_goes {k₀ : Kept} {c : Core} (r : LoopRun) (k : BitVec 6) (v : Word) (cyc : Nat) (hk :
    Goes true k₀ c.kept) : Goes true k₀ (writeDest c r k v cyc).kept := by
  simp [writeDest, hk]

theorem inHead_goes {k₀ : Kept} {c : Core} {f : LoopRun → Core} (p : Word → Bool) (hk : Goes true k₀ c.kept)
    (hf : ∀ r, Goes true k₀ (f r).kept) : Goes true k₀ (inHead c p f).kept := by
  unfold inHead
  split
  · split
    · exact hf _
    · exact hk
  · exact hk

@[simp] theorem unary_goes {k₀ : Kept} {c : Core} (p : Word → Bool) (dest a : BitVec 6) (cyc : Nat) (f : Word → Word)
    (hk : Goes true k₀ c.kept) : Goes true k₀ (unary c p dest a cyc f).kept := by
  refine inHead_goes p hk fun r => ?_
  split <;> simp [hk]

@[simp] theorem binary_goes {k₀ : Kept} {c : Core} (op dest a b : BitVec 6) (cyc : Nat) (f : Word → Word → Word)
    (hk : Goes true k₀ c.kept) : Goes true k₀ (binary c op dest a b cyc f).kept := by
  refine inHead_goes _ hk fun r => ?_
  split <;> simp [hk]

/-! ### Stage -/

@[simp] theorem leftovers_goes {k₀ : Kept} {c : Core} (ds : List Nat) (hk : Goes true k₀ c.kept) :
    Goes true k₀ (leftovers c ds).kept :=
  goes_foldl (fun _ _ hc => by simp [hc]) ds hk

@[simp] theorem sampleOuter_goes {k₀ : Kept} {c : Core} (n : Fin 4) (smp : LoopSample) (hk : Goes true k₀ c.kept) :
    Goes true k₀ (sampleOuter c n smp).kept :=
  goes_foldl (fun _ d hc => loopSample_goes d n.val smp hc) _ hk

@[simp] theorem samplePhase_goes {k₀ : Kept} {c : Core} (n : Fin 4) (smp : LoopSample) (hk : Goes true k₀ c.kept) :
    Goes true k₀ (samplePhase c n smp).kept := by
  simp [samplePhase, hk]

@[simp] theorem periodStart_goes {k₀ : Kept} {c : Core} (n : Fin 4) (smp : LoopSample) (hk : Goes true k₀ c.kept) :
    Goes true k₀ (periodStart c n smp).kept := by
  unfold periodStart
  refine samplePhase_goes _ _ ?_
  split
  · refine sampleOuter_goes _ _ ?_
    simp [hk]
  · simp [hk]

@[simp] theorem phaseFault_goes {k₀ : Kept} {c : Core} (code : BitVec 16) (n : Nat) (hk : Goes true k₀ c.kept) :
    Goes true k₀ (phaseFault c code n).kept := by
  simp [phaseFault, hk]

@[simp] theorem closeFactor_goes {b : Bool} {k₀ : Kept} {c : Core} (hk : Goes b k₀ c.kept) :
    Goes b k₀ (closeFactor c).kept := by
  simp [closeFactor, hk, rowClass, faultRows]

/-! ### Ledger -/

@[simp] theorem sysClosure_goes {b : Bool} {k₀ : Kept} {c : Core} (hk : Goes b k₀ c.kept) : Goes b k₀ (sysClosure c).kept := by
  unfold sysClosure
  split
  · simpa using hk
  · dsimp only
    split
    · refine goes_foldl (fun _ _ hc => by simpa using hc) _ (faultWith_goes _ _ _ _ _ _ _ ?_ (.inr (by decide)))
      simpa using hk
    · simpa using hk

@[simp] theorem inputClosure_goes {b : Bool} {k₀ : Kept} {c : Core} (hk : Goes b k₀ c.kept) : Goes b k₀ (inputClosure c).kept :=
  goes_foldl (fun _ _ hc => fault_goes _ _ (by simpa using hc) (.inr (by decide))) _ (by simpa using hk)

@[simp] theorem pulseClose_goes {b : Bool} {k₀ : Kept} {c : Core} (hk : Goes b k₀ c.kept) : Goes b k₀ (pulseClose c).kept := by
  simp only [pulseClose, kept_mk, mk_kept]
  exact goes_foldl (fun _ _ hc => fault_goes _ _ (by simpa using hc) (.inr (by decide))) _ hk

@[simp] theorem closeLedger_goes {b : Bool} {k₀ : Kept} {c : Core} (hk : Goes b k₀ c.kept) : Goes b k₀ (closeLedger c).kept := by
  unfold closeLedger
  dsimp only
  rw [closeFrames_kept, closeMarks_kept, modeBook_kept]
  exact closeFactor_goes (pulseClose_goes (inputClosure_goes (sysClosure_goes (by simpa using hk))))

@[simp] theorem gridClose_goes {b : Bool} {k₀ : Kept} {c : Core} (hk : Goes b k₀ c.kept) : Goes b k₀ (gridClose c).kept := by
  simp [gridClose, hk]

/-! ### Cells -/

@[simp] theorem cellFault_goes {k₀ : Kept} {c : Core} (code : BitVec 16) (inst : Nat) (cells : List Nat) (hk :
    Goes true k₀ c.kept) : Goes true k₀ (cellFault c code inst cells).kept := by
  simp [cellFault, hk]

@[simp] theorem wireFault_goes {k₀ : Kept} {c : Core} (j : Nat) (hk : Goes true k₀ c.kept) :
    Goes true k₀ (wireFault c j).kept := by
  simp [wireFault, hk]

@[simp] theorem channelFault_goes {k₀ : Kept} {c : Core} (k : Nat) (hk : Goes true k₀ c.kept) :
    Goes true k₀ (channelFault c k).kept := by
  simp [channelFault, hk]

@[simp] theorem declareWire_goes {k₀ : Kept} {c : Core} (j : Nat) (hk : Goes true k₀ c.kept) :
    Goes true k₀ (declareWire c j).kept := by
  simp [declareWire, hk]

@[simp] theorem declareChannel_goes {k₀ : Kept} {c : Core} (k : Nat) (hk : Goes true k₀ c.kept) :
    Goes true k₀ (declareChannel c k).kept := by
  simp [declareChannel, hk]

@[simp] theorem cellsAlone_goes {k₀ : Kept} {c : Core} (hk : Goes true k₀ c.kept) : Goes true k₀ (cellsAlone c).kept := by
  unfold cellsAlone
  split
  · exact hk
  · exact goes_foldl (fun _ k hc => channelFault_goes k hc) _ (goes_foldl (fun _ j hc => wireFault_goes j hc) _ (by simpa using hk))

@[simp] theorem declareStack_goes {k₀ : Kept} {c : Core} (hk : Goes true k₀ c.kept) : Goes true k₀ (declareStack c).kept := by
  simp [declareStack, hk]

@[simp] theorem declareTest_goes {k₀ : Kept} {c : Core} (t : TestRes) (hk : Goes true k₀ c.kept) :
    Goes true k₀ (declareTest c t).kept := by
  cases t with
  | pass => exact hk
  | wire j => exact declareWire_goes j hk
  | channels ks => exact goes_foldl (fun _ k hc => declareChannel_goes k hc) ks hk
  | stack => exact declareStack_goes hk

@[simp] theorem overvoltage_goes {k₀ : Kept} {c : Core} (hk : Goes true k₀ c.kept) : Goes true k₀ (overvoltage c).kept := by
  simp [overvoltage, hk]

@[simp] theorem judgeCell_goes {k₀ : Kept} {c : Core} (k : Nat) (hk : Goes true k₀ c.kept) :
    Goes true k₀ (judgeCell c k).kept := by
  simp [judgeCell, hk]

@[simp] theorem realCell_goes {k₀ : Kept} {c : Core} (k : Nat) (hk : Goes true k₀ c.kept) :
    Goes true k₀ (realCell c k).kept := by
  simp [realCell, hk]

@[simp] theorem twinPassed_goes {k₀ : Kept} {c : Core} (j : Nat) (hk : Goes true k₀ c.kept) : Goes true k₀ (twinPassed c j).kept :=
  goes_foldl (fun _ k hc => judgeCell_goes k hc) _ hk

/-! ### Charger -/

@[simp] theorem refusePack_goes {b : Bool} {k₀ : Kept} {c : Core} (hk : Goes b k₀ c.kept) : Goes b k₀ (refusePack c).kept := by
  simp [refusePack, hk, rowClass, faultRows]

@[simp] theorem cycleStart_goes {b : Bool} {k₀ : Kept} {c : Core} (hk : Goes b k₀ c.kept) : Goes b k₀ (cycleStart c).kept := by
  simp [cycleStart, hk]

@[simp] theorem reevaluate_goes {b : Bool} {k₀ : Kept} {c : Core} (hk : Goes b k₀ c.kept) : Goes b k₀ (reevaluate c).kept := by
  simp [reevaluate, hk]

@[simp] theorem chargeDecision_goes {b : Bool} {k₀ : Kept} {c : Core} (hk : Goes b k₀ c.kept) :
    Goes b k₀ (chargeDecision c).kept := by
  unfold chargeDecision
  split <;> simp [hk]

@[simp] theorem inputBecomesActive_goes {k₀ : Kept} {c : Core} (hk : Goes true k₀ c.kept) :
    Goes true k₀ (inputBecomesActive c).kept := by
  simp [inputBecomesActive, hk]

@[simp] theorem chargeRestart_goes {b : Bool} {k₀ : Kept} {c : Core} (hk : Goes b k₀ c.kept) :
    Goes b k₀ (chargeRestart c).kept := by
  simp [chargeRestart, hk]

@[simp] theorem phaseStep_goes {k₀ : Kept} {c : Core} (hk : Goes true k₀ c.kept) : Goes true k₀ (phaseStep c).kept := by
  unfold phaseStep
  repeat' split
  all_goals simp [hk]

/-! ### Path -/

@[simp] theorem becameActive_goes {k₀ : Kept} {c : Core} (hk : Goes true k₀ c.kept) : Goes true k₀ (becameActive c).kept := by
  simp [becameActive, hk]

/-! ### LoadSwitch -/

@[simp] theorem lswFault_goes {b : Bool} {k₀ : Kept} {c : Core} (row n : Nat) (hk : Goes b k₀ c.kept)
    (hrow : b = true ∨ (rowClass (BitVec.ofNat 16 (0x0E00 + row))).getD .b ≠ .d) : Goes b k₀ (lswFault c row n).kept :=
  fault_goes _ _ (by simpa using hk) hrow

@[simp] theorem lswTrip_goes {k₀ : Kept} {c : Core} (n : Nat) (thermal : Bool) (hk : Goes true k₀ c.kept) :
    Goes true k₀ (lswTrip c n thermal).kept := by
  simp [lswTrip, hk]

@[simp] theorem lswGateStep_goes {b : Bool} {k₀ : Kept} {c : Core} (bad : BitVec 8) (hk : Goes b k₀ c.kept) :
    Goes b k₀ (lswGateStep bad c).kept := by
  refine goes_foldl (fun c n hc => ?_) _ hk
  split
  · exact lswFault_goes 7 n hc (.inr (by decide))
  · exact hc

/-! ### Vault -/

@[simp] theorem auditChecks_goes {b : Bool} {k₀ : Kept} {c : Core} (bad : List Nat) (hk : Goes b k₀ c.kept) :
    Goes b k₀ (auditChecks c bad).kept := by
  unfold auditChecks
  dsimp only
  split
  · simpa using hk
  · refine faultWith_goes _ _ _ _ _ _ _ ?_ (.inr (by decide))
    split
    · simpa using hk
    · rw [kept_foldl fun _ _ => by simp]
      simpa using hk

@[simp] theorem leadAudit_goes {b : Bool} {k₀ : Kept} {c : Core} (bad : List Nat) (hk : Goes b k₀ c.kept) :
    Goes b k₀ (leadAudit c bad).kept := by
  simp [leadAudit, hk]

/-! ### Plinth -/

@[simp] theorem isolatePort_goes {k₀ : Kept} {c : Core} (p : Nat) (hk : Goes true k₀ c.kept) :
    Goes true k₀ (isolatePort c p).kept := by
  simp [isolatePort, hk]

@[simp] theorem confineOnce_goes {k₀ : Kept} {c : Core} (p : Nat) (hk : Goes true k₀ c.kept) :
    Goes true k₀ (confineOnce c p).kept := by
  unfold confineOnce
  dsimp only
  split <;> simp [hk]

@[simp] theorem tecStep_goes {k₀ : Kept} {c : Core} (p : Nat) (d : Int) (hk : Goes true k₀ c.kept) :
    Goes true k₀ (tecStep c p d).kept :=
  confineOnce_goes p (confineOnce_goes p (confineOnce_goes p (by simpa using hk)))

@[simp] theorem broadcastTec_goes {k₀ : Kept} {c : Core} (p : Nat) (bad : Bool) (hk : Goes true k₀ c.kept) :
    Goes true k₀ (broadcastTec c p bad).kept := by
  simp [broadcastTec, hk]

@[simp] theorem sendBroadcast_goes {k₀ : Kept} {c : Core} (p slot : Nat) (m : PlbMsg) (q : BitVec 4) (rep bad : Bool)
    (hk : Goes true k₀ c.kept) : Goes true k₀ (sendBroadcast c p slot m q rep bad).kept := by
  simp [sendBroadcast, hk]

@[simp] theorem sendUnicast_goes {k₀ : Kept} {c : Core} (p slot : Nat) (m : PlbMsg) (bad : Bool) (hk :
    Goes true k₀ c.kept) : Goes true k₀ (sendUnicast c p slot m bad).kept := by
  simp [sendUnicast, hk]

@[simp] theorem sendAll_goes {k₀ : Kept} {c : Core} (p slot : Nat) (m : PlbMsg) (bad : Bool) (hk :
    Goes true k₀ c.kept) : Goes true k₀ (sendAll c p slot m bad).kept := by
  simp [sendAll, hk]

@[simp] theorem sendPair_goes {k₀ : Kept} {c : Core} (p slot : Nat) (m : PlbMsg) (bad1 bad2 : Bool) (hk :
    Goes true k₀ c.kept) : Goes true k₀ (sendPair c p slot m bad1 bad2).kept := by
  simp [sendPair, hk]

@[simp] theorem pickSlot_goes {k₀ : Kept} {c : Core} (p slot : Nat) (bad : Bool) (hk : Goes true k₀ c.kept) :
    Goes true k₀ (pickSlot c p slot bad).kept := by
  unfold pickSlot
  dsimp only
  repeat' split
  all_goals simp [hk]

@[simp] theorem slotStart_goes {k₀ : Kept} {c : Core} (p slot : Nat) (bad repBad : Bool) (hk : Goes true k₀ c.kept) :
    Goes true k₀ (slotStart c p slot bad repBad).kept := by
  unfold slotStart
  dsimp only
  repeat' split
  all_goals simp [hk]

@[simp] theorem missed_goes {k₀ : Kept} {c : Core} (p a : Nat) (corrupted : Bool) (hk : Goes true k₀ c.kept) :
    Goes true k₀ (missed c p a corrupted).kept := by
  unfold missed
  dsimp only
  repeat' split
  all_goals simp [hk]

/-! ### Twin -/

@[simp] theorem attachStep_goes {k₀ : Kept} {c : Core} (m : IdentMsg) (hk : Goes true k₀ c.kept) :
    Goes true k₀ (attachStep c m).kept := by
  unfold attachStep
  split <;> simp [hk]

@[simp] theorem attachTry_goes {k₀ : Kept} {c : Core} (m : IdentMsg) (hk : Goes true k₀ c.kept) :
    Goes true k₀ (attachTry c m).kept := by
  simp [attachTry, hk]

@[simp] theorem pathCheck_goes {k₀ : Kept} {c : Core} (h : HeartbeatMsg) (hk : Goes true k₀ c.kept) :
    Goes true k₀ (pathCheck c h).kept := by
  simp [pathCheck, hk]

@[simp] theorem echoCheck_goes {k₀ : Kept} {c : Core} (h : HeartbeatMsg) (hk : Goes true k₀ c.kept) :
    Goes true k₀ (echoCheck c h).kept := by
  simp [echoCheck, hk]

@[simp] theorem mirrorCheck_goes {k₀ : Kept} {c : Core} (agree leadFailed : Bool) (hk : Goes true k₀ c.kept) :
    Goes true k₀ (mirrorCheck c agree leadFailed).kept := by
  simp [mirrorCheck, hk]

/-! ### Orders -/

@[simp] theorem command_goes {b : Bool} {k₀ : Kept} {c : Core} (k : Nat) (v : BitVec 32) (hk : Goes b k₀ c.kept) :
    Goes b k₀ (command c k v).kept := by
  unfold command
  split <;> simp [hk]

@[simp] theorem runCommands_goes {b : Bool} {k₀ : Kept} {c : Core} (l : List Arrived) (hk : Goes b k₀ c.kept) :
    Goes b k₀ (runCommands c l).kept := by
  refine goes_foldl (fun c a hc => ?_) l hk
  split
  · exact command_goes a.slot a.v hc
  · exact hc

/-- The merge takes the orders that arrived. -/
theorem orderMerge_goes {b : Bool} {k₀ : Kept} {c : Core} (hk : Goes b k₀ c.kept.taken) : Goes b k₀ (orderMerge c).kept := by
  refine runCommands_goes _ ?_
  simpa [kept_foldl, kept_taken] using hk

/-! ### Records -/

@[simp] theorem nvmFailed_goes {k₀ : Kept} {c : Core} (o : NvmOp) (hk : Goes true k₀ c.kept) :
    Goes true k₀ (nvmFailed c o).kept := by
  unfold nvmFailed
  repeat' split
  all_goals simp [hk]

/-! ### Thermal -/

@[simp] theorem sensorFault_goes {k₀ : Kept} {c : Core} (code : BitVec 16) (i : Nat) (hk : Goes true k₀ c.kept) :
    Goes true k₀ (sensorFault c code i).kept := by
  simp [sensorFault, hk]

@[simp] theorem acceptReading_goes {k₀ : Kept} {c : Core} (i : Nat) (r : SensorReading) (hk : Goes true k₀ c.kept) :
    Goes true k₀ (acceptReading c i r).kept := by
  unfold acceptReading
  dsimp only
  repeat' split
  all_goals simp [hk]

/-! ### Faults -/

@[simp] theorem isolateRaised_goes {k₀ : Kept} {c : Core} (code : BitVec 16) (inst : BitVec 8) (hk :
    Goes true k₀ c.kept) : Goes true k₀ (isolateRaised c code inst).kept := by
  simp [isolateRaised, hk]

@[simp] theorem classResult_goes {k₀ : Kept} {c : Core} (code : BitVec 16) (inst : BitVec 8) (cls : FCls) (lasting : Bool)
    (hk : Goes true k₀ c.kept) : Goes true k₀ (classResult c code inst cls lasting).kept := by
  unfold classResult
  split <;> simp [hk]

@[simp] theorem rotOut_goes {k₀ : Kept} {c : Core} (x : Nat × BitVec 8) (hk : Goes true k₀ c.kept) :
    Goes true k₀ (rotOut c x).kept := by
  unfold rotOut
  split <;> simp [hk]

@[simp] theorem copyGone_goes {k₀ : Kept} {c : Core} (hk : Goes true k₀ c.kept) : Goes true k₀ (copyGone c).kept := by
  simp [copyGone, hk]

@[simp] theorem lastingAct_goes {k₀ : Kept} {c : Core} (code : BitVec 16) (inst : BitVec 8) (hk : Goes true k₀ c.kept) :
    Goes true k₀ (lastingAct c code inst).kept := by
  unfold lastingAct
  split
  · simpa using hk
  · dsimp only
    split
    · simp [hk]
    · split
      all_goals simp [hk, kept_foldl]

@[simp] theorem classify_goes {k₀ : Kept} {c : Core} (code : BitVec 16) (inst : BitVec 8) (lasting : Bool) (st : ProbeSt)
    (hk : Goes true k₀ c.kept) : Goes true k₀ (classify c code inst lasting st).kept := by
  simp [classify, hk]

@[simp] theorem probeEnded_goes {k₀ : Kept} {c : Core} (code : BitVec 16) (inst : BitVec 8) (pass : Bool) (sec : Nat)
    (hk : Goes true k₀ c.kept) : Goes true k₀ (probeEnded c code inst pass sec).1.kept := by
  unfold probeEnded
  split
  · simp [hk]
  · split
    · simp [hk]
    · split <;> simp [hk]

@[simp] theorem alsoEnded_goes {k₀ : Kept} {c : Core} (pass lasting : Bool) (sec : Nat) (x : BitVec 16 × BitVec 8)
    (hk : Goes true k₀ c.kept) : Goes true k₀ (alsoEnded pass lasting sec c x).kept := by
  unfold alsoEnded
  split
  · exact probeEnded_goes _ _ _ _ hk
  · exact classify_goes _ _ _ _ hk

@[simp] theorem notRun_goes {k₀ : Kept} {c : Core} (x : BitVec 16 × BitVec 8) (hk : Goes true k₀ c.kept) :
    Goes true k₀ (notRun c x).kept := by
  simp [notRun, hk]

@[simp] theorem noProbeStep_goes {k₀ : Kept} {c : Core} (hk : Goes true k₀ c.kept) : Goes true k₀ (noProbeStep c).kept :=
  goes_foldl (fun _ x hc => notRun_goes x hc) _ (by simpa using hk)

@[simp] theorem rotationFails_goes {k₀ : Kept} {c : Core} (item : Nat) (inst : BitVec 8) (hk : Goes true k₀ c.kept) :
    Goes true k₀ (rotationFails c item inst).kept := by
  simp [rotationFails, hk]

@[simp] theorem memoryError_goes {k₀ : Kept} {c : Core} (bank : BitVec 8) (hk : Goes true k₀ c.kept) :
    Goes true k₀ (memoryError c bank).kept := by
  simp [memoryError, hk]

/-! ### Lifecycle -/

@[simp] theorem pinReset_goes {k₀ : Kept} {c : Core} (hk : Goes true k₀ c.kept) : Goes true k₀ (pinReset c).kept := by
  simp [pinReset, hk]

@[simp] theorem startBlocks_goes {k₀ : Kept} {c : Core} (hk : Goes true k₀ c.kept) : Goes true k₀ (startBlocks c).kept := by
  simp [startBlocks, hk]

@[simp] theorem watchdogExpire_goes {k₀ : Kept} {c : Core} (bit : Nat) (hk : Goes true k₀ c.kept) :
    Goes true k₀ (watchdogExpire c bit).kept := by
  simp [watchdogExpire, hk]

@[simp] theorem keyRunning_goes {k₀ : Kept} {c : Core} (key : BitVec 16) (us : Nat) (hk : Goes true k₀ c.kept) :
    Goes true k₀ (keyRunning c key us).kept := by
  unfold keyRunning
  split <;> simp [hk]

end Sys2Proof.Machine
end


section
/-! PROOFS. Commands that leave lifecycle state and mode as they are or take Reset, family by family. -/

namespace Sys2Proof.Machine

/-- Lifecycle state and mode stand, or Reset has been taken. -/
def Kept.Follows (k k' : Kept) : Prop := (k'.st = k.st ∧ k'.mode = k.mode) ∨ k'.isReset

/-- Every next state of the answer follows the state. -/
def Leads (s : State) (r : Res) : Prop := ∀ t, r = .next t → s.core.kept.Follows t.core.kept

section
variable {k k' : Kept} {s : State} {f : Core → Core}

theorem Kept.Follows.of_goes (h : Goes true k k') : k.Follows k' := by
  rcases h with rfl | ⟨-, h⟩
  · exact .inl ⟨rfl, rfl⟩
  · exact .inr h

theorem Kept.Follows.of_goes_taken (h : Goes true k.taken k'.taken) : k.Follows k' := by
  rcases h with h | ⟨-, h⟩
  · have hst : k'.taken.st = k.taken.st := by rw [h]
    have hmode : k'.taken.mode = k.taken.mode := by rw [h]
    exact .inl ⟨hst, hmode⟩
  · exact .inr h

theorem Kept.Follows.trans {k'' : Kept} (h : k.Follows k') (h' : k'.Follows k'') : k.Follows k'' := by
  rcases h' with ⟨hst, hmode⟩ | h'
  · rcases h with ⟨hst', hmode'⟩ | h
    · exact .inl ⟨hst.trans hst', hmode.trans hmode'⟩
    · exact .inr ⟨hst.trans h.1, hmode.trans h.2⟩
  · exact .inr h'

/-- What `afterReset` leaves of a reset is a reset. -/
theorem afterReset_follows {c d : Core} (h : k.Follows d.kept) : k.Follows (afterReset c d).kept := by
  unfold afterReset
  split
  · exact .inr ⟨rfl, rfl⟩
  · exact h

theorem leads_next {t : State} (h : s.core.kept.Follows t.core.kept) : Leads s (.next t) := by
  rintro _ ⟨⟩
  exact h

theorem leads_stays : Leads s (.next s) := leads_next (.inl ⟨rfl, rfl⟩)

theorem KeepsOn.leads {r : Res} (h : KeepsOn s r) : Leads s r := fun t ht => by
  have hkept : t.core.kept = s.core.kept := congrArg (·.1.1) (h t ht)
  exact .inl (by rw [hkept]; exact ⟨rfl, rfl⟩)

theorem leads_onCore (h : ∀ c : Core, c.kept.Follows (f c).kept) : Leads s (onCore s f) :=
  leads_next (afterReset_follows (h s.core))

theorem leads_onCoreIf {p : Core → Bool} (h : ∀ c : Core, c.kept.Follows (f c).kept) : Leads s (onCoreIf s p f) :=
  leads_onCore fun c => by
    split
    · exact h c
    · exact .inl ⟨rfl, rfl⟩

theorem leads_onRun (h : ∀ c : Core, c.kept.Follows (f c).kept) : Leads s (onRun s f) := leads_onCoreIf h

theorem leads_onPd {p : PdId} (h : ∀ c : Core, c.kept.Follows (f c).kept) : Leads s (onPd s p f) :=
  leads_onCoreIf fun c => by simpa using h (pdCount c p)

theorem leads_onTwin (h : ∀ c : Core, c.kept.Follows (f c).kept) : Leads s (onTwin s f) := leads_onCoreIf h

theorem leads_onGrid {e : GridEvent} (h : ∀ c : Core, c.kept.Follows (f c).kept) : Leads s (onGrid s e f) := by
  unfold onGrid
  split
  · split
    · rename_i l now hl
      refine leads_next ?_
      have hlife : s.core.kept.Follows ({ s.core with life := l } : Core).kept := by
        unfold takeTurn at hl
        split at hl
        · cases hl
          exact .inl ⟨rfl, rfl⟩
        · split at hl
          · cases hl
            exact .inl ⟨rfl, rfl⟩
          · cases hl
      have hf := afterReset_follows (c := s.core) (hlife.trans (h _))
      split
      · simpa using hf
      · exact hf
    · exact leads_stays
  · exact leads_stays

/-- A response is counted and, where it is well formed, acted on; what it acts on may take an order in. -/
theorem leads_onResponse_taken {p : Fin 4} {fr : Frame} {type : Byte} {len : Nat} {any : Bool} {act : Core → Nat → Core}
    (h : ∀ k₀ c a, Goes true k₀ c.kept.taken → Goes true k₀ (act c a).kept.taken) :
    Leads s (onResponse s p fr type len any act) :=
  leads_onRun fun c => .of_goes_taken (by
    split
    · exact .refl
    · dsimp only
      split
      · exact (missed_goes _ _ _ .refl).taken
      · split
        · refine h _ _ _ ?_
          exact Goes.taken (by simp)
        · exact Goes.taken (by simp))

theorem leads_onResponse {p : Fin 4} {fr : Frame} {type : Byte} {len : Nat} {any : Bool} {act : Core → Nat → Core}
    (h : ∀ k₀ c a, Goes true k₀ c.kept → Goes true k₀ (act c a).kept) : Leads s (onResponse s p fr type len any act) :=
  leads_onResponse_taken fun _ _ _ hc => hc.trans (h _ _ _ .refl).taken

theorem leads_arrive (m : Master) (k : Nat) (v : BitVec 32) : Leads s (arrive m k v s) := by
  unfold arrive
  split
  · refine leads_onCore fun c => .of_goes_taken ?_
    dsimp only
    split
    · rw [wakeBegin_kept]
      exact .refl
    · exact .refl
  · split
    · exact leads_next (.of_goes (by simp))
    · exact leads_stays

theorem leads_transact (f : WinFrame) : Leads s (transact f s) :=
  leads_next (.of_goes (by split <;> simp))

end

/-! ### Loop -/

@[simp] theorem execLdi_leads (dest : BitVec 6) (imm : BitVec 16) (s : State) : Leads s (execLdi dest imm s) :=
  leads_onRun fun c => .of_goes (inHead_goes _ .refl fun r => by simp)

@[simp] theorem execLdc_leads (dest : BitVec 6) (idx : BitVec 12) (s : State) : Leads s (execLdc dest idx s) :=
  leads_onRun fun c => .of_goes (inHead_goes _ .refl fun r => by simp)

@[simp] theorem execMov_leads (dest a : BitVec 6) (s : State) : Leads s (execMov dest a s) :=
  leads_onRun fun c => .of_goes (by simp)

@[simp] theorem execAdd_leads (dest a b : BitVec 6) (s : State) : Leads s (execAdd dest a b s) :=
  leads_onRun fun c => .of_goes (by simp)

@[simp] theorem execSub_leads (dest a b : BitVec 6) (s : State) : Leads s (execSub dest a b s) :=
  leads_onRun fun c => .of_goes (by simp)

@[simp] theorem execMul_leads (dest a b : BitVec 6) (s : State) : Leads s (execMul dest a b s) :=
  leads_onRun fun c => .of_goes (by simp)

@[simp] theorem execMin_leads (dest a b : BitVec 6) (s : State) : Leads s (execMin dest a b s) :=
  leads_onRun fun c => .of_goes (by simp)

@[simp] theorem execMax_leads (dest a b : BitVec 6) (s : State) : Leads s (execMax dest a b s) :=
  leads_onRun fun c => .of_goes (by simp)

@[simp] theorem execAsr_leads (dest a : BitVec 6) (count : BitVec 6) (s : State) : Leads s (execAsr dest a count s) :=
  leads_onRun fun c => .of_goes (by simp)

@[simp] theorem execBlt_leads (a b : BitVec 6) (skip : BitVec 8) (s : State) : Leads s (execBlt a b skip s) :=
  leads_onRun fun c => .of_goes (inHead_goes _ .refl fun r => by split <;> simp)

@[simp] theorem execOut_leads (a : BitVec 6) (s : State) : Leads s (execOut a s) :=
  leads_onRun fun c => .of_goes (inHead_goes _ .refl fun r => by split <;> simp)

@[simp] theorem execIllegalInstruction_leads (s : State) : Leads s (execIllegalInstruction s) :=
  leads_onRun fun c => .of_goes (by split <;> simp)

@[simp] theorem execLoopOverrun_leads (d : Fin 8) (cycles : Nat) (s : State) : Leads s (execLoopOverrun d cycles s) :=
  leads_onRun fun c => .of_goes (by split <;> simp)

/-! ### Stage -/

@[simp] theorem execSwitchingPeriodStart_leads (ph : Fin 4) (smp : LoopSample) (s : State) :
    Leads s (execSwitchingPeriodStart ph smp s) :=
  leads_onCore fun c => .of_goes (by simp)

@[simp] theorem execBootstrapRefresh_leads (sw : Fin 16) (bootOkAfter : Bool) (s : State) :
    Leads s (execBootstrapRefresh sw bootOkAfter s) :=
  leads_onCoreIf fun c => .of_goes (by simp)

@[simp] theorem execPhaseOvercurrent_leads (ph sw : Fin 4) (uv : Nat) (s : State) :
    Leads s (execPhaseOvercurrent ph sw uv s) :=
  leads_onCoreIf fun c => .of_goes (by simp)

@[simp] theorem execStageOvercurrent_leads (iscMa : Nat) (s : State) : Leads s (execStageOvercurrent iscMa s) :=
  leads_onCoreIf fun c => .of_goes (by simp)

@[simp] theorem execChiselOffStep2_leads (ph : Fin 4) (s : State) : Leads s (execChiselOffStep2 ph s) :=
  leads_onCore fun c => .of_goes (by simp)

@[simp] theorem execChiselOffComplete_leads (ph : Fin 4) (s : State) : Leads s (execChiselOffComplete ph s) :=
  leads_onCore fun c => .of_goes (by simp)

@[simp] theorem execReadBackWindowEnd_leads (sw : Fin 16) (edgeOn : Bool) (gateMv : Nat) (s : State) :
    Leads s (execReadBackWindowEnd sw edgeOn gateMv s) :=
  leads_onCoreIf fun c => .of_goes (by simp)

@[simp] theorem execPrechargeEnd_leads (bootOk : BitVec 8) (s : State) : Leads s (execPrechargeEnd bootOk s) :=
  leads_onRun fun c => .of_goes (by
    have hbad : ∀ (l : List Nat) (d : Core), d.kept = c.kept →
        Goes true c.kept (l.foldl (fun c n => phaseFault c 0x0A06 n) d).kept := fun l d hd =>
      goes_foldl (fun _ n hc => phaseFault_goes _ n hc) l (.inl hd)
    dsimp only
    split
    · exact .refl
    · simp only [kept_ite, calibrateNext_kept, ite_self]
      refine hbad _ _ ?_
      simp)

@[simp] theorem execCalibrationRunEnd_leads (ph : Fin 4) (vdsUv : Vector Nat 4) (iscMa : Nat) (s : State) :
    Leads s (execCalibrationRunEnd ph vdsUv iscMa s) :=
  leads_onCoreIf fun c => .of_goes (by simp)

/-! ### Ledger -/

@[simp] theorem execLedgerSample_leads (smp : Sample) (s : State) : Leads s (execLedgerSample smp s) :=
  leads_onCore fun c => .of_goes (by simp)

@[simp] theorem execMissingSample_leads (ch : Fin 8) (s : State) : Leads s (execMissingSample ch s) :=
  leads_onRun fun c => .of_goes (by simp)

@[simp] theorem execCheckpointDue_leads (s : State) : Leads s (execCheckpointDue s) := leads_onRun fun c => .of_goes (by simp)

/-! ### Cells -/

@[simp] theorem execConversionWindowEnd_leads (cells : List Nat) (stack : Nat) (switchDiffers : BitVec 16) (s : State) :
    Leads s (execConversionWindowEnd cells stack switchDiffers s) :=
  leads_onRun fun c => .of_goes (by
    have hcells := cellsAlone_goes (k₀ := c.kept) (c := c) .refl
    simp only [kept_ite, kept_mk, mk_kept, balanceStep_kept, chooseDiag_kept, ite_self]
    refine overvoltage_goes ?_
    simp [hcells])

/-- A judged test is declared. -/
theorem declared_goes {k₀ : Kept} {c : Core} (cel : CelG) (t : TestRes) (hk : Goes true k₀ c.kept) :
    Goes true k₀ (declareTest { c with cel := cel } t).kept := declareTest_goes t (by simpa using hk)

@[simp] theorem execDiagnosticWindowEnd_leads (cells : List Nat) (stack : Nat) (s : State) :
    Leads s (execDiagnosticWindowEnd cells stack s) :=
  leads_onRun fun c => .of_goes (by
    simp only [kept_mk, mk_kept]
    split
    · split
      · exact twinPassed_goes _ (declared_goes _ _ .refl)
      · exact declared_goes _ _ .refl
    · exact goes_foldl (fun _ k hc => realCell_goes k hc) _ (declared_goes _ _ .refl)
    · split
      · exact declared_goes _ _ .refl
      · rw [classified_kept]
        exact declared_goes _ _ .refl
    · rw [classified_kept]
      exact declared_goes _ _ .refl
    · split
      · exact .refl
      · split
        · exact declared_goes _ _ .refl
        · split
          · exact declared_goes _ _ .refl
          · split
            · exact realCell_goes _ (declared_goes _ _ .refl)
            · exact declared_goes _ _ .refl)

@[simp] theorem execOcvCorrection_leads (s : State) : Leads s (execOcvCorrection s) :=
  leads_onCoreIf fun c => .of_goes (by simp)

/-! ### Charger -/

@[simp] theorem execChargeEvaluation_leads (iPackAvg : Int) (s : State) : Leads s (execChargeEvaluation iPackAvg s) :=
  leads_onRun fun c => .of_goes (by simp)

@[simp] theorem execChargeTimerExpiry_leads (s : State) : Leads s (execChargeTimerExpiry s) :=
  leads_onCoreIf fun c => .of_goes (by simp)

@[simp] theorem execRestPatternEdge_leads (s : State) : Leads s (execRestPatternEdge s) :=
  leads_onCoreIf fun c => .of_goes (by simp)

@[simp] theorem execHeaterTimeLimit_leads (s : State) : Leads s (execHeaterTimeLimit s) :=
  leads_onCoreIf fun c => .of_goes (by simp)

@[simp] theorem execPackCurrentAboveShare_leads (s : State) : Leads s (execPackCurrentAboveShare s) :=
  leads_onRun fun c => .of_goes (by simp)

/-! ### Path -/

@[simp] theorem execMainQualified_leads (s : State) : Leads s (execMainQualified s) :=
  leads_onCoreIf fun c => .of_goes (by simp)

@[simp] theorem execMainDisqualified_leads (s : State) : Leads s (execMainDisqualified s) :=
  leads_onCoreIf fun c => .of_goes (by simp)

@[simp] theorem execFastInputOvervoltageTrip_leads (s : State) : Leads s (execFastInputOvervoltageTrip s) :=
  leads_onRun fun c => .of_goes (by
    dsimp only
    split <;> simp)

@[simp] theorem execPdInputQualified_leads (port : PdId) (s : State) : Leads s (execPdInputQualified port s) :=
  leads_onCoreIf fun c => .of_goes (by simp)

@[simp] theorem execPdInputDisqualified_leads (port : PdId) (s : State) : Leads s (execPdInputDisqualified port s) :=
  leads_onCoreIf fun c => .of_goes (by simp)

@[simp] theorem execRequalificationDelayEnd_leads (i : Inp) (s : State) : Leads s (execRequalificationDelayEnd i s) :=
  leads_onRun fun c => .of_goes (by simp)

@[simp] theorem execPairConfirmedOff_leads (s : State) : Leads s (execPairConfirmedOff s) :=
  leads_onCore fun c => .of_goes (by
    dsimp only
    repeat' split
    all_goals simp)

@[simp] theorem execVcinDrainEnd_leads (s : State) : Leads s (execVcinDrainEnd s) :=
  leads_onRun fun c => .of_goes (by split <;> simp)

@[simp] theorem execPairConfirmedOn_leads (s : State) : Leads s (execPairConfirmedOn s) :=
  leads_onRun fun c => .of_goes (by split <;> simp)

@[simp] theorem execTransferComplete_leads (s : State) : Leads s (execTransferComplete s) :=
  leads_onRun fun c => .of_goes (by split <;> simp)

@[simp] theorem execTransferBoundExpiry_leads (s : State) : Leads s (execTransferBoundExpiry s) :=
  leads_onRun fun c => .of_goes (by split <;> simp)

@[simp] theorem execPairNotConfirmedOff_leads (s : State) : Leads s (execPairNotConfirmedOff s) :=
  leads_onRun fun c => .of_goes (by split <;> simp)

@[simp] theorem execReverseCurrentTrip_leads (s : State) : Leads s (execReverseCurrentTrip s) :=
  leads_onRun fun c => .of_goes (by split <;> simp)

@[simp] theorem execBatfetLinearEntry_leads (s : State) : Leads s (execBatfetLinearEntry s) :=
  leads_onCoreIf fun c => .of_goes (by simp)

@[simp] theorem execBatfetFullyOn_leads (s : State) : Leads s (execBatfetFullyOn s) :=
  leads_onCoreIf fun c => .of_goes (by simp)

@[simp] theorem execSysCollapse_leads (s : State) : Leads s (execSysCollapse s) := leads_onCoreIf fun c => .of_goes (by simp)

@[simp] theorem execCollapseRecovery_leads (s : State) : Leads s (execCollapseRecovery s) :=
  leads_onCoreIf fun c => .of_goes (by simp)

@[simp] theorem execBatfetUndervoltageOpening_leads (s : State) : Leads s (execBatfetUndervoltageOpening s) :=
  leads_onCoreIf fun c => .of_goes (by simp)

@[simp] theorem execBatfetNotOff_leads (s : State) : Leads s (execBatfetNotOff s) := leads_onCoreIf fun c => .of_goes (by simp)

@[simp] theorem execBatfetDropFault_leads (s : State) : Leads s (execBatfetDropFault s) :=
  leads_onCoreIf fun c => .of_goes (by simp)

@[simp] theorem execLinearDissipationFault_leads (s : State) : Leads s (execLinearDissipationFault s) :=
  leads_onCoreIf fun c => .of_goes (by simp)

@[simp] theorem execVcpUndervoltage_leads (s : State) : Leads s (execVcpUndervoltage s) :=
  leads_onCoreIf fun c => .of_goes (by simp)

@[simp] theorem execExportVcinReached_leads (s : State) : Leads s (execExportVcinReached s) :=
  leads_onRun fun c => .of_goes (by split <;> simp)

@[simp] theorem execExportFloorTimeout_leads (s : State) : Leads s (execExportFloorTimeout s) :=
  leads_onRun fun c => .of_goes (by simp)

@[simp] theorem execSafeHoldMainQualified_leads (s : State) : Leads s (execSafeHoldMainQualified s) :=
  leads_onCoreIf fun c => .of_goes (by simp)

@[simp] theorem execSafeHoldMainLost_leads (s : State) : Leads s (execSafeHoldMainLost s) :=
  leads_onCoreIf fun c => .of_goes (by simp)

@[simp] theorem execSafeHoldBatfetTrip_leads (s : State) : Leads s (execSafeHoldBatfetTrip s) :=
  leads_onCoreIf fun c => .of_goes (by simp)

/-! ### LoadSwitch -/

@[simp] theorem execChannelStartStagger_leads (s : State) : Leads s (execChannelStartStagger s) :=
  leads_onRun fun c => .of_goes (by split <;> simp)

@[simp] theorem execCurrentLimitTimeout_leads (ch : Fin 8) (s : State) : Leads s (execCurrentLimitTimeout ch s) :=
  leads_onCoreIf fun c => .of_goes (by simp)

@[simp] theorem execShortCircuitTrip_leads (ch : Fin 8) (s : State) : Leads s (execShortCircuitTrip ch s) :=
  leads_onCoreIf fun c => .of_goes (by simp)

@[simp] theorem execThermalTrip_leads (ch : Fin 8) (s : State) : Leads s (execThermalTrip ch s) :=
  leads_onCoreIf fun c => .of_goes (by simp)

@[simp] theorem execRetryDelayEnd_leads (ch : Fin 8) (s : State) : Leads s (execRetryDelayEnd ch s) :=
  leads_onRun fun c => .of_goes (by simp)

@[simp] theorem execChannelCooled_leads (ch : Fin 8) (s : State) : Leads s (execChannelCooled ch s) :=
  leads_onRun fun c => .of_goes (by simp)

@[simp] theorem execTripFreeTime_leads (ch : Fin 8) (s : State) : Leads s (execTripFreeTime ch s) :=
  leads_onCoreIf fun c => .of_goes (by simp)

@[simp] theorem execLswinUndervoltage_leads (s : State) : Leads s (execLswinUndervoltage s) :=
  leads_onRun fun c => .of_goes (by simp)

@[simp] theorem execLswinRecovery_leads (s : State) : Leads s (execLswinRecovery s) := leads_onRun fun c => .of_goes (by simp)

@[simp] theorem execOnStateOpenLoad_leads (ch : Fin 8) (s : State) : Leads s (execOnStateOpenLoad ch s) :=
  leads_onCoreIf fun c => .of_goes (by simp)

@[simp] theorem execOffStateTest_leads (ch : Fin 8) (outMv : Nat) (s : State) : Leads s (execOffStateTest ch outMv s) :=
  leads_onCoreIf fun c => .of_goes (by simp)

@[simp] theorem execMissingFreeWheelPath_leads (ch : Fin 8) (s : State) : Leads s (execMissingFreeWheelPath ch s) :=
  leads_onCoreIf fun c => .of_goes (by simp)

@[simp] theorem execMinimumOffTimeEnd_leads (ch : Fin 8) (s : State) : Leads s (execMinimumOffTimeEnd ch s) :=
  leads_onRun fun c => .of_goes (by simp)

/-! ### Pd -/

@[simp] theorem execCcAttach_leads (port : PdId) (asSource cc2 vconnin : Bool) (s : State) :
    Leads s (execCcAttach port asSource cc2 vconnin s) :=
  leads_onCoreIf fun c => .of_goes (by simp)

@[simp] theorem execCcDetach_leads (port : PdId) (s : State) : Leads s (execCcDetach port s) :=
  leads_onCoreIf fun c => .of_goes (by simp)

@[simp] theorem execDrpToggle_leads (port : PdId) (s : State) : Leads s (execDrpToggle port s) :=
  leads_onCoreIf fun c => .of_goes (by simp)

@[simp] theorem execSourceCapabilities_leads (port : PdId) (pdos : List PdoIn) (eprCapable eprList rev2 : Bool)
    (s : State) : Leads s (execSourceCapabilities port pdos eprCapable eprList rev2 s) :=
  leads_onPd fun c => .of_goes (by simp)

@[simp] theorem execEprKeepalive_leads (port : PdId) (answered : Bool) (s : State) :
    Leads s (execEprKeepalive port answered s) :=
  leads_onCoreIf fun c => .of_goes (by simp)

@[simp] theorem execPdAccept_leads (port : PdId) (s : State) : Leads s (execPdAccept port s) :=
  leads_onPd fun c => .of_goes (by split <;> simp)

@[simp] theorem execPsRdy_leads (port : PdId) (s : State) : Leads s (execPsRdy port s) :=
  leads_onPd fun c => .of_goes (by split <;> simp)

@[simp] theorem execExportPairConfirmedOn_leads (s : State) : Leads s (execExportPairConfirmedOn s) :=
  leads_onRun fun c => .of_goes (by
    repeat' split
    all_goals simp)

@[simp] theorem execExportPairNotConfirmedOn_leads (s : State) : Leads s (execExportPairNotConfirmedOn s) :=
  leads_onRun fun c => .of_goes (by
    repeat' split
    all_goals simp)

@[simp] theorem execPdRequest_leads (port : PdId) (pos maxI10 : Nat) (s : State) : Leads s (execPdRequest port pos maxI10 s) :=
  leads_onPd fun c => .of_goes (by
    dsimp only
    repeat' split
    all_goals simp)

@[simp] theorem execSourceTransitionDelayEnd_leads (port : PdId) (s : State) : Leads s (execSourceTransitionDelayEnd port s) :=
  leads_onCoreIf fun c => .of_goes (by simp)

@[simp] theorem execVbusTransitionComplete_leads (port : PdId) (s : State) : Leads s (execVbusTransitionComplete port s) :=
  leads_onCoreIf fun c => .of_goes (by split <;> simp)

@[simp] theorem execHardReset_leads (port : PdId) (s : State) : Leads s (execHardReset port s) :=
  leads_onCoreIf fun c => .of_goes (by simp)

@[simp] theorem execVbusDischargeComplete_leads (port : PdId) (s : State) : Leads s (execVbusDischargeComplete port s) :=
  leads_onCoreIf fun c => .of_goes (by simp)

@[simp] theorem execErrorRecoveryEnd_leads (port : PdId) (s : State) : Leads s (execErrorRecoveryEnd port s) :=
  leads_onCoreIf fun c => .of_goes (by simp)

@[simp] theorem execSourceRecoveryEnd_leads (port : PdId) (s : State) : Leads s (execSourceRecoveryEnd port s) :=
  leads_onRun fun c => .of_goes (by simp)

@[simp] theorem execSinktxngWaitEnd_leads (port : PdId) (s : State) : Leads s (execSinktxngWaitEnd port s) :=
  leads_onCoreIf fun c => .of_goes (by simp [kept_foldl])

@[simp] theorem execVconnSwap_leads (port : PdId) (vconnin : Bool) (s : State) : Leads s (execVconnSwap port vconnin s) :=
  leads_onPd fun c => .of_goes (by simp)

@[simp] theorem execPrSwap_leads (port : PdId) (s : State) : Leads s (execPrSwap port s) :=
  leads_onPd fun c => .of_goes (by simp)

@[simp] theorem execDrSwap_leads (port : PdId) (s : State) : Leads s (execDrSwap port s) :=
  leads_onPd fun c => .of_goes (by simp)

@[simp] theorem execFrSwap_leads (port : PdId) (s : State) : Leads s (execFrSwap port s) :=
  leads_onPd fun c => .of_goes (by simp)

@[simp] theorem execGetSinkCap_leads (port : PdId) (s : State) : Leads s (execGetSinkCap port s) :=
  leads_onPd fun c => .of_goes (by simp)

@[simp] theorem execGetSourceCap_leads (port : PdId) (s : State) : Leads s (execGetSourceCap port s) :=
  leads_onPd fun c => .of_goes (by simp)

@[simp] theorem execDiscoverIdentity_leads (port : PdId) (s : State) : Leads s (execDiscoverIdentity port s) :=
  leads_onPd fun c => .of_goes (by simp)

@[simp] theorem execDiscoverSvids_leads (port : PdId) (listed : Bool) (s : State) :
    Leads s (execDiscoverSvids port listed s) :=
  leads_onPd fun c => .of_goes (by simp)

@[simp] theorem execDiscoverModes_leads (port : PdId) (svid : BitVec 16) (s : State) :
    Leads s (execDiscoverModes port svid s) :=
  leads_onPd fun c => .of_goes (by simp)

@[simp] theorem execEnterMode_leads (port : PdId) (svid : BitVec 16) (s : State) : Leads s (execEnterMode port svid s) :=
  leads_onPd fun c => .of_goes (by simp)

@[simp] theorem execExitMode_leads (port : PdId) (svid : BitVec 16) (s : State) : Leads s (execExitMode port svid s) :=
  leads_onPd fun c => .of_goes (by simp)

@[simp] theorem execUnstructuredVdm_leads (port : PdId) (s : State) : Leads s (execUnstructuredVdm port s) :=
  leads_onPd fun c => .of_goes (by simp)

@[simp] theorem execBist_leads (port : PdId) (carrier : Bool) (s : State) : Leads s (execBist port carrier s) :=
  leads_onPd fun c => .of_goes (by simp)

@[simp] theorem execCableIdentityReply_leads (port : PdId) (fiveAmp : Bool) (s : State) :
    Leads s (execCableIdentityReply port fiveAmp s) :=
  leads_onCoreIf fun c => .of_goes (by simp)

@[simp] theorem execCableDiscoveryTimeout_leads (port : PdId) (s : State) : Leads s (execCableDiscoveryTimeout port s) :=
  leads_onCoreIf fun c => .of_goes (by simp)

@[simp] theorem execMoistureMeasurement_leads (port : PdId) (kohm : Vector Nat 4) (s : State) :
    Leads s (execMoistureMeasurement port kohm s) :=
  leads_onCoreIf fun c => .of_goes (by simp)

@[simp] theorem execCorrosionTime_leads (port : PdId) (s : State) : Leads s (execCorrosionTime port s) :=
  leads_onCoreIf fun c => .of_goes (by simp)

@[simp] theorem execVbusOvervoltage_leads (port : PdId) (s : State) : Leads s (execVbusOvervoltage port s) :=
  leads_onCoreIf fun c => .of_goes (by simp)

@[simp] theorem execCcSbuOvervoltage_leads (port : PdId) (s : State) : Leads s (execCcSbuOvervoltage port s) :=
  leads_onCoreIf fun c => .of_goes (by simp)

@[simp] theorem execCcSbuOvervoltageRecovery_leads (port : PdId) (s : State) : Leads s (execCcSbuOvervoltageRecovery port s) :=
  leads_onCoreIf fun c => .of_goes (by simp)

@[simp] theorem execVconnTrip_leads (port : PdId) (s : State) : Leads s (execVconnTrip port s) :=
  leads_onCoreIf fun c => .of_goes (by simp)

@[simp] theorem execBmcReadbackMismatch_leads (port : PdId) (s : State) : Leads s (execBmcReadbackMismatch port s) :=
  leads_onCoreIf fun c => .of_goes (by simp)

/-! ### Vault -/

@[simp] theorem execVaultAudit_leads (badCopies : List Nat) (copyLost : Bool) (s : State) :
    Leads s (execVaultAudit badCopies copyLost s) :=
  leads_onGrid fun c => .of_goes (by simp)

@[simp] theorem execLeaseEnd_leads (acct : Nat) (col : Column) (s : State) : Leads s (execLeaseEnd acct col s) :=
  leads_onRun fun c => .of_goes (by simp)

@[simp] theorem execLoweringTimeout_leads (acct : Nat) (col : Column) (s : State) : Leads s (execLoweringTimeout acct col s) :=
  leads_onRun fun c => .of_goes (by simp)

@[simp] theorem execGrantUndeliveredTimeout_leads (acct : Nat) (col : Column) (s : State) :
    Leads s (execGrantUndeliveredTimeout acct col s) :=
  leads_onRun fun c => .of_goes (by simp)

@[simp] theorem execRequestWaitLimit_leads (acct : Nat) (col : Column) (s : State) :
    Leads s (execRequestWaitLimit acct col s) :=
  leads_onRun fun c => .of_goes (by split <;> simp)

@[simp] theorem execDeficitCarryExpiry_leads (col : Column) (s : State) : Leads s (execDeficitCarryExpiry col s) :=
  leads_onRun fun c => .of_goes (by simp)

@[simp] theorem execDischargeOverrun_leads (s : State) : Leads s (execDischargeOverrun s) :=
  leads_onRun fun c => .of_goes (by simp)

@[simp] theorem execBurstWindowEnd_leads (acct : Nat) (s : State) : Leads s (execBurstWindowEnd acct s) :=
  leads_onRun fun c => .of_goes (by simp)

@[simp] theorem execBurstPauseEnd_leads (acct : Nat) (s : State) : Leads s (execBurstPauseEnd acct s) :=
  leads_onRun fun c => .of_goes (by simp)

@[simp] theorem execThrottleGraceEnd_leads (s : State) : Leads s (execThrottleGraceEnd s) :=
  leads_onCoreIf fun c => .of_goes (by simp [kept_foldl])

@[simp] theorem execEnforcementOverdraw_leads (issPair : Int) (s : State) : Leads s (execEnforcementOverdraw issPair s) :=
  leads_onCoreIf fun c => .of_goes (by simp)

@[simp] theorem execEnforcementRelease_leads (s : State) : Leads s (execEnforcementRelease s) :=
  leads_onRun fun c => .of_goes (by simp)

/-! ### Plinth -/

@[simp] theorem execPlinthCycleStart_leads (s : State) : Leads s (execPlinthCycleStart s) :=
  leads_onGrid fun c => .of_goes (by simp)

@[simp] theorem execPollSlotStart_leads (p : Fin 4) (slot : Fin 16) (bad repBad : Bool) (s : State) :
    Leads s (execPollSlotStart p slot bad repBad s) :=
  leads_onCoreIf fun c => .of_goes (by simp)

@[simp] theorem execResponseMiss_leads (p : Fin 4) (addr : Byte) (corrupted : Bool) (s : State) :
    Leads s (execResponseMiss p addr corrupted s) :=
  leads_onCoreIf fun c => .of_goes (by simp)

@[simp] theorem execCollisionReinvite_leads (p : Fin 4) (addr : Byte) (s : State) : Leads s (execCollisionReinvite p addr s) :=
  leads_onRun fun c => .of_goes (by simp)

@[simp] theorem execRequest_leads (p : Fin 4) (f : Frame) (s : State) : Leads s (execRequest p f s) :=
  leads_onResponse fun _ _ _ h => by simp [h]

@[simp] theorem execReturnReq_leads (p : Fin 4) (f : Frame) (s : State) : Leads s (execReturnReq p f s) :=
  leads_onResponse fun _ _ _ h => by simp [h]

@[simp] theorem execBurstReq_leads (p : Fin 4) (f : Frame) (s : State) : Leads s (execBurstReq p f s) :=
  leads_onResponse fun _ _ _ h => by simp [h]

@[simp] theorem execRelease_leads (p : Fin 4) (f : Frame) (s : State) : Leads s (execRelease p f s) :=
  leads_onResponse fun _ _ _ h => by simp [h]

@[simp] theorem execOrder_leads (p : Fin 4) (f : Frame) (s : State) : Leads s (execOrder p f s) :=
  leads_onResponse_taken fun _ _ _ h => by
    dsimp only
    split
    · simpa using h
    · split
      · simpa using h
      · exact h

@[simp] theorem execEnrol_leads (p : Fin 4) (f : Frame) (s : State) : Leads s (execEnrol p f s) := by
  unfold execEnrol
  exact leads_onResponse fun _ _ _ h => by
    rw [kept_ite]
    exact Goes.ite (fun _ => h) fun _ => by simpa using h

@[simp] theorem execStatus_leads (p : Fin 4) (f : Frame) (s : State) : Leads s (execStatus p f s) :=
  leads_onResponse fun _ _ _ h => by simp [h]

@[simp] theorem execRestrictedRecallRepeat_leads (p : Fin 4) (s : State) : Leads s (execRestrictedRecallRepeat p s) :=
  leads_onCoreIf fun c => .of_goes (by simp)

@[simp] theorem execShedMinimumExpiry_leads (p : Fin 4) (s : State) : Leads s (execShedMinimumExpiry p s) :=
  leads_onRun fun c => .of_goes (by simp)

@[simp] theorem execShedLineReadbackMismatch_leads (p : Fin 4) (s : State) : Leads s (execShedLineReadbackMismatch p s) :=
  leads_onCoreIf fun c => .of_goes (by simp)

@[simp] theorem execShedLineUncommanded_leads (p : Fin 4) (s : State) : Leads s (execShedLineUncommanded p s) :=
  leads_onCoreIf fun c => .of_goes (by simp)

@[simp] theorem execShedLineUncommandedCleared_leads (p : Fin 4) (s : State) : Leads s (execShedLineUncommandedCleared p s) :=
  leads_onCoreIf fun c => .of_goes (by simp)

/-! ### Twin -/

@[simp] theorem execLinkTrained_leads (s : State) : Leads s (execLinkTrained s) := leads_onTwin fun c => .of_goes (by simp)

@[simp] theorem execIdentRepeat_leads (s : State) : Leads s (execIdentRepeat s) := leads_onTwin fun c => .of_goes (by simp)

@[simp] theorem execNak_leads (hdr : LinkHdr) (type seq : BitVec 8) (s : State) : Leads s (execNak hdr type seq s) :=
  leads_onTwin fun c => .of_goes (receive_goes _ _ .refl fun d hd => by
    simpa using hd)

@[simp] theorem execIdent_leads (hdr : LinkHdr) (m : IdentMsg) (s : State) : Leads s (execIdent hdr m s) :=
  leads_onTwin fun c => .of_goes (receive_goes _ _ .refl fun d hd => by
    simp [hd])

@[simp] theorem execPromotionComplete_leads (s : State) : Leads s (execPromotionComplete s) :=
  leads_onCoreIf fun c => .of_goes (by simp)

/-- The tick taken from the Lead is no lifecycle change. -/
theorem alignTick_follows (c : Core) (h : HeartbeatMsg) : c.kept.Follows (alignTick c h).kept := by
  simp only [alignTick]
  split <;> exact .inl ⟨rfl, rfl⟩

@[simp] theorem execHeartbeat_leads (crcOk agree : Bool) (h : HeartbeatMsg) (s : State) :
    Leads s (execHeartbeat crcOk agree h s) :=
  leads_onTwin fun c => by
    split
    · exact .of_goes (by simp)
    · refine .trans (k' := (alignTick { c with twn := { c.twn with hb := c.twn.hb + 1, last := some h, lossNow := false } } h).kept)
        (alignTick_follows _ h) (.of_goes ?_)
      dsimp only
      rw [kept_ite]
      refine .ite (fun _ => ?_) fun _ => ?_
      · rw [shareStep_kept]
        refine echoCheck_goes _ (pathCheck_goes _ (mirrorCheck_goes _ _ ?_))
        simp
      · simp

@[simp] theorem execHeartbeatLoss_leads (s : State) : Leads s (execHeartbeatLoss s) := leads_onTwin fun c => .of_goes (by simp)

@[simp] theorem execFencingDelayEnd_leads (s : State) : Leads s (execFencingDelayEnd s) :=
  leads_onCoreIf fun c => .of_goes (by simp)

@[simp] theorem execFencingGapSample_leads (lineAsserted : Bool) (s : State) : Leads s (execFencingGapSample lineAsserted s) :=
  leads_onCoreIf fun c => .of_goes (by simp)

@[simp] theorem execContestSlot_leads (lineLow : Bool) (s : State) : Leads s (execContestSlot lineLow s) :=
  leads_onCoreIf fun c => .of_goes (by simp)

@[simp] theorem execTwTripNAsserted_leads (s : State) : Leads s (execTwTripNAsserted s) :=
  leads_onCore fun c => .of_goes (by simp)

@[simp] theorem execTwTripNReleased_leads (s : State) : Leads s (execTwTripNReleased s) :=
  leads_onCore fun c => .of_goes (by simp)

@[simp] theorem execTripReadbackMismatch_leads (s : State) : Leads s (execTripReadbackMismatch s) :=
  leads_onTwin fun c => .of_goes (by simp)

@[simp] theorem execAttachTimeout_leads (s : State) : Leads s (execAttachTimeout s) :=
  leads_onCoreIf fun c => .of_goes (by simp)

@[simp] theorem execCells_leads (hdr : LinkHdr) (m : CellsMsg) (s : State) : Leads s (execCells hdr m s) :=
  leads_onTwin fun c => .of_goes (receive_goes _ _ .refl fun d hd => by
    simpa using hd)

@[simp] theorem execLedger_leads (hdr : LinkHdr) (m : LedgerMsg) (s : State) : Leads s (execLedger hdr m s) :=
  leads_onTwin fun c => .of_goes (receive_goes _ _ .refl fun d hd => by
    simp [hd])

@[simp] theorem execPooldata_leads (hdr : LinkHdr) (m : PoolMsg) (s : State) : Leads s (execPooldata hdr m s) :=
  leads_onTwin fun c => .of_goes (receive_goes _ _ .refl fun d hd => by
    simpa using hd)

@[simp] theorem execMirror_leads (hdr : LinkHdr) (m : MirrorMsg) (s : State) : Leads s (execMirror hdr m s) :=
  leads_onTwin fun c => .of_goes (receive_goes _ _ .refl fun d hd => by
    simpa using hd)

@[simp] theorem execPolicy_leads (hdr : LinkHdr) (m : PolicyMsg) (s : State) : Leads s (execPolicy hdr m s) :=
  leads_onTwin fun c => .of_goes (receive_goes _ _ .refl fun d hd => by
    simpa using hd)

@[simp] theorem execOrders_leads (hdr : LinkHdr) (m : OrdersMsg) (s : State) : Leads s (execOrders hdr m s) :=
  leads_onTwin fun c => .of_goes (receive_goes _ _ .refl fun d hd => by
    simpa using hd)

@[simp] theorem execControl_leads (hdr : LinkHdr) (m : ControlMsg) (s : State) : Leads s (execControl hdr m s) :=
  leads_onTwin fun c => .of_goes (receive_goes _ _ .refl fun d hd => by
    split
    · simpa using hd
    · simpa using hd
    · simpa using hd
    · simpa using hd
    · split
      · dsimp only
        split <;> simp [hd]
      · exact hd
    · exact hd)

@[simp] theorem execControlEffective_leads (s : State) : Leads s (execControlEffective s) :=
  leads_onTwin fun c => .of_goes (by
    repeat' split
    all_goals simp)

@[simp] theorem execShareRampEnd_leads (s : State) : Leads s (execShareRampEnd s) := leads_onCoreIf fun c => .of_goes (by simp)

@[simp] theorem execShareError_leads (s : State) : Leads s (execShareError s) := leads_onCoreIf fun c => .of_goes (by simp)

@[simp] theorem execTwRefclkLoss_leads (s : State) : Leads s (execTwRefclkLoss s) := leads_onTwin fun c => .of_goes (by simp)

@[simp] theorem execTwPresNChange_leads (asserted : Bool) (s : State) : Leads s (execTwPresNChange asserted s) :=
  leads_onCore fun c => .of_goes (by simp)

/-! ### Orders -/

@[simp] theorem execInputPriorityOrder_leads (m : Master) (v : BitVec 32) (s : State) :
    Leads s (execInputPriorityOrder m v s) :=
  leads_arrive _ _ _

@[simp] theorem execSysFloorOrder_leads (m : Master) (v : BitVec 32) (s : State) : Leads s (execSysFloorOrder m v s) :=
  leads_arrive _ _ _

@[simp] theorem execMainInputCurrentLimitOrder_leads (m : Master) (v : BitVec 32) (s : State) :
    Leads s (execMainInputCurrentLimitOrder m v s) :=
  leads_arrive _ _ _

@[simp] theorem execChargeCurrentCeilingOrder_leads (m : Master) (v : BitVec 32) (s : State) :
    Leads s (execChargeCurrentCeilingOrder m v s) :=
  leads_arrive _ _ _

@[simp] theorem execChargeVoltageCeilingOrder_leads (m : Master) (v : BitVec 32) (s : State) :
    Leads s (execChargeVoltageCeilingOrder m v s) :=
  leads_arrive _ _ _

@[simp] theorem execChargeInhibitOrder_leads (m : Master) (v : BitVec 32) (s : State) :
    Leads s (execChargeInhibitOrder m v s) :=
  leads_arrive _ _ _

@[simp] theorem execLoadSwitchOrder_leads (m : Master) (ch : Fin 8) (v : BitVec 32) (s : State) :
    Leads s (execLoadSwitchOrder m ch v s) :=
  leads_arrive _ _ _

@[simp] theorem execPdSourceEnableOrder_leads (m : Master) (port : PdId) (v : BitVec 32) (s : State) :
    Leads s (execPdSourceEnableOrder m port v s) :=
  leads_arrive _ _ _

@[simp] theorem execTokenPoolCapOrder_leads (m : Master) (v : BitVec 32) (s : State) : Leads s (execTokenPoolCapOrder m v s) :=
  leads_arrive _ _ _

@[simp] theorem execShedOrder_leads (m : Master) (p : Fin 4) (v : BitVec 32) (s : State) : Leads s (execShedOrder m p v s) :=
  leads_arrive _ _ _

@[simp] theorem execDormantInhibitOrder_leads (m : Master) (v : BitVec 32) (s : State) :
    Leads s (execDormantInhibitOrder m v s) :=
  leads_arrive _ _ _

@[simp] theorem execMainExportOrder_leads (v : BitVec 32) (s : State) : Leads s (execMainExportOrder v s) := leads_arrive _ _ _

@[simp] theorem execResetOrder_leads (v : BitVec 32) (s : State) : Leads s (execResetOrder v s) := leads_arrive _ _ _

@[simp] theorem execRestartOrder_leads (m : Master) (v : BitVec 32) (s : State) : Leads s (execRestartOrder m v s) :=
  leads_arrive _ _ _

@[simp] theorem execDormantRequestOrder_leads (v : BitVec 32) (s : State) : Leads s (execDormantRequestOrder v s) :=
  leads_arrive _ _ _

@[simp] theorem execRoleHandoverOrder_leads (v : BitVec 32) (s : State) : Leads s (execRoleHandoverOrder v s) :=
  leads_arrive _ _ _

@[simp] theorem execPlannedDetachOrder_leads (v : BitVec 32) (s : State) : Leads s (execPlannedDetachOrder v s) :=
  leads_arrive _ _ _

@[simp] theorem execReattachOrder_leads (v : BitVec 32) (s : State) : Leads s (execReattachOrder v s) := leads_arrive _ _ _

@[simp] theorem execOwnerHandoverOrder_leads (v : BitVec 32) (s : State) : Leads s (execOwnerHandoverOrder v s) :=
  leads_arrive _ _ _

@[simp] theorem execClearSupervisorOrders_leads (v : BitVec 32) (s : State) : Leads s (execClearSupervisorOrders v s) :=
  leads_arrive _ _ _

@[simp] theorem execResetOrderExecute_leads (s : State) : Leads s (execResetOrderExecute s) :=
  leads_onCoreIf fun c => .of_goes (by simp)

/-! ### Records -/

@[simp] theorem execLogScanEnd_leads (s : State) : Leads s (execLogScanEnd s) :=
  leads_onCoreIf fun c => .of_goes (by
    dsimp only
    split <;> simp)

@[simp] theorem execNvmOperationComplete_leads (ok : Bool) (s : State) : Leads s (execNvmOperationComplete ok s) :=
  leads_onCoreIf fun c => .of_goes (by split <;> simp)

@[simp] theorem execEpochFuseProgrammed_leads (readBackOk : Bool) (s : State) :
    Leads s (execEpochFuseProgrammed readBackOk s) :=
  leads_onCoreIf fun c => .of_goes (by simp)

@[simp] theorem execEraseCreditAccrual_leads (s : State) : Leads s (execEraseCreditAccrual s) :=
  leads_onCoreIf fun c => .of_goes (by simp)

@[simp] theorem execPatinaRecordDue_leads (s : State) : Leads s (execPatinaRecordDue s) :=
  leads_onRun fun c => .of_goes (by simp)

@[simp] theorem execDecryptCommand_leads (v : BitVec 32) (s : State) : Leads s (execDecryptCommand v s) :=
  (keepsOn_decryptCommand v s).leads

@[simp] theorem execDecryptComplete_leads (s : State) : Leads s (execDecryptComplete s) :=
  leads_onCoreIf fun c => .of_goes (by simp)

@[simp] theorem execStagingBegin_leads (len : BitVec 32) (s : State) : Leads s (execStagingBegin len s) :=
  (keepsOn_stagingBegin len s).leads

@[simp] theorem execStagingData_leads (addr : Nat) (data : List Byte) (s : State) : Leads s (execStagingData addr data s) :=
  (keepsOn_stagingData addr data s).leads

@[simp] theorem execStagingEnd_leads (s : State) : Leads s (execStagingEnd s) := (keepsOn_stagingEnd s).leads

@[simp] theorem execStagingAbort_leads (s : State) : Leads s (execStagingAbort s) := (keepsOn_stagingAbort s).leads

@[simp] theorem execProvisioningOrder_leads (cmd : BitVec 32) (hashes : Vector (BitVec 256) 4) (s : State) :
    Leads s (execProvisioningOrder cmd hashes s) :=
  leads_onCore fun c => .of_goes (by simp)

@[simp] theorem execOtpBurnComplete_leads (readBackOk : Bool) (s : State) : Leads s (execOtpBurnComplete readBackOk s) :=
  leads_onCore fun c => .of_goes (by simp)

/-! ### Thermal -/

@[simp] theorem execSensorSample_leads (i : Fin 11) (r : SensorReading) (s : State) : Leads s (execSensorSample i r s) :=
  leads_onCoreIf fun c => .of_goes (by
    dsimp only
    repeat' split
    all_goals simp)

@[simp] theorem execKilnGuardTrip_leads (src : KilnSource) (s : State) : Leads s (execKilnGuardTrip src s) :=
  leads_onCoreIf fun c => .of_goes (by simp)

@[simp] theorem execKilnGuardRelease_leads (s : State) : Leads s (execKilnGuardRelease s) :=
  leads_onCoreIf fun c => .of_goes (by simp)

/-! ### Faults -/

@[simp] theorem execProbeStart_leads (code : BitVec 16) (inst : BitVec 8) (s : State) : Leads s (execProbeStart code inst s) :=
  leads_onCoreIf fun c => .of_goes (by simp)

@[simp] theorem execProbeResult_leads (code : BitVec 16) (inst : BitVec 8) (pass : Bool) (klnSec : Nat) (s : State) :
    Leads s (execProbeResult code inst pass klnSec s) :=
  leads_onCoreIf fun c => .of_goes (goes_foldl (fun _ x hc => alsoEnded_goes _ _ _ x hc) _
    (probeEnded_goes _ _ _ _ (by simp)))

@[simp] theorem execProbeTimeout_leads (code : BitVec 16) (inst : BitVec 8) (s : State) :
    Leads s (execProbeTimeout code inst s) :=
  leads_onCoreIf fun c => .of_goes (goes_foldl (fun _ x hc => notRun_goes x hc) _ (notRun_goes _ (by simp)))

@[simp] theorem execHoldOffExpiry_leads (s : State) : Leads s (execHoldOffExpiry s) :=
  leads_onCoreIf fun c => .of_goes (by simp)

@[simp] theorem execRotationItem_leads (item : Fin 10) (inst : BitVec 8) (pass : Bool) (scrub : Option (BitVec 8))
    (s : State) : Leads s (execRotationItem item inst pass scrub s) :=
  leads_onCoreIf fun c => .of_goes (by split <;> simp)

@[simp] theorem execRotationPeriodEnd_leads (s : State) : Leads s (execRotationPeriodEnd s) :=
  leads_onCoreIf fun c => .of_goes (by simp)

@[simp] theorem execRecordCoalesceExpiry_leads (code : BitVec 16) (inst : BitVec 8) (s : State) :
    Leads s (execRecordCoalesceExpiry code inst s) :=
  leads_onCore fun c => .of_goes (by split <;> simp)

/-! ### Window -/

@[simp] theorem execSnapshotRead_leads (f : WinFrame) (s : State) : Leads s (execSnapshotRead f s) := leads_transact f

@[simp] theorem execIdentity_leads (f : WinFrame) (s : State) : Leads s (execIdentity f s) := leads_transact f

@[simp] theorem execOrderWrite_leads (f : WinFrame) (s : State) : Leads s (execOrderWrite f s) := leads_transact f

@[simp] theorem execW1cAcknowledgeWrite_leads (f : WinFrame) (s : State) : Leads s (execW1cAcknowledgeWrite f s) :=
  leads_transact f

@[simp] theorem execNewmapAcknowledge_leads (mask : BitVec 64) (s : State) : Leads s (execNewmapAcknowledge mask s) :=
  leads_next (.of_goes (by split <;> simp))

@[simp] theorem execAccsel_leads (v : BitVec 32) (s : State) : Leads s (execAccsel v s) := (keepsOn_accsel v s).leads

/-! ### Grid -/

@[simp] theorem execLedgerClose_leads (memoryOk : Bool) (s : State) : Leads s (execLedgerClose memoryOk s) :=
  leads_onGrid fun c => .of_goes (by simp)

/-! ### Lifecycle -/

@[simp] theorem execRstNAsserted_leads (s : State) : Leads s (execRstNAsserted s) := leads_onCore fun c => .of_goes (by simp)

@[simp] theorem execMoscLoss_leads (s : State) : Leads s (execMoscLoss s) := leads_onCoreIf fun c => .of_goes (by simp)

@[simp] theorem execVauxSourceChange_leads (vmain vpack vsys : Nat) (s : State) :
    Leads s (execVauxSourceChange vmain vpack vsys s) :=
  leads_onCoreIf fun c => .of_goes (by simp)

@[simp] theorem execKlnLoss_leads (s : State) : Leads s (execKlnLoss s) := leads_onCoreIf fun c => .of_goes (by simp)

@[simp] theorem execPwmPllLossOfLock_leads (s : State) : Leads s (execPwmPllLossOfLock s) :=
  leads_onCoreIf fun c => .of_goes (by simp)

@[simp] theorem execSystemPllLossOfLock_leads (s : State) : Leads s (execSystemPllLossOfLock s) :=
  leads_onCoreIf fun c => .of_goes (by simp)

@[simp] theorem execLockstepMismatch_leads (s : State) : Leads s (execLockstepMismatch s) :=
  leads_onCoreIf fun c => .of_goes (by simp)

@[simp] theorem execWatchdogKeyWrite_leads (key : BitVec 16) (us : Nat) (s : State) :
    Leads s (execWatchdogKeyWrite key us s) :=
  leads_onCoreIf fun c => .trans (k' := (atUs c us).kept) (.inl ⟨rfl, rfl⟩) (.of_goes (by simp))

@[simp] theorem execWatchdogPeriodBoundary_leads (us : Nat) (s : State) : Leads s (execWatchdogPeriodBoundary us s) :=
  leads_onCoreIf fun c => .trans (k' := (atUs c us).kept) (.inl ⟨rfl, rfl⟩) (.of_goes (by simp))

@[simp] theorem execWatchdogBootTimeout_leads (s : State) : Leads s (execWatchdogBootTimeout s) :=
  leads_onCoreIf fun c => .of_goes (by simp)

@[simp] theorem execDormantWake_leads (src : WakeSource) (s : State) : Leads s (execDormantWake src s) :=
  leads_onCore fun c => .of_goes (by simp)

@[simp] theorem execWatchdogWake_leads (s : State) : Leads s (execWatchdogWake s) := leads_onCoreIf fun c => .of_goes (by simp)

@[simp] theorem execDormantBackstop_leads (s : State) : Leads s (execDormantBackstop s) :=
  leads_onCoreIf fun c => .of_goes (by simp)

@[simp] theorem execBackstopWakeTimeout_leads (s : State) : Leads s (execBackstopWakeTimeout s) :=
  leads_onCoreIf fun c => .of_goes (by simp)

@[simp] theorem execPllLockTimeout_leads (sysLocked : Bool) (s : State) : Leads s (execPllLockTimeout sysLocked s) :=
  leads_onCoreIf fun c => .of_goes (by simp)

end Sys2Proof.Machine
end


section
/-! PROOFS. Every command keeps the rules of the lifecycle: a mode exactly in Run (chapter 01), and Safe Hold left to Reset or Off
(chapter 02). -/

namespace Sys2Proof.Machine

/-! ### Functions that run while a lifecycle state lasts -/

/-- What each of the functions keeps, all of them keep. -/
theorem inState_induct {P : Core → Prop} {c : Core} (st : Life) (fs : List (Core → Core)) (h : ∀ f ∈ fs, ∀ d, P d → P (f d))
    (hc : P c) : P (inState st fs c) := by
  induction fs generalizing c with
  | nil => exact hc
  | cons f fs ih =>
    refine ih (fun g hg => h g (List.mem_cons_of_mem _ hg)) ?_
    dsimp only
    split
    · exact h f List.mem_cons_self c hc
    · exact hc

theorem inState_goes {b : Bool} {k₀ : Kept} {c : Core} (st : Life) (fs : List (Core → Core))
    (h : ∀ f ∈ fs, ∀ d : Core, Goes b k₀ d.kept → Goes b k₀ (f d).kept) (hk : Goes b k₀ c.kept) :
    Goes b k₀ (inState st fs c).kept := inState_induct (P := fun c => Goes b k₀ c.kept) st fs h hk

theorem inState_cons (st : Life) (f : Core → Core) (fs : List (Core → Core)) (c : Core) :
    inState st (f :: fs) c = inState st fs (if c.life.st == st then f c else c) := rfl

theorem inState_append (st : Life) (fs gs : List (Core → Core)) (c : Core) :
    inState st (fs ++ gs) c = inState st gs (inState st fs c) := List.foldl_append

/-! ### The merge tick -/

/-- The steps of a merge tick of Run, behind the merge of the orders. -/
def runRest (pc : BitVec 32) (bad : BitVec 8) (before : Core) : List (Core → Core) :=
  [exportOrderStep, twinApply, rampWeight, applyBands, selectInput, floorStep, limitStep, floorSuspStep, chargeTargets,
    lswGateStep bad, lswFlagStep, lswStep, pdTick, kilnCount, shedTick before, handoverFuse, eventStep, nvmKick, hourTick,
    twinFrames, shadow pc]

theorem runSteps_eq (pc : BitVec 32) (bad : BitVec 8) (before : Core) :
    runSteps pc bad before = noProbeStep :: ([handoverKey] ++ orderMerge :: runRest pc bad before) := rfl

section
variable {b : Bool} {k₀ : Kept} (pc : BitVec 32) (bad : BitVec 8) (before : Core)

/-- What follows the merge of the orders in a tick of Run resets by a raised fault alone. -/
theorem runRest_goes : ∀ f ∈ runRest pc bad before, ∀ c : Core, Goes b k₀ c.kept → Goes b k₀ (f c).kept := by
  intro f hf c hk
  simp only [runRest, List.mem_cons, List.not_mem_nil, or_false] at hf
  rcases hf with rfl | rfl | rfl | rfl | rfl | rfl | rfl | rfl | rfl | rfl | rfl | rfl | rfl | rfl | rfl | rfl | rfl | rfl | rfl |
    rfl | rfl <;> simp [hk]

theorem dormantRest_goes : ∀ f ∈ [kilnCount, hourTick, entryStep, shadow pc], ∀ c : Core,
    Goes b k₀ c.kept → Goes b k₀ (f c).kept := by
  intro f hf c hk
  simp only [List.mem_cons, List.not_mem_nil, or_false] at hf
  rcases hf with rfl | rfl | rfl | rfl <;> simp [hk]

theorem safeHoldRest_goes : ∀ f ∈ [kilnCount, safeSoft, nvmKick, shadow pc], ∀ c : Core,
    Goes b k₀ c.kept → Goes b k₀ (f c).kept := by
  intro f hf c hk
  simp only [List.mem_cons, List.not_mem_nil, or_false] at hf
  rcases hf with rfl | rfl | rfl | rfl <;> simp [hk]

/-- The steps of a merge tick: the Probes that never ran, the merge of the orders and what follows it. -/
theorem mergeSteps_goes {c : Core} {pre post : List (Core → Core)} (hpre : ∀ f ∈ pre, ∀ d : Core, (f d).kept = d.kept)
    (hpost : ∀ f ∈ post, ∀ d : Core, Goes b k₀ d.kept → Goes b k₀ (f d).kept) (hc : c.kept.taken = k₀)
    (hprobe : Goes b k₀ (noProbeStep c).kept.taken) :
    Goes b k₀ (inState k₀.st (noProbeStep :: (pre ++ orderMerge :: post)) c).kept := by
  have hst : c.life.st = k₀.st := congrArg Kept.st hc
  rw [inState_cons, if_pos (by simp [hst]), inState_append, inState_cons]
  refine inState_goes _ _ hpost ?_
  have hmerge := inState_induct (P := fun d => Goes b k₀ d.kept.taken) k₀.st pre
    (fun f hf d hd => by rwa [hpre f hf d]) hprobe
  generalize inState k₀.st pre (noProbeStep c) = d at hmerge ⊢
  split
  · exact orderMerge_goes hmerge
  · rename_i hne
    rcases hmerge with h | h
    · have hd : d.life.st = k₀.st := congrArg Kept.st h
      simp [hd] at hne
    · exact .inr h

end

/-- A merge tick of Run, as it comes to take the pending write. -/
def State.runTick (s : State) : State :=
  { endTick s with core := freeLatches (clearSent (gridTick (usTick (endTick s).core))) }

/-- A merge tick of Dormant, as it comes to take the pending write. -/
def State.dormantTick (s : State) : State :=
  { s with core := freeLatches (clearSent { s.core with
      life := { s.core.life with us := s.core.life.us + 10, tick := s.core.life.tick + 1 } }) }

/-- A merge tick of Safe Hold, as it comes to take the pending write. -/
def State.safeHoldTick (s : State) : State := { s with core := freeLatches (usTick s.core) }

theorem settle_wdg (c : Core) : (settle c).wdg = c.wdg := by
  have hselect : (selectAccount c).wdg = c.wdg := by
    unfold selectAccount
    split <;> rfl
  unfold settle
  dsimp only
  split <;> exact hselect

/-- What a merge tick answers, `c` being what its steps made of the controller and `s` the state that the write left. -/
structure Ticked (s : State) (c : Core) (t : State) : Prop where
  core : t.core = c ∨ t.core = settle c
  pending : t.pending = s.pending
  pend : t.win.pend = s.win.pend

section
variable {s t : State} {c : Core}

theorem Ticked.kept (h : Ticked s c t) : t.core.kept = c.kept := by
  rcases h.core with h | h
  · rw [h]
  · rw [h, settle_kept]

theorem Ticked.st (h : Ticked s c t) : t.core.life.st = c.life.st := congrArg Kept.st h.kept

theorem Ticked.tally (h : Ticked s c t) : t.core.tally = c.tally := by
  rcases h.core with h | h
  · rw [h]
  · rw [h, settle_tally]

theorem Ticked.wdg (h : Ticked s c t) : t.core.wdg = c.wdg := by
  rcases h.core with h | h
  · rw [h]
  · rw [h, settle_wdg]

end

section
variable (pc : BitVec 32) (bad : BitVec 8) (s : State)

theorem tickRun_ticked : Ticked (takeWrite s.runTick)
    (inState .run (runSteps pc bad (endTick s).core) (takeWrite s.runTick).core) (tickRun pc bad s) := by
  simp only [tickRun, State.runTick]
  generalize inState .run _ _ = c
  split
  · exact ⟨.inl rfl, rfl, rfl⟩
  · split
    · exact ⟨.inr rfl, rfl, rfl⟩
    · exact ⟨.inl rfl, rfl, rfl⟩

theorem tickDormant_ticked : Ticked (takeWrite s.dormantTick)
    (inState .dormant [noProbeStep, orderMerge, kilnCount, hourTick, entryStep, shadow pc] (takeWrite s.dormantTick).core)
    (tickDormant pc s) := by
  simp only [tickDormant, State.dormantTick]
  generalize inState .dormant _ _ = c
  split
  · exact ⟨.inr rfl, rfl, rfl⟩
  · exact ⟨.inl rfl, rfl, rfl⟩

theorem tickSafeHold_ticked : Ticked (takeWrite s.safeHoldTick)
    (inState .safeHold [noProbeStep, orderMerge, kilnCount, safeSoft, nvmKick, shadow pc] (takeWrite s.safeHoldTick).core)
    (tickSafeHold pc s) := by
  simp only [tickSafeHold, State.safeHoldTick]
  generalize inState .safeHold _ _ = c
  split
  · exact ⟨.inr rfl, rfl, rfl⟩
  · exact ⟨.inl rfl, rfl, rfl⟩

end

section
variable {b : Bool} {s : State} (pc : BitVec 32) (bad : BitVec 8)

/-- A merge tick of Run counts the grid and takes the orders; a reset it takes only by a fault. -/
theorem tickRun_goes (hst : s.core.life.st = .run)
    (hprobe : Goes b s.runTick.core.kept.taken (noProbeStep (takeWrite s.runTick).core).kept.taken) :
    Goes b s.runTick.core.kept.taken (tickRun pc bad s).core.kept := by
  have hrun : s.runTick.core.kept.taken.st = .run := by
    have h : s.runTick.core.kept.taken.st = (endTick s).core.kept.st := rfl
    rw [h, endTick_kept]
    exact hst
  rw [(tickRun_ticked pc bad s).kept, runSteps_eq, ← hrun]
  exact mergeSteps_goes (by simp) (runRest_goes pc bad _) (takeWrite_kept _) hprobe

theorem tickDormant_goes (hst : s.core.life.st = .dormant)
    (hprobe : Goes b s.dormantTick.core.kept.taken (noProbeStep (takeWrite s.dormantTick).core).kept.taken) :
    Goes b s.dormantTick.core.kept.taken (tickDormant pc s).core.kept := by
  have hdorm : s.dormantTick.core.kept.taken.st = .dormant := hst
  rw [(tickDormant_ticked pc s).kept, ← hdorm]
  exact mergeSteps_goes (pre := []) (by simp) (dormantRest_goes pc) (takeWrite_kept _) hprobe

theorem tickSafeHold_goes (hst : s.core.life.st = .safeHold)
    (hprobe : Goes b s.safeHoldTick.core.kept.taken (noProbeStep (takeWrite s.safeHoldTick).core).kept.taken) :
    Goes b s.safeHoldTick.core.kept.taken (tickSafeHold pc s).core.kept := by
  have hsafe : s.safeHoldTick.core.kept.taken.st = .safeHold := hst
  rw [(tickSafeHold_ticked pc s).kept, ← hsafe]
  exact mergeSteps_goes (pre := []) (by simp) (safeHoldRest_goes pc) (takeWrite_kept _) hprobe

/-- A Probe that never ran may raise any fault. -/
theorem noProbeStep_takeWrite_goes (u : State) : Goes true u.core.kept.taken (noProbeStep (takeWrite u).core).kept.taken := by
  rw [← takeWrite_kept u]
  exact (noProbeStep_goes .refl).taken

end

@[simp] theorem execMergeTick_leads (pc : BitVec 32) (tw : BitVec 4) (bad : BitVec 8) (s : State) :
    Leads s (execMergeTick pc tw bad s) := by
  let u : State := { s with core := { s.core with pins := { s.core.pins with twShed := tw } } }
  have hu : ∀ {k k' : Kept}, k.st = s.core.kept.st ∧ k.mode = s.core.kept.mode → Goes true k k' → s.core.kept.Follows k' :=
    fun hk h => Kept.Follows.trans (.inl hk) (.of_goes h)
  refine leads_next (afterReset_follows ?_)
  dsimp only
  split
  · rename_i hst
    refine hu ?_ (tickRun_goes (s := u) pc bad hst (noProbeStep_takeWrite_goes _))
    have hst : (endTick u).core.kept.st = u.core.kept.st := by rw [endTick_kept]
    have hmode : (endTick u).core.kept.mode = u.core.kept.mode := by rw [endTick_kept]
    exact ⟨hst, hmode⟩
  · rename_i hst
    refine hu ?_ (tickDormant_goes (s := u) pc hst (noProbeStep_takeWrite_goes _))
    exact ⟨rfl, rfl⟩
  · rename_i hst
    refine hu ?_ (tickSafeHold_goes (s := u) pc hst (noProbeStep_takeWrite_goes _))
    exact ⟨rfl, rfl⟩
  · exact .inl ⟨rfl, rfl⟩

/-! ### Commands that keep the lifecycle's rules -/

/-- A mode stands exactly in Run (R20). -/
def Kept.lawful (k : Kept) : Prop := k.st = .run ↔ k.mode ≠ .none

/-- Run with a mode, or a reset taken. -/
def Kept.decided (k : Kept) : Prop := (k.st = .run ∧ k.mode ≠ .none) ∨ k.isReset

/-- From `k` to `k'` the mode stays exactly in Run, and Safe Hold is left to Reset or Off alone. -/
structure Kept.Sound (k k' : Kept) : Prop where
  lawful : k.lawful → k'.lawful
  safeHold : k.st = .safeHold → k'.st = .safeHold ∨ k'.st = .reset ∨ k'.st = .off

section
variable {b : Bool} {k k' : Kept}

theorem Kept.isReset.lawful (h : k.isReset) : k.lawful := by
  obtain ⟨hst, hmode⟩ := h
  simp [Kept.lawful, hst, hmode]

theorem Kept.decided.lawful (h : k.decided) : k.lawful := by
  rcases h with ⟨hst, hmode⟩ | h
  · simp [Kept.lawful, hst, hmode]
  · exact h.lawful

theorem Kept.decided.goes (h : k.decided) (hg : Goes b k k') : k'.decided := by
  rcases hg with rfl | ⟨-, hg⟩
  · exact h
  · exact .inr hg

theorem Kept.Follows.sound (h : k.Follows k') : k.Sound k' := by
  rcases h with ⟨hst, hmode⟩ | h
  · exact ⟨fun hk => by rwa [Kept.lawful, hst, hmode], fun hs => .inl (hst.trans hs)⟩
  · exact ⟨fun _ => h.lawful, fun _ => .inr (.inl h.1)⟩

/-- Outside Safe Hold the rule of the mode is all there is to keep. -/
theorem Kept.Sound.of_lawful (hs : k.st ≠ .safeHold) (h : k.lawful → k'.lawful) : k.Sound k' := ⟨h, fun h => absurd h hs⟩

end

/-! ### The mode decision -/

theorem candidate_ne_none (c : Core) (i : Int) : candidate c i ≠ .none := by
  have hband : ∀ m, bandMode m ≠ .none := by
    intro m
    cases m <;> decide
  unfold candidate
  split
  · decide
  · split
    · decide
    · split
      · exact hband _
      · split
        · decide
        · split
          · decide
          · exact hband _

theorem decideMode_st (l : LifeG) (m : Mode) : (decideMode l m).st = l.st := by
  unfold decideMode
  repeat' split
  all_goals rfl

/-- A decision leaves a mode where one stood, or where it acts without dwell. -/
theorem decideMode_mode_ne_none {l : LifeG} {m : Mode} (hm : m ≠ .none) (hl : l.mode ≠ .none ∨ l.modeNow = true) :
    (decideMode l m).mode ≠ .none := by
  unfold decideMode
  split
  · rename_i h
    exact h ▸ hm
  · split
    · exact hm
    · rename_i h
      have hl : l.mode ≠ .none := hl.resolve_right (by simp_all)
      split
      · split
        · exact hm
        · exact hl
      · exact hl

/-- In Run a mode decision leaves a mode, or a reset. -/
theorem modeStep_decided {c : Core} (i : Int) (hst : c.kept.st = .run) (hm : c.kept.mode ≠ .none ∨ c.kept.modeNow = true) :
    (modeStep c i).kept.decided := by
  have hmode : ∀ d : Core, d.life = decideMode c.life (candidate c i) → d.kept.decided := fun d hd =>
    .inl ⟨by
      rw [Core.kept, hd, decideMode_st]
      exact hst, by
      rw [Core.kept, hd]
      exact decideMode_mode_ne_none (candidate_ne_none c i) hm⟩
  refine Kept.decided.goes (b := true)
    (hmode { c with life := decideMode c.life (candidate c i), meas := { c.meas with ispDec := i } } rfl)
    (chargeDecision_goes ?_)
  simp

/-! ### Start, Boot and Reset -/

/-- Every next state of the answer is one that the lifecycle's rules allow after this one. -/
def Allows (s : State) (r : Res) : Prop := ∀ t, r = .next t → s.core.kept.Sound t.core.kept

section
variable {s : State}

theorem Leads.allows {r : Res} (h : Leads s r) : Allows s r := fun t ht => (h t ht).sound

theorem allows_next {t : State} (h : s.core.kept.Sound t.core.kept) : Allows s (.next t) := by
  rintro _ ⟨⟩
  exact h

theorem allows_stays : Allows s (.next s) := leads_stays.allows

end

theorem execStartSourceQualifies_allows (vmain vpack vsys : Nat) (high : Bool) (s : State) :
    Allows s (execStartSourceQualifies vmain vpack vsys high s) := by
  unfold execStartSourceQualifies
  dsimp only
  split
  · rename_i h
    have hoff : s.core.life.st = .off := by simp_all
    have hboot : ∀ d : Core, d.life.mode = .none → (pinReset (bootStart d high)).kept.lawful := by
      intro d hd
      have hb : (bootStart d high).kept.lawful := by simp [Kept.lawful, Core.kept, bootStart, hd]
      exact ((Kept.Follows.of_goes (pinReset_goes .refl)).sound).lawful hb
    exact allows_next (.of_lawful (by simp [Core.kept, hoff]) fun _ => hboot _ rfl)
  · exact allows_stays

theorem execVauxLoss_allows (s : State) : Allows s (execVauxLoss s) := by
  unfold execVauxLoss
  split
  · exact allows_stays
  · have hoff : (offCore s.core).kept.st = .off ∧ (offCore s.core).kept.mode = .none := ⟨rfl, rfl⟩
    obtain ⟨hst, hmode⟩ := hoff
    refine allows_next ⟨fun _ => ?_, fun _ => .inr (.inr hst)⟩
    show Kept.lawful (offCore s.core).kept
    simp [Kept.lawful, hst, hmode]

/-- Reset is left for Boot. -/
theorem leaveReset_allows {s : State} {c : Core} (high : Bool) (h : s.core.kept = c.kept) :
    Allows s (.next (leaveReset s c high)) := by
  unfold leaveReset
  split
  · rename_i hl
    have hreset : c.life.st = .reset := by simp_all
    have hst : s.core.kept.st = .reset := (congrArg Kept.st h).trans hreset
    refine allows_next (.of_lawful (by simp [hst]) fun hk => ?_)
    have hmode : c.life.mode = .none := by
      have hmode : s.core.kept.mode = .none := by simpa [Kept.lawful, hst] using hk
      exact (congrArg Kept.mode h).symm.trans hmode
    show Kept.lawful (bootStart c high).kept
    simp [Kept.lawful, Core.kept, bootStart, hmode]
  · exact (leads_next (.inl ⟨congrArg Kept.st h.symm, congrArg Kept.mode h.symm⟩)).allows

theorem execResetRelease_allows (high : Bool) (s : State) : Allows s (execResetRelease high s) := by
  unfold execResetRelease
  split
  · exact leaveReset_allows high rfl
  · exact allows_stays

theorem execRstNReleased_allows (high : Bool) (s : State) : Allows s (execRstNReleased high s) := leaveReset_allows high rfl

theorem execMoscRestored_allows (high : Bool) (s : State) : Allows s (execMoscRestored high s) := leaveReset_allows high rfl

/-! ### Run, Safe Hold and Dormant -/

theorem configure_st (c : Core) (b : BootRead) (m : Maquette) (fromB : Bool) (ra rb : Nat) :
    (configure c b m fromB ra rb).kept.st = .run ∧ (configure c b m fromB ra rb).kept.modeNow = true := by
  simp [configure]

/-- The steps of Run entry before the first mode decision. -/
def entrySteps (b : BootRead) : List (Core → Core) :=
  [fun c => (entryCodes c).foldl (latchAtRun b) c, fun c => if b.keyTestOk then c else fault c 0x1A02 0, startBlocks]

/-- The steps of Run entry after the first mode decision. -/
def settledSteps : List (Core → Core) :=
  [watchdogAtRun, burnsAtRun, recordsAtRun, fun c => if c.life.rstCause != 0 then attend c 0 else c]

theorem runEntry_eq (c : Core) (b : BootRead) (m : Maquette) (fromB : Bool) (ra rb : Nat) : runEntry c b m fromB ra rb =
    inState .run (entrySteps b ++ (fun c => modeStep c b.iPack) :: settledSteps) (configure c b m fromB ra rb) := rfl

theorem entrySteps_goes {k₀ : Kept} (b : BootRead) :
    ∀ f ∈ entrySteps b, ∀ c : Core, Goes true k₀ c.kept → Goes true k₀ (f c).kept := by
  intro f hf c hk
  simp only [entrySteps, List.mem_cons, List.not_mem_nil, or_false] at hf
  rcases hf with rfl | rfl | rfl
  · rw [kept_foldl fun _ _ => latchAtRun_kept _ _ _]
    exact hk
  · simp [hk]
  · exact startBlocks_goes hk

theorem settledSteps_goes {k₀ : Kept} : ∀ f ∈ settledSteps, ∀ c : Core, Goes true k₀ c.kept → Goes true k₀ (f c).kept := by
  intro f hf c hk
  simp only [settledSteps, List.mem_cons, List.not_mem_nil, or_false] at hf
  rcases hf with rfl | rfl | rfl | rfl <;> simp [hk]

/-- Run entry ends in Run with a mode, or in a reset that one of its steps took. -/
theorem runEntry_decided (c : Core) (b : BootRead) (m : Maquette) (fromB : Bool) (ra rb : Nat) :
    (runEntry c b m fromB ra rb).kept.decided := by
  obtain ⟨hst, hnow⟩ := configure_st c b m fromB ra rb
  have hentry := inState_goes .run (entrySteps b) (entrySteps_goes b) (Goes.refl (k := (configure c b m fromB ra rb).kept))
  rw [runEntry_eq, inState_append]
  generalize inState .run (entrySteps b) (configure c b m fromB ra rb) = d at hentry
  have hmode : (if d.life.st == .run then modeStep d b.iPack else d).kept.decided := by
    rcases hentry with h | ⟨-, h⟩
    · have hrun : d.life.st = .run := (congrArg Kept.st h).trans hst
      rw [if_pos (by simpa using hrun)]
      exact modeStep_decided _ hrun (.inr ((congrArg Kept.modeNow h).trans hnow))
    · have hreset : d.life.st = .reset := h.1
      rw [if_neg (by simp [hreset])]
      exact .inr h
  rw [inState_cons]
  exact hmode.goes (inState_goes .run settledSteps settledSteps_goes .refl)

theorem afterReset_decided {c d : Core} (h : d.kept.decided) : (afterReset c d).kept.decided := by
  unfold afterReset
  split
  · exact .inr ⟨rfl, rfl⟩
  · exact h

theorem execRunEntry_allows (b : BootRead) (s : State) : Allows s (execRunEntry b s) := by
  unfold execRunEntry
  dsimp only
  split
  · rename_i h
    have hboot : s.core.life.st = .boot := by simp_all
    split
    · refine allows_next (.of_lawful (by simp [Core.kept, hboot]) fun _ => ?_)
      rw [publish_kept]
      dsimp only
      exact (afterReset_decided (runEntry_decided _ _ _ _ _ _)).lawful
    · exact allows_stays
  · exact allows_stays

theorem safeHoldEntry_kept (c : Core) (b : BootRead) (ra rb : Nat) :
    (safeHoldEntry c b ra rb).kept.st = .safeHold ∧ (safeHoldEntry c b ra rb).kept.mode = c.life.mode := by
  simp [safeHoldEntry]

theorem execSafeHoldEntry_allows (b : BootRead) (s : State) : Allows s (execSafeHoldEntry b s) := by
  unfold execSafeHoldEntry
  dsimp only
  split
  · rename_i h
    have hboot : s.core.life.st = .boot := by simp_all
    split
    · rename_i ra rb _
      obtain ⟨hst, hmode⟩ := safeHoldEntry_kept s.core b ra rb
      refine allows_next (.of_lawful (by simp [Core.kept, hboot]) fun hk => ?_)
      rw [publish_kept]
      have hnone : s.core.life.mode = .none := by simpa [Kept.lawful, Core.kept, hboot] using hk
      dsimp only
      simp [Kept.lawful, hst, hmode, hnone]
    · exact allows_stays
  · exact allows_stays

/-- Dormant is entered without a mode, unless the close that goes before takes a reset. -/
theorem dormantEnter_lawful {c : Core} (hk : c.kept.lawful) : (dormantEnter c).kept.lawful := by
  unfold dormantEnter
  split
  · exact (Kept.Follows.of_goes (closeLedger_goes .refl)).sound.lawful hk
  · exact ⟨nofun, nofun⟩

theorem afterReset_lawful {c d : Core} (h : d.kept.lawful) : (afterReset c d).kept.lawful := by
  unfold afterReset
  split
  · exact ⟨nofun, nofun⟩
  · exact h

theorem allows_dormantEnter {s : State} {p : Core → Bool} (hp : ∀ c, p c = true → dormantMay c = true) :
    Allows s (onCoreIf s p dormantEnter) := by
  by_cases h : p s.core = true
  · have hrun : s.core.life.st = .run := by
      have := hp _ h
      simp_all [dormantMay, inRun]
    rw [onCoreIf_pos _ _ _ h, onCore_next]
    refine allows_next (.of_lawful (by simp [Core.kept, hrun]) fun hk => ?_)
    dsimp only
    exact afterReset_lawful (dormantEnter_lawful hk)
  · rw [onCoreIf_neg _ _ _ (by simpa using h)]
    exact allows_stays

theorem execDormantEntry_allows (s : State) : Allows s (execDormantEntry s) :=
  allows_dormantEnter fun c h => by simp_all

theorem execDormantReentry_allows (s : State) : Allows s (execDormantReentry s) :=
  allows_dormantEnter fun c h => by simp_all

/-- At the lock Run is entered with a mode, unless the decision takes a reset. -/
theorem wakeEnter_lawful (c : Core) (i : Int) (vsys : Nat) : (wakeEnter c i vsys).kept.lawful := by
  have hmode : ∀ d : Core, d.kept.decided → Kept.lawful ({ d with life := { d.life with modeNow := true } } : Core).kept :=
    fun d hd => hd.lawful
  refine hmode _ (modeStep_decided i ?_ (.inr ?_))
  · simp
  · simp

theorem execWakePllLock_allows (iPack : Int) (vsys : Nat) (s : State) : Allows s (execWakePllLock iPack vsys s) := by
  unfold execWakePllLock
  split
  · rename_i h
    have hdorm : s.core.life.st = .dormant := by simp_all
    refine allows_next (.of_lawful (by simp [Core.kept, hdorm]) fun _ => ?_)
    rw [publish_kept]
    exact wakeEnter_lawful _ _ _
  · exact allows_stays

/-- A turn taken leaves state and mode. -/
theorem takeTurn_keeps {l l' : LifeG} {e : GridEvent} {now : Bool} (h : takeTurn l e = some (l', now)) :
    l'.st = l.st ∧ l'.mode = l.mode := by
  unfold takeTurn at h
  split at h
  · cases h
    exact ⟨rfl, rfl⟩
  · split at h
    · cases h
      exact ⟨rfl, rfl⟩
    · cases h

theorem execModeDecision_allows (i : Int) (s : State) : Allows s (execModeDecision i s) := by
  unfold execModeDecision onGrid
  split
  · rename_i hrun
    have hrun : s.core.life.st = .run := (inRun_iff _).1 hrun
    split
    · rename_i l now hl
      obtain ⟨hst, hmode⟩ := takeTurn_keeps hl
      refine allows_next (.of_lawful (by simp [Core.kept, hrun]) fun hk => ?_)
      have hne : s.core.life.mode ≠ .none := by simpa [Kept.lawful, Core.kept, hrun] using hk
      have hd := afterReset_decided (c := s.core) (modeStep_decided (c := { s.core with life := l }) i (hst.trans hrun)
        (.inl (hmode.trans_ne hne)))
      split
      · rw [publish_kept]
        exact hd.lawful
      · exact hd.lawful
    · exact allows_stays
  · exact allows_stays

/-- No command breaks the lifecycle's rules. -/
theorem exec_allows (i : Instr) (s : State) : Allows s (exec i s) := by
  cases i with
  | startSourceQualifies vmain vpack vsys high => exact execStartSourceQualifies_allows vmain vpack vsys high s
  | vauxLoss => exact execVauxLoss_allows s
  | resetRelease high => exact execResetRelease_allows high s
  | rstNReleased high => exact execRstNReleased_allows high s
  | moscRestored high => exact execMoscRestored_allows high s
  | runEntry b => exact execRunEntry_allows b s
  | safeHoldEntry b => exact execSafeHoldEntry_allows b s
  | dormantEntry => exact execDormantEntry_allows s
  | dormantReentry => exact execDormantReentry_allows s
  | wakePllLock i vsys => exact execWakePllLock_allows i vsys s
  | modeDecision i => exact execModeDecision_allows i s
  | _ =>
    refine Leads.allows ?_
    dsimp only [exec]
    simp

theorem step_sound {s t : State} (h : step s = .next t) : s.core.kept.Sound t.core.kept := by
  rcases step_next_cases h with ⟨-, rfl⟩ | ⟨i, r, -, he⟩
  · exact Kept.Follows.sound (.inl ⟨rfl, rfl⟩)
  · exact exec_allows i { s with pending := r } t he

end Sys2Proof.Machine

open Sys2Proof Sys2Proof.Machine

/-- Settles O20: every command leads from a lawful lifecycle record to a lawful one. -/
theorem aModeExactlyInRun : Obligations.AModeExactlyInRun :=
  fun _ _ hs h => (step_sound h).lawful hs

/-- Settles O21: no command leads from Safe Hold to another state than Reset and Off. -/
theorem safeHoldIsLeftByResetOrOff : Obligations.SafeHoldIsLeftByResetOrOff :=
  fun _ _ hs h => (step_sound h).safeHold hs
end


section
/-! PROOFS. Where no image raises a fault to class D: what the orders, a close and an audit count, and the faults that stand after
them (chapters 10, 11 and 13). -/

namespace Sys2Proof.Machine

/-! ### Faults that no image raises -/

section
variable {c : Core}

theorem kept_of_goes {k k' : Kept} (hn : ¬ k.raises) (h : Goes false k k') : k' = k := by
  rcases h with h | ⟨h | h, -⟩
  · exact h
  · cases h
  · exact absurd h hn

theorem counts_foldl {α : Type} {f : Core → α → Core} (hk : ∀ d x, ¬ d.kept.raises → (f d x).kept = d.kept)
    (hc : ∀ d x, ¬ d.kept.raises → (f d x).tally.counts = d.tally.counts) (l : List α) (hn : ¬ c.kept.raises) :
    (l.foldl f c).tally.counts = c.tally.counts := by
  induction l generalizing c with
  | nil => rfl
  | cons x l ih => exact (ih (by rwa [hk c x hn])).trans (hc c x hn)

@[simp] theorem latchPut_counts (code : BitVec 16) (inst : BitVec 8) (cls : FCls) (p : ProbeSt) :
    (latchPut c code inst cls p).tally.counts = c.tally.counts := by
  rw [latchPut_eq]
  rfl

@[simp] theorem queueProbe_counts (code : BitVec 16) (inst : BitVec 8) :
    (queueProbe c code inst).tally.counts = c.tally.counts := by
  rw [queueProbe_eq]
  rfl

@[simp] theorem clearActive_counts (code : BitVec 16) (inst : BitVec 8) :
    (clearActive c code inst).tally.counts = c.tally.counts := (rfl)

/-- A class below D acts on nothing that is counted. -/
theorem classAction_tally (cls : FCls) (cause ph : Nat) (code : BitVec 16) (h : cls ≠ .d) :
    (classAction c cls cause ph code).tally = c.tally := by
  cases cls with
  | a => simp [classAction]
  | b => rfl
  | c => rfl
  | d => exact absurd rfl h

/-- A fault that no image raises to class D keeps the lifecycle (R81). -/
@[simp] theorem faultWith_kept (code : BitVec 16) (inst : BitVec 8) (row : FCls) (p : ProbeSt) (probe : Bool) (cause ph : Nat)
    (hn : ¬ c.kept.raises) (hrow : row ≠ .d) : (faultWith c code inst row p probe cause ph).kept = c.kept :=
  kept_of_goes hn (faultWith_goes _ _ _ _ _ _ _ .refl (.inr hrow))

theorem classInForce_ne (code : BitVec 16) {row : FCls} (hn : ¬ c.kept.raises) (hrow : row ≠ .d) :
    classInForce c code row ≠ .d := fun hd => hn (raises_of_classInForce hrow hd)

/-- A fault that no image raises to class D counts nothing. -/
@[simp] theorem faultWith_counts (code : BitVec 16) (inst : BitVec 8) (row : FCls) (p : ProbeSt) (probe : Bool) (cause ph : Nat)
    (hn : ¬ c.kept.raises) (hrow : row ≠ .d) : (faultWith c code inst row p probe cause ph).tally.counts = c.tally.counts := by
  unfold faultWith
  dsimp only
  rw [noteInst_tally, exportFault_tally, raisedC_tally, classAction_tally _ _ _ _ (classInForce_ne code hn hrow)]
  split <;> simp

@[simp] theorem fault_kept (code : BitVec 16) (inst : BitVec 8) (hn : ¬ c.kept.raises) (hrow : (rowClass code).getD .b ≠ .d) :
    (fault c code inst).kept = c.kept := faultWith_kept _ _ _ _ _ _ _ hn hrow

@[simp] theorem fault_counts (code : BitVec 16) (inst : BitVec 8) (hn : ¬ c.kept.raises) (hrow : (rowClass code).getD .b ≠ .d) :
    (fault c code inst).tally.counts = c.tally.counts := faultWith_counts _ _ _ _ _ _ _ hn hrow

/-! ### Orders -/

@[simp] theorem refusePack_counts (hn : ¬ c.kept.raises) : (refusePack c).tally.counts = c.tally.counts := by
  simp [refusePack, hn, rowClass, faultRows]

@[simp] theorem cycleStart_counts (hn : ¬ c.kept.raises) : (cycleStart c).tally.counts = c.tally.counts := by
  simp only [cycleStart, tally_ite]
  repeat' split
  all_goals simp [hn]

@[simp] theorem chargeRestart_counts (hn : ¬ c.kept.raises) : (chargeRestart c).tally.counts = c.tally.counts := by
  simp [chargeRestart, hn]

@[simp] theorem command_counts (k : Nat) (v : BitVec 32) (hn : ¬ c.kept.raises) :
    (command c k v).tally.counts = c.tally.counts := by
  unfold command
  split <;> simp [hn]

@[simp] theorem runCommands_counts (l : List Arrived) (hn : ¬ c.kept.raises) :
    (runCommands c l).tally.counts = c.tally.counts := by
  refine counts_foldl (fun d a hd => ?_) (fun d a hd => ?_) l hn
  · split
    · exact kept_of_goes hd (command_goes a.slot a.v .refl)
    · rfl
  · split
    · exact command_counts a.slot a.v hd
    · rfl

theorem orderMerge_counts (hn : ¬ c.kept.raises) : (orderMerge c).tally.counts = c.tally.counts := by
  refine (runCommands_counts _ ?_).trans ?_
  · have htaken : ¬ c.kept.taken.raises := hn
    simpa [kept_foldl, kept_taken] using htaken
  · simp [tally_foldl]

/-! ### The closes -/

@[simp] theorem closeFactor_kept (hn : ¬ c.kept.raises) : (closeFactor c).kept = c.kept := kept_of_goes hn (closeFactor_goes .refl)

@[simp] theorem closeFactor_counts (hn : ¬ c.kept.raises) : (closeFactor c).tally.counts = c.tally.counts := by
  simp [closeFactor, hn, rowClass, faultRows, apply_ite Tally.counts]

@[simp] theorem pulseClose_kept (hn : ¬ c.kept.raises) : (pulseClose c).kept = c.kept := kept_of_goes hn (pulseClose_goes .refl)

@[simp] theorem pulseClose_counts (hn : ¬ c.kept.raises) : (pulseClose c).tally.counts = c.tally.counts := by
  simp only [pulseClose, tally_mk, mk_tally]
  exact counts_foldl (fun d n hd => (fault_kept _ _ (by simpa using hd) (by decide)).trans (chiselPhase_kept d n 4))
    (fun d n hd => (fault_counts _ _ (by simpa using hd) (by decide)).trans (congrArg _ (chiselPhase_tally d n 4))) _ hn

@[simp] theorem inputClosure_kept (hn : ¬ c.kept.raises) : (inputClosure c).kept = c.kept :=
  kept_of_goes hn (inputClosure_goes .refl)

@[simp] theorem inputClosure_counts (hn : ¬ c.kept.raises) : (inputClosure c).tally.counts = c.tally.counts := by
  unfold inputClosure
  refine (counts_foldl (fun d i hd => ?_) (fun d i hd => ?_) _ ?_).trans ?_
  · exact (fault_kept _ _ (by simpa using hd) (by decide)).trans (by simp)
  · exact (fault_counts _ _ (by simpa using hd) (by decide)).trans (by simp)
  · simpa using hn
  · simp

@[simp] theorem sysClosure_kept (hn : ¬ c.kept.raises) : (sysClosure c).kept = c.kept := kept_of_goes hn (sysClosure_goes .refl)

/-- The close of the system bus books charge, and numbers nothing. -/
@[simp] theorem sysClosure_closeNo (hn : ¬ c.kept.raises) : (sysClosure c).ldg.closeNo = c.ldg.closeNo := by
  unfold sysClosure
  split
  · rfl
  · rename_i v0 _
    have hbook : (bookDerived (bookInjected c) v0).ldg.closeNo = c.ldg.closeNo := by
      unfold bookDerived bookInjected
      repeat' split
      all_goals rfl
    have hcount : ∀ {d e : Core}, d.tally.counts = e.tally.counts → e.ldg.closeNo = c.ldg.closeNo →
        d.ldg.closeNo = c.ldg.closeNo := fun hd he => (congrArg Tally.closeNo hd).trans he
    dsimp only
    split
    · refine hcount ((counts_foldl (fun _ _ _ => by simp) (fun _ _ _ => by simp) _ ?_).trans
        (faultWith_counts _ _ _ _ _ _ _ ?_ (by decide))) hbook
      · simp [hn]
      · simp [hn]
    · exact hbook

end

/-- The increments of a channel start anew. -/
def LdgChan.closed (x : LdgChan) : Prop := x.inPrev = x.inQ ∧ x.outPrev = x.outQ

/-- Every channel's increments start anew. -/
def Tally.closed (t : Tally) : Prop := ∀ x ∈ t.ch.toList, x.closed

/-- The close numbered, every channel's increments started anew, and a conversion cycle begun (R189, R263). -/
structure Tally.Cycled (n : BitVec 32) (t : Tally) : Prop where
  closeNo : t.closeNo = n
  closed : t.closed
  balSw : t.balSw = 0
  started : t.started = true

section
variable {n : BitVec 32} {c : Core}

theorem closed_vmap {t : Tally} {v : Vector LdgChan 8} {f : Nat → LdgChan → LdgChan} (hv : t.ch = vmap f v)
    (hf : ∀ i, ∀ x ∈ v.toList, (f i x).closed) : t.closed := by
  intro y hy
  rw [hv] at hy
  obtain ⟨i, hi, rfl⟩ := List.mem_iff_getElem.1 hy
  have h8 : i < 8 := by simpa using hi
  simpa using hf i v[i] (by simp)

theorem closeMarks_closed : (closeMarks c).tally.closed := closed_vmap rfl fun _ _ _ => ⟨rfl, rfl⟩

theorem closures_closeNo (hn : ¬ c.kept.raises) :
    (closeFactor (pulseClose (inputClosure (sysClosure c)))).ldg.closeNo = c.ldg.closeNo := by
  have hsys : (sysClosure c).kept = c.kept := sysClosure_kept hn
  have hinp : (inputClosure (sysClosure c)).kept = c.kept := by simp [hsys, hn]
  have hpulse : (pulseClose (inputClosure (sysClosure c))).kept = c.kept := by simp [hinp, hn]
  have hcount : (closeFactor (pulseClose (inputClosure (sysClosure c)))).tally.counts = (sysClosure c).tally.counts := by
    simp [hpulse, hinp, hsys, hn]
  exact (congrArg Tally.closeNo hcount).trans (sysClosure_closeNo hn)

/-- A close numbers itself and starts every channel's increments anew (R263). -/
theorem closeLedger_closes (hn : ¬ c.kept.raises) :
    (closeLedger c).tally.closeNo = c.ldg.closeNo + 1 ∧ (closeLedger c).tally.closed := by
  unfold closeLedger
  dsimp only
  rw [closeFrames_tally]
  refine ⟨congrArg (· + 1) ?_, closeMarks_closed⟩
  have hmode : ∀ d : Core, (modeBook d).ldg.closeNo = d.ldg.closeNo := fun d => congrArg Tally.closeNo (modeBook_tally d)
  rw [hmode, closures_closeNo]
  exact hn

/-! ### The cycle behind a close -/

variable {d : Core}

theorem Tally.Cycled.of_tally (h : Tally.Cycled n c.tally) (hd : d.tally = c.tally) : Tally.Cycled n d.tally := hd ▸ h

theorem Tally.Cycled.ite {p : Prop} [Decidable p] (h : Tally.Cycled n c.tally) (h' : Tally.Cycled n d.tally) :
    Tally.Cycled n (if p then c else d).tally := by
  split
  · exact h
  · exact h'

theorem cycleBegin_cycled (hno : c.ldg.closeNo = n) (hc : c.tally.closed) : Tally.Cycled n (cycleBegin c).tally :=
  ⟨hno, hc, rfl, rfl⟩

/-- A checkpoint's values enter every accumulator and its mark alike. -/
theorem addBase_cycled (k : Checkpoint) (h : Tally.Cycled n c.tally) : Tally.Cycled n (addBase c k).tally where
  closeNo := h.closeNo
  closed := closed_vmap rfl fun i x hx => by
    obtain ⟨hin, hout⟩ := h.closed x hx
    exact ⟨congrArg (· + _) hin, congrArg (· + _) hout⟩
  balSw := h.balSw
  started := h.started

theorem zeroAccumulators_cycled (h : Tally.Cycled n c.tally) : Tally.Cycled n (zeroAccumulators c).tally where
  closeNo := h.closeNo
  closed := closed_vmap rfl fun _ _ _ => ⟨rfl, rfl⟩
  balSw := h.balSw
  started := h.started

theorem restoreBase_cycled (h : Tally.Cycled n c.tally) : Tally.Cycled n (restoreBase c).tally := by
  unfold restoreBase
  dsimp only
  split
  · exact addBase_cycled (c := { c with ldg := { c.ldg with basePend := false } }) _ h
  · have hzero := zeroAccumulators_cycled (c := { c with ldg := { c.ldg with basePend := false } }) h
    split
    · split
      · exact hzero.of_tally (setRef_tally _ _ _)
      · exact hzero
    · exact h

theorem closeSoc_cycled (entry : Bool) (h : Tally.Cycled n c.tally) : Tally.Cycled n (closeSoc c entry).tally := by
  have hbase : Tally.Cycled n (if entry then restoreBase c else c).tally := .ite (restoreBase_cycled h) h
  unfold closeSoc
  dsimp only
  rw [socUpdate_tally, ocvStep_tally]
  exact .ite (hbase.of_tally (closeDormant_tally _)) hbase

theorem openingClose_cycled (h : Tally.Cycled n c.tally) : Tally.Cycled n (openingClose c).tally := by
  unfold openingClose
  dsimp only
  rw [queueCheckpoint_tally]
  exact zeroAccumulators_cycled (c := c) h

theorem handoverClose_cycled (h : Tally.Cycled n c.tally) : Tally.Cycled n (handoverClose c).tally := by
  unfold handoverClose
  split
  · dsimp only
    split
    · split
      · exact h.of_tally (closingClose_tally c)
      · exact h
    · split
      · exact h.of_tally (closingClose_tally c)
      · exact h
  · exact openingClose_cycled h
  · exact h

theorem closeRecords_cycled (entry dormant : Bool) (h : Tally.Cycled n c.tally) :
    Tally.Cycled n (closeRecords c entry dormant).tally := by
  have hentry : Tally.Cycled n (if entry then entryRecords c else c).tally := .ite (h.of_tally (entryRecords_tally c)) h
  have hrec := handoverClose_cycled (.ite (p := dormant = true) (hentry.of_tally (dormantRecord_tally _)) hentry)
  exact .ite (hrec.of_tally (queueCheckpoint_tally _ _ _)) hrec

/-- The close of the grid (R189, R263). -/
theorem gridClose_cycled (hn : ¬ c.kept.raises) : Tally.Cycled (c.ldg.closeNo + 1) (gridClose c).tally := by
  obtain ⟨hno, hclosed⟩ := closeLedger_closes hn
  unfold gridClose
  dsimp only
  rw [noteClose_tally]
  exact closeRecords_cycled _ _ (closeSoc_cycled _ (cycleBegin_cycled hno hclosed))

end

/-! ### Faults that stand -/

/-- A latch struck once more, to wait for its Probe. -/
def Latch.again (c : Core) (code : BitVec 16) (cls : FCls) (x : Latch) : Latch :=
  { x with
    count := satNat 32 (x.count + 1), last := c.life.us, tick := c.life.imgNo + 1, new_ := true
    active := true, cls := x.cls.worse cls, masked := maskedNow c code
    probe := if x.probe == .lasting then .lasting else .pending }

/-- A latch of a code struck for the first time, to wait for its Probe. -/
def Latch.fresh (c : Core) (code : BitVec 16) (inst : BitVec 8) (cls : FCls) : Latch :=
  { code := code, inst := inst, cls := cls, first := c.life.us, last := c.life.us
    probe := .pending, masked := maskedNow c code, tick := c.life.imgNo + 1 }

section
variable {c : Core} {code : BitVec 16} {inst : BitVec 8}

theorem latchPut_found {i : Nat} (cls : FCls) (h : findLatch c.flt.l.toList code inst = some i) :
    latchPut c code inst cls .pending =
      { c with flt := { c.flt with l := vupd c.flt.l i (Option.map (Latch.again c code cls)) } } := by
  simp only [latchPut, h]
  congr 3
  funext e
  cases e <;> rfl

theorem latchPut_free {i : Nat} (cls : FCls) (h : findLatch c.flt.l.toList code inst = none)
    (hi : c.flt.l.toList.findIdx? Option.isNone = some i) : latchPut c code inst cls .pending =
      { c with flt := { c.flt with
        fcount := c.flt.fcount + 1, l := vupd c.flt.l i fun _ => some (Latch.fresh c code inst cls) } } := by
  simp only [latchPut, h, hi]
  rfl

theorem latchPut_full (cls : FCls) (h : findLatch c.flt.l.toList code inst = none)
    (hi : c.flt.l.toList.findIdx? Option.isNone = none) :
    latchPut c code inst cls .pending = { c with flt := { c.flt with ovfNew := true } } := by
  simp only [latchPut, h, hi]

theorem Latch.again_probe (cls : FCls) (x : Latch) : (x.again c code cls).probe ≠ .transient := by
  unfold Latch.again
  dsimp only
  split <;> decide

/-- A latch put to wait for its Probe stands. -/
theorem latchPut_struck (cls : FCls) : (latchPut c code inst cls .pending).flt.struck code inst := by
  cases hf : findLatch c.flt.l.toList code inst with
  | some i =>
    obtain ⟨hlt, hp, -⟩ := List.findIdx?_eq_some_iff_getElem.1 hf
    have h64 : i < 64 := by simpa using hlt
    rw [latchPut_found cls hf]
    cases hx : c.flt.l[i] with
    | none => simp [hx] at hp
    | some x =>
      obtain ⟨hcode, hinst⟩ : x.code = code ∧ x.inst = inst := by simpa [hx] using hp
      exact .inl ⟨i, h64, x.again c code cls, by simp [hx], hcode, hinst, rfl, Latch.again_probe cls x⟩
  | none =>
    cases hi : c.flt.l.toList.findIdx? Option.isNone with
    | some i =>
      obtain ⟨hlt, -, -⟩ := List.findIdx?_eq_some_iff_getElem.1 hi
      have h64 : i < 64 := by simpa using hlt
      rw [latchPut_free cls hf hi]
      exact .inl ⟨i, h64, Latch.fresh c code inst cls, by simp, rfl, rfl, rfl, nofun⟩
    | none =>
      rw [latchPut_full cls hf hi]
      exact .inr (.inl rfl)

/-- What stands still stands where its latch stands at the same place, and an overflow is kept. -/
theorem FltG.struck.mono {f g : FltG} (h : f.struck code inst)
    (hl : ∀ (i : Nat) (hi : i < 64) (x : Latch), f.l[i] = some x → x.stands code inst →
      ∃ y, g.l[i] = some y ∧ y.stands code inst)
    (ho : f.ovfNew = true ∨ f.ovf = true → g.ovfNew = true ∨ g.ovf = true) : g.struck code inst := by
  rcases h with ⟨i, hi, x, hx, hs⟩ | h
  · exact .inl ⟨i, hi, hl i hi x hx hs⟩
  · exact .inr (ho h)

/-- A latch put to wait for its Probe leaves what stands. -/
theorem FltG.struck.latchPut (k : BitVec 16) (j : BitVec 8) (cls : FCls) (h : c.flt.struck code inst) :
    (latchPut c k j cls .pending).flt.struck code inst := by
  cases hf : findLatch c.flt.l.toList k j with
  | some n =>
    rw [latchPut_found cls hf]
    refine h.mono (fun i hi x hx hs => ?_) id
    obtain ⟨hcode, hinst, hact, hprobe⟩ := hs
    by_cases hn : i = n
    · subst hn
      exact ⟨x.again c k cls, by simp [hx], hcode, hinst, rfl, Latch.again_probe cls x⟩
    · exact ⟨x, by rw [← hx]; exact getElem_vupd_ne _ _ _ _ _ hn, hcode, hinst, hact, hprobe⟩
  | none =>
    cases hn : c.flt.l.toList.findIdx? Option.isNone with
    | some n =>
      obtain ⟨_, hnone, -⟩ := List.findIdx?_eq_some_iff_getElem.1 hn
      rw [latchPut_free cls hf hn]
      refine h.mono (fun i hi x hx hs => ?_) id
      have hne : i ≠ n := by
        rintro rfl
        simp [hx] at hnone
      exact ⟨x, by rw [← hx]; exact getElem_vupd_ne _ _ _ _ _ hne, hs⟩
    | none =>
      rw [latchPut_full cls hf hn]
      exact h.mono (fun i hi x hx hs => ⟨x, hx, hs⟩) fun _ => .inl rfl

/-- A Probe that finds no place is marked as not run, and what stands still stands. -/
theorem FltG.struck.queueProbe (k : BitVec 16) (j : BitVec 8) (h : c.flt.struck code inst) :
    (queueProbe c k j).flt.struck code inst := by
  unfold Machine.queueProbe
  split
  · exact h
  · split
    · exact h
    · split
      · exact h
      · refine h.mono (fun i hi x hx hs => ?_) id
        obtain ⟨hcode, hinst, hact, hprobe⟩ := hs
        by_cases hk : x.code = k ∧ x.inst = j
        · exact ⟨{ x with probe := .notRun }, by simp [updLatch, hx, hk], hcode, hinst, hact, nofun⟩
        · exact ⟨x, by simp [updLatch, hx, hk], hcode, hinst, hact, hprobe⟩

/-- What a fault strikes comes through its class's reaction. -/
theorem faultWith_struck_of (k : BitVec 16) (j : BitVec 8) (row : FCls) (probe : Bool) (cause ph : Nat)
    (hn : ¬ c.kept.raises) (hrow : row ≠ .d)
    (h : (latchPut c k j (classInForce c k row) .pending).flt.struck code inst) :
    (faultWith c k j row .pending probe cause ph).flt.struck code inst := by
  have hrec := struck_of_tally (latchRecord_tally (latchPut c k j (classInForce c k row) .pending) k j) h
  unfold faultWith
  dsimp only
  refine struck_of_tally ((noteInst_tally _ _ _).trans ((exportFault_tally _ _).trans ((raisedC_tally _ _ _ _).trans
    (classAction_tally _ _ _ _ (classInForce_ne k hn hrow))))) ?_
  split
  · exact hrec.queueProbe k j
  · exact hrec

/-- A fault that no image raises to class D stands. -/
theorem faultWith_struck (row : FCls) (probe : Bool) (cause ph : Nat) (hn : ¬ c.kept.raises) (hrow : row ≠ .d) :
    (faultWith c code inst row .pending probe cause ph).flt.struck code inst :=
  faultWith_struck_of _ _ _ _ _ _ hn hrow (latchPut_struck _)

/-- It leaves the faults that stand. -/
theorem FltG.struck.faultWith (k : BitVec 16) (j : BitVec 8) (row : FCls) (probe : Bool) (cause ph : Nat)
    (hn : ¬ c.kept.raises) (hrow : row ≠ .d) (h : c.flt.struck code inst) :
    (faultWith c k j row .pending probe cause ph).flt.struck code inst :=
  faultWith_struck_of _ _ _ _ _ _ hn hrow (h.latchPut _ _ _)

end

/-! ### The audit -/

/-- The outcome of the checks noted (R341). -/
def Core.checked (c : Core) (bad : List Nat) : Core :=
  { c with vlt := { c.vlt with
    pass := auditFails c bad == 0, failed := auditFails c bad
    noRaise := if auditFails c bad = 0 then c.vlt.noRaise - 1 else 10 } }

theorem auditFails_of_ne_nil (c : Core) {bad : List Nat} (h : bad ≠ []) : auditFails c bad = 2 := by
  simp [auditFails, h]

/-- The totals of both column sets built from the accounts again. -/
def Core.rebuilt (c : Core) : Core :=
  let v := rebuild (rebuild c.vlt .supply) .ret
  { c with vlt := { v with eCommit := committedAt v v.commitAt } }

/-- Every account named recalled to nothing, where no twin decides. -/
def Core.recalledBad (c : Core) (bad : List Nat) : Core :=
  if c.attached then c else bad.foldl (fun c a => recallTo (recallTo c a .supply 0) a .ret 0) c

section
variable {c : Core} (bad : List Nat)

@[simp] theorem rebuilt_tally (c : Core) : c.rebuilt.tally = c.tally := (rfl)

@[simp] theorem rebuilt_kept (c : Core) : c.rebuilt.kept = c.kept := (rfl)

@[simp] theorem checked_kept : (c.checked bad).kept = c.kept := (rfl)

@[simp] theorem recalledBad_tally : (c.recalledBad bad).tally = c.tally := by
  unfold Core.recalledBad
  split
  · rfl
  · exact tally_foldl (fun _ _ => by simp) _ _

@[simp] theorem recalledBad_kept : (c.recalledBad bad).kept = c.kept := by
  unfold Core.recalledBad
  split
  · rfl
  · exact kept_foldl (fun _ _ => by simp) _ _

/-- The checks note their outcome; a failed check rebuilds the totals, recalls what is bad and strikes 0x1301 (R341). -/
theorem auditChecks_eq : auditChecks c bad = if auditFails c bad = 0 then c.checked bad
    else faultWith ((c.checked bad).rebuilt.recalledBad bad) 0x1301 0 .b .pending true 3 0 := rfl

variable (hn : ¬ c.kept.raises)
include hn

theorem auditChecks_counts : (auditChecks c bad).tally.counts = (c.checked bad).tally.counts := by
  rw [auditChecks_eq]
  split
  · rfl
  · rw [faultWith_counts _ _ _ _ _ _ _ (by simpa using hn) (by decide)]
    simp

theorem auditChecks_struck {code : BitVec 16} {inst : BitVec 8} (h : c.flt.struck code inst) :
    (auditChecks c bad).flt.struck code inst := by
  rw [auditChecks_eq]
  split
  · exact h
  · refine .faultWith _ _ _ _ _ _ (by simpa using hn) (by decide) ?_
    exact struck_of_tally ((recalledBad_tally (c := (c.checked bad).rebuilt) bad).trans (rebuilt_tally _)) h

/-- Bad record copies fail check 2, hold raising grants for 10 audits and strike 0x1301. -/
theorem auditChecks_bad (h : bad ≠ []) : (auditChecks c bad).tally.pass = false ∧ (auditChecks c bad).tally.failed = 2 ∧
    (auditChecks c bad).tally.noRaise = 10 ∧ (auditChecks c bad).flt.struck 0x1301 0 := by
  have hfails := auditFails_of_ne_nil c h
  have hcounts := auditChecks_counts bad hn
  refine ⟨(congrArg Tally.pass hcounts).trans ?_, (congrArg Tally.failed hcounts).trans hfails,
    (congrArg Tally.noRaise hcounts).trans ?_, ?_⟩
  · show (auditFails c bad == 0) = false
    rw [hfails]
    rfl
  · show (if auditFails c bad = 0 then c.vlt.noRaise - 1 else 10) = 10
    rw [hfails]
    rfl
  · rw [auditChecks_eq, if_neg (by rw [hfails]; decide)]
    exact faultWith_struck _ _ _ _ (by simpa using hn) (by decide)

end

/-! ### The audit of the Lead -/

section
variable {c : Core} (bad : List Nat)

/-- What goes before an audit's checks and what follows them leaves what is counted. -/
theorem leadAudit_tally : ∃ d : Core, d.tally = c.tally ∧ d.kept = c.kept ∧
    (leadAudit c bad).tally = (auditChecks d bad).tally := by
  unfold leadAudit
  dsimp only
  generalize hd : recompute _ = d
  refine ⟨d, ?_, ?_, ?_⟩
  · rw [← hd]
    simp
  · rw [← hd]
    simp
  · simp

/-- The audit of the Follow notes its outcome and strikes no fault. -/
theorem followAudit_counted (c : Core) (bad : List Nat) : (followAudit c bad).tally =
    { c.tally with pass := auditFails c bad == 0, failed := auditFails c bad } := by
  unfold followAudit
  dsimp only
  rw [twSend_tally]
  rfl

/-- The audit of the Lead, of the Follow or of neither, its number raised and a lost copy struck. -/
def Core.audited (c : Core) (bad : List Nat) : Core :=
  if keepsVault c then leadAudit c bad else if c.attached && c.twn.role == .follow then followAudit c bad else c

/-- An audit numbered, with a lost copy struck (R341, 0x1302). -/
def Core.auditBegun (c : Core) (lost : Bool) : Core :=
  let d := { c with vlt := { c.vlt with auditNo := c.vlt.auditNo + 1 } }
  if lost then fault d 0x1302 0 else d

variable (hn : ¬ c.kept.raises)
include hn

theorem auditBegun_kept (lost : Bool) : (c.auditBegun lost).kept = c.kept := by
  cases lost
  · rfl
  · exact fault_kept _ _ hn (by decide)

theorem auditBegun_counts (lost : Bool) : (c.auditBegun lost).tally.counts =
    { c.tally.counts with auditNo := c.vlt.auditNo + 1 } := by
  cases lost
  · rfl
  · exact fault_counts _ _ hn (by decide)

theorem auditBegun_struck : (c.auditBegun true).flt.struck 0x1302 0 := faultWith_struck _ _ _ _ hn (by decide)

theorem audited_kept : (c.audited bad).kept = c.kept := by
  unfold Core.audited
  split
  · exact kept_of_goes hn (leadAudit_goes bad .refl)
  · split
    · exact followAudit_kept c bad
    · rfl

/-- An audit strikes no number of its own. -/
theorem audited_auditNo : (c.audited bad).tally.auditNo = c.tally.auditNo := by
  unfold Core.audited
  split
  · obtain ⟨d, hd, hkept, htally⟩ := leadAudit_tally (c := c) bad
    have hchecks := auditChecks_counts bad (c := d) (by rwa [hkept])
    have hno : (auditChecks d bad).tally.counts.auditNo = d.tally.auditNo := by
      rw [hchecks]
      rfl
    rw [htally, ← hd]
    exact hno
  · split
    · rw [followAudit_counted]
    · rfl

theorem audited_struck {code : BitVec 16} {inst : BitVec 8} (h : c.flt.struck code inst) :
    (c.audited bad).flt.struck code inst := by
  unfold Core.audited
  split
  · obtain ⟨d, hd, hkept, htally⟩ := leadAudit_tally (c := c) bad
    exact struck_of_tally htally (auditChecks_struck bad (by rwa [hkept]) (struck_of_tally hd h))
  · split
    · have hstruck : (followAudit c bad).tally.struck = c.tally.struck := by rw [followAudit_counted]
      exact (congrFun (congrFun hstruck code) inst).mpr h
    · exact h

/-- At the Lead bad record copies fail check 2 and strike 0x1301. -/
theorem audited_bad (hrole : c.twn.role = .lead) (h : bad ≠ []) : (c.audited bad).tally.pass = false ∧
    (c.audited bad).tally.failed = 2 ∧ (c.audited bad).tally.noRaise = 10 ∧ (c.audited bad).flt.struck 0x1301 0 := by
  obtain ⟨d, hd, hkept, htally⟩ := leadAudit_tally (c := c) bad
  obtain ⟨hpass, hfailed, hraise, hstruck⟩ := auditChecks_bad bad (c := d) (by rwa [hkept]) h
  rw [Core.audited, if_pos (by simp [keepsVault, hrole]), htally]
  exact ⟨hpass, hfailed, hraise, struck_of_tally htally hstruck⟩

end

end Sys2Proof.Machine
end


section
/-! PROOFS. The grid: the events in their turn and the merge tick (chapter 01). -/

namespace Sys2Proof.Machine

/-! ### Grid events -/

section
variable {s : State} {e : GridEvent} {f : Core → Core}

/-- An event whose turn it is not changes nothing. -/
theorem onGrid_none (h : takeTurn s.core.life e = none) : onGrid s e f = .next s := by
  unfold onGrid
  rw [h]
  split <;> rfl

/-- What an event in its turn leaves of the state `s`: what it made of the controller, published where it was the last due event
of the present tick. -/
structure Answered (s : State) (l : LifeG) (now : Bool) (d : Core) (t : State) : Prop where
  core : t.core = d ∨ t.core = settle d
  published : now = true → l.due = [] → t.img = t.core
  waits : now = false ∨ l.due ≠ [] → t.img = s.img
  pending : t.pending = s.pending

/-- An event in its turn that keeps the lifecycle. -/
theorem onGrid_some {l : LifeG} {now : Bool} (hrun : s.core.life.st = .run) (h : takeTurn s.core.life e = some (l, now))
    (hf : (f { s.core with life := l }).kept = Core.kept { s.core with life := l }) :
    ∃ t, onGrid s e f = .next t ∧ Answered s l now (f { s.core with life := l }) t := by
  generalize hd : f { s.core with life := l } = d at hf
  have hst : d.life.st = s.core.life.st := (congrArg Kept.st hf).trans (takeTurn_keeps h).1
  have hdue : d.life.due = l.due := congrArg Kept.due hf
  have hr : inRun d = true := by simp [inRun, hst, hrun]
  simp only [onGrid, h, hd, afterReset_of_st_eq hst, hr, (inRun_iff _).2 hrun, hdue, if_true, Bool.true_and]
  split
  · rename_i hlast
    refine ⟨_, rfl, .inr rfl, fun _ _ => rfl, ?_, rfl⟩
    rintro (hno | hdue)
    · simp [hno] at hlast
    · simp [hdue] at hlast
  · rename_i hlast
    refine ⟨_, rfl, .inl rfl, ?_, fun _ => rfl, rfl⟩
    intro hnow hdue
    simp [hnow, hdue] at hlast

theorem Answered.kept {l : LifeG} {now : Bool} {d : Core} {t : State} (h : Answered s l now d t) : t.core.kept = d.kept := by
  rcases h.core with h | h
  · rw [h]
  · rw [h, settle_kept]

theorem Answered.tally {l : LifeG} {now : Bool} {d : Core} {t : State} (h : Answered s l now d t) :
    t.core.tally = d.tally := by
  rcases h.core with h | h
  · rw [h]
  · rw [h, settle_tally]

end

/-! ### The merge tick -/

theorem st_of_kept {c : Core} {k : Kept} (h : c.kept = k) : c.life.st = k.st := congrArg Kept.st h

theorem noProbeStep_of_nil {c : Core} (h : c.flt.noProbe = []) : noProbeStep c = c := by
  have hc : ({ c with flt := { c.flt with noProbe := [] } } : Core) = c := by rw [← h]
  unfold noProbeStep
  rw [h]
  exact hc

/-- A list of steps that ends with the shadow program counter leaves it noted. -/
theorem inState_shadow {st : Life} {fs gs : List (Core → Core)} {pc : BitVec 32} {c : Core} (hgs : gs = fs ++ [shadow pc])
    (h : (inState st gs c).life.st = st) : (inState st gs c).wdg.shPc = pc := by
  rw [hgs, inState_append] at h ⊢
  generalize inState st fs c = d at h ⊢
  rw [inState_cons] at h ⊢
  by_cases hd : d.life.st = st
  · rw [if_pos (by simpa using hd)]
    rfl
  · rw [if_neg (by simpa using hd)] at h
    exact absurd h hd

theorem runSteps_shadow (pc : BitVec 32) (bad : BitVec 8) (before : Core) :
    ∃ fs, runSteps pc bad before = fs ++ [shadow pc] :=
  ⟨noProbeStep :: handoverKey :: orderMerge :: (runRest pc bad before).dropLast, rfl⟩

section
variable {s : State} (pc : BitVec 32) (bad : BitVec 8)

/-- A write that finds no Probe left unqueued lets the steps of the tick begin with the orders. -/
theorem noProbeStep_takeWrite {s : State} (h : s.core.flt.noProbe = []) : noProbeStep (takeWrite s).core = (takeWrite s).core :=
  noProbeStep_of_nil ((takeWrite_noProbe s).trans h)

theorem settle_noProbe (c : Core) : (settle c).flt.noProbe = c.flt.noProbe := by
  have hselect : (selectAccount c).flt = c.flt := by
    unfold selectAccount
    split <;> rfl
  unfold settle
  dsimp only
  split <;> exact congrArg FltG.noProbe hselect

theorem endTick_noProbe (s : State) : (endTick s).core.flt.noProbe = s.core.flt.noProbe := by
  unfold endTick
  split
  · rfl
  · exact settle_noProbe s.core

theorem endTick_pending (s : State) : (endTick s).pending = s.pending := by
  unfold endTick
  split <;> rfl

/-- A merge tick that ends in Dormant publishes. -/
theorem tickDormant_img (h : (tickDormant pc s).core.life.st = .dormant) : (tickDormant pc s).img = (tickDormant pc s).core := by
  have hst := (tickDormant_ticked pc s).st.symm.trans h
  simp only [tickDormant, State.dormantTick] at hst ⊢
  generalize inState .dormant _ _ = c at hst ⊢
  have hc : c.life.st = .dormant := hst
  rw [if_pos (by simp [hc])]
  rfl

/-- A merge tick that ends in Safe Hold publishes. -/
theorem tickSafeHold_img (h : (tickSafeHold pc s).core.life.st = .safeHold) :
    (tickSafeHold pc s).img = (tickSafeHold pc s).core := by
  have hst := (tickSafeHold_ticked pc s).st.symm.trans h
  simp only [tickSafeHold, State.safeHoldTick] at hst ⊢
  generalize inState .safeHold _ _ = c at hst ⊢
  have hc : c.life.st = .safeHold := hst
  rw [if_pos (by simp [inSafeHold, hc])]
  rfl

section
variable (hprobe : s.core.flt.noProbe = []) (hn : ¬ s.core.kept.raises)
include hprobe hn

theorem tickRun_kept (hst : s.core.life.st = .run) : (tickRun pc bad s).core.kept = s.runTick.core.kept.taken := by
  have hnone : s.runTick.core.flt.noProbe = [] := (endTick_noProbe s).trans hprobe
  have hraise : ¬ s.runTick.core.kept.taken.raises := by
    have h : (endTick s).core.kept.raises → s.core.kept.raises := by rw [endTick_kept]; exact id
    exact fun hr => hn (h hr)
  refine kept_of_goes hraise (tickRun_goes pc bad hst ?_)
  rw [noProbeStep_takeWrite hnone, takeWrite_kept]
  exact .refl

theorem tickDormant_kept (hst : s.core.life.st = .dormant) :
    (tickDormant pc s).core.kept = s.dormantTick.core.kept.taken := by
  refine kept_of_goes hn (tickDormant_goes pc hst ?_)
  rw [noProbeStep_takeWrite (s := s.dormantTick) hprobe, takeWrite_kept]
  exact .refl

theorem tickSafeHold_kept (hst : s.core.life.st = .safeHold) :
    (tickSafeHold pc s).core.kept = s.safeHoldTick.core.kept.taken := by
  refine kept_of_goes hn (tickSafeHold_goes pc hst ?_)
  rw [noProbeStep_takeWrite (s := s.safeHoldTick) hprobe, takeWrite_kept]
  exact .refl

/-- In Dormant the orders are merged and the clocks go on: the ledger counts nothing. -/
theorem tickDormant_counts : (tickDormant pc s).core.tally.counts = s.core.tally.counts := by
  rw [(tickDormant_ticked pc s).tally, inState_cons, noProbeStep_takeWrite (s := s.dormantTick) hprobe, ite_self]
  have hwrite : (takeWrite s.dormantTick).core.tally.counts = s.core.tally.counts := takeWrite_counts s.dormantTick
  have hraise : ¬ (takeWrite s.dormantTick).core.kept.raises := by
    have h : (takeWrite s.dormantTick).core.kept.taken.raises → s.core.kept.raises := by
      rw [takeWrite_kept]
      exact id
    exact fun hr => hn (h hr)
  refine (inState_induct (P := fun d : Core => ¬ d.kept.raises ∧ d.tally.counts = s.core.tally.counts) _ _ ?_
    ⟨hraise, hwrite⟩).2
  intro f hf d hd
  obtain ⟨hd, hcounts⟩ := hd
  simp only [List.mem_cons, List.not_mem_nil, or_false] at hf
  rcases hf with rfl | rfl | rfl | rfl | rfl
  · refine ⟨?_, (orderMerge_counts hd).trans hcounts⟩
    have hmerge : (orderMerge d).kept = d.kept.taken := kept_of_goes hd (orderMerge_goes .refl)
    rw [hmerge]
    exact hd
  all_goals simpa using ⟨hd, hcounts⟩

end

end

/-- The twin's shed pins as a merge tick samples them. -/
def State.sampled (s : State) (tw : BitVec 4) : State :=
  { s with core := { s.core with pins := { s.core.pins with twShed := tw } } }

/-- What a merge tick of Run makes of what is kept: the grid counted, the events left over late, the orders taken. -/
def Kept.ticked (k : Kept) : Kept :=
  { k with
    tick := k.tick + 1, us := k.us + 10, due := dueAt (k.tick + 1).toNat, late := k.late ++ k.due
    overruns := (leaveLate { due := k.due, overruns := k.overruns }).overruns, arrived := [] }

theorem gridTick_ticked (c : Core) : (gridTick (usTick c)).kept.taken = c.kept.ticked := rfl

theorem runTick_ticked (s : State) : s.runTick.core.kept.taken = s.core.kept.ticked := by
  rw [State.runTick, freeLatches_kept, clearSent_kept, gridTick_ticked, endTick_kept]

/-- What a merge tick makes of the machine in the lifecycle state that stands. -/
def State.merged (pc : BitVec 32) (bad : BitVec 8) (s : State) : State :=
  match s.core.life.st with
  | .run => tickRun pc bad s
  | .dormant => tickDormant pc s
  | .safeHold => tickSafeHold pc s
  | _ => s

section
variable {s t : State} {pc : BitVec 32} {tw : BitVec 4} {bad : BitVec 8}

theorem merged_run (h : s.core.life.st = .run) : s.merged pc bad = tickRun pc bad s := by
  simp [State.merged, h]

theorem merged_dormant (h : s.core.life.st = .dormant) : s.merged pc bad = tickDormant pc s := by
  simp [State.merged, h]

theorem merged_safeHold (h : s.core.life.st = .safeHold) : s.merged pc bad = tickSafeHold pc s := by
  simp [State.merged, h]

theorem exec_mergeTick (h : (s.sampled tw).merged pc bad = t) (hst : t.core.life.st = s.core.life.st) :
    exec (.mergeTick pc tw bad) s = .next t := by
  have hexec : exec (.mergeTick pc tw bad) s = .next { (s.sampled tw).merged pc bad with
      core := afterReset (s.sampled tw).core ((s.sampled tw).merged pc bad).core } := rfl
  have hreset : afterReset (s.sampled tw).core t.core = t.core := afterReset_of_st_eq hst
  rw [hexec, h, hreset]

end

/-- A merge tick of Run (R41, R43). -/
theorem mergeTick_run {s : State} (pc : BitVec 32) (tw : BitVec 4) (bad : BitVec 8) (hprobe : s.core.flt.noProbe = [])
    (hn : ¬ s.core.kept.raises) (hst : s.core.life.st = .run) :
    ∃ t, exec (.mergeTick pc tw bad) s = .next t ∧ t.core.kept = (s.sampled tw).core.kept.ticked ∧ t.win.pend = none ∧
      t.core.wdg.shPc = pc ∧ t.pending = s.pending := by
  have hkept := (tickRun_kept (s := s.sampled tw) pc bad hprobe hn hst).trans (runTick_ticked _)
  have hrun : (tickRun pc bad (s.sampled tw)).core.life.st = .run := (st_of_kept hkept).trans hst
  have hticked := tickRun_ticked pc bad (s.sampled tw)
  refine ⟨_, exec_mergeTick (merged_run hst) (hrun.trans hst.symm), hkept, hticked.pend.trans (takeWrite_pend _), ?_,
    hticked.pending.trans ((takeWrite_pending _).trans (endTick_pending _))⟩
  obtain ⟨fs, hfs⟩ := runSteps_shadow pc bad (endTick (s.sampled tw)).core
  rw [hticked.wdg]
  exact inState_shadow hfs (hticked.st.symm.trans hrun)

/-- A merge tick of Dormant: the count goes on, and the ledger's channels stand (R114, R263). -/
theorem mergeTick_dormant {s : State} (pc : BitVec 32) (tw : BitVec 4) (bad : BitVec 8) (hprobe : s.core.flt.noProbe = [])
    (hn : ¬ s.core.kept.raises) (hst : s.core.life.st = .dormant) :
    ∃ t, exec (.mergeTick pc tw bad) s = .next t ∧ t.core.kept = (s.sampled tw).dormantTick.core.kept.taken ∧
      t.win.pend = none ∧ t.core.wdg.shPc = pc ∧ t.core.tally.counts = s.core.tally.counts ∧ t.img = t.core := by
  have hkept := tickDormant_kept (s := s.sampled tw) pc hprobe hn hst
  have hdorm : (tickDormant pc (s.sampled tw)).core.life.st = .dormant := (st_of_kept hkept).trans hst
  have hticked := tickDormant_ticked pc (s.sampled tw)
  have hsteps := hticked.st.symm.trans hdorm
  refine ⟨_, exec_mergeTick (merged_dormant hst) (hdorm.trans hst.symm), hkept, hticked.pend.trans (takeWrite_pend _), ?_,
    tickDormant_counts (s := s.sampled tw) pc hprobe hn, tickDormant_img pc hdorm⟩
  rw [hticked.wdg]
  exact inState_shadow (fs := [noProbeStep, orderMerge, kilnCount, hourTick, entryStep]) rfl hsteps

/-- A merge tick of Safe Hold: the microseconds go on, and the grid does not (R43, R127). -/
theorem mergeTick_safeHold {s : State} (pc : BitVec 32) (tw : BitVec 4) (bad : BitVec 8) (hprobe : s.core.flt.noProbe = [])
    (hn : ¬ s.core.kept.raises) (hst : s.core.life.st = .safeHold) :
    ∃ t, exec (.mergeTick pc tw bad) s = .next t ∧ t.core.kept = (s.sampled tw).safeHoldTick.core.kept.taken ∧
      t.win.pend = none ∧ t.core.wdg.shPc = pc ∧ t.img = t.core := by
  have hkept := tickSafeHold_kept (s := s.sampled tw) pc hprobe hn hst
  have hsafe : (tickSafeHold pc (s.sampled tw)).core.life.st = .safeHold := (st_of_kept hkept).trans hst
  have hticked := tickSafeHold_ticked pc (s.sampled tw)
  have hsteps := hticked.st.symm.trans hsafe
  refine ⟨_, exec_mergeTick (merged_safeHold hst) (hsafe.trans hst.symm), hkept, hticked.pend.trans (takeWrite_pend _), ?_,
    tickSafeHold_img pc hsafe⟩
  rw [hticked.wdg]
  exact inState_shadow (fs := [noProbeStep, orderMerge, kilnCount, safeSoft, nvmKick]) rfl hsteps

theorem not_raises_of_noResetRaised {c : Core} (h : noResetRaised c) : ¬ c.kept.raises := by
  rintro ⟨e, he, hd⟩
  exact h e he hd

/-- A Plinth cycle numbered by the grid, its slot counts cleared (R315). -/
def Core.plinthCycle (c : Core) : Core :=
  { c with plb := { c.plb with
      cycle := BitVec.ofNat 32 (c.life.tick.toNat / 100)
      master := c.plb.master || drivesPlinth c
      p := vmap (fun _ g => { g with slotMap := g.slotNow, slotNow := 0, used := 0, morePolls := 0 }) c.plb.p } }

section
variable {s : State} {l : LifeG} {now : Bool}

theorem ledgerClose_skips (ok : Bool) (h : takeTurn s.core.life .close = none) : exec (.ledgerClose ok) s = .next s :=
  onGrid_none (f := fun c => if ok then gridClose c else fault c 0x0805 0) h

theorem vaultAudit_skips (bad : List Nat) (lost : Bool) (h : takeTurn s.core.life .audit = none) :
    exec (.vaultAudit bad lost) s = .next s :=
  onGrid_none (f := fun c => (c.auditBegun lost).audited bad) h

theorem plinthCycleStart_skips (h : takeTurn s.core.life .plinth = none) : exec .plinthCycleStart s = .next s :=
  onGrid_none (f := Core.plinthCycle) h

/-- The close in its turn (R189, R263). -/
theorem ledgerClose_takes (hrun : s.core.life.st = .run) (h : takeTurn s.core.life .close = some (l, now))
    (hn : ¬ s.core.kept.raises) : ∃ t, exec (.ledgerClose true) s = .next t ∧
      Answered s l now (gridClose { s.core with life := l }) t ∧ t.core.kept = Core.kept { s.core with life := l } ∧
      Tally.Cycled (s.core.ldg.closeNo + 1) t.core.tally := by
  have hkept : (gridClose { s.core with life := l }).kept = Core.kept { s.core with life := l } :=
    kept_of_goes hn (gridClose_goes .refl)
  obtain ⟨t, ht, ha⟩ := onGrid_some (f := gridClose) hrun h hkept
  refine ⟨t, ht, ha, ha.kept.trans hkept, ?_⟩
  rw [ha.tally]
  exact gridClose_cycled (c := { s.core with life := l }) hn

/-- An audit's beginning counts its number alone. -/
theorem auditBegun_tally {c : Core} (hn : ¬ c.kept.raises) (lost : Bool) :
    (c.auditBegun lost).tally.auditNo = c.vlt.auditNo + 1 ∧ (c.auditBegun lost).twn.role = c.twn.role :=
  have hcounts := auditBegun_counts hn lost
  ⟨congrArg Tally.auditNo hcounts, congrArg Tally.role hcounts⟩

/-- What an audit in its turn numbers and strikes. -/
structure Audited (c : Core) (bad : List Nat) (lost : Bool) (t : Core) : Prop where
  auditNo : t.vlt.auditNo = c.vlt.auditNo + 1
  failed : c.twn.role = .lead → bad ≠ [] →
    t.vlt.pass = false ∧ t.vlt.failed = 2 ∧ t.vlt.noRaise = 10 ∧ latched t 0x1301 0
  lost : lost = true → latched t 0x1302 0

theorem audited_of_tally {c t : Core} (bad : List Nat) (lost : Bool) (hn : ¬ c.kept.raises)
    (ht : t.tally = ((c.auditBegun lost).audited bad).tally) : Audited c bad lost t := by
  obtain ⟨hno, hrole⟩ := auditBegun_tally hn lost
  have hn' : ¬ (c.auditBegun lost).kept.raises := by rwa [auditBegun_kept hn]
  refine ⟨(congrArg Tally.auditNo ht).trans ((audited_auditNo bad hn').trans hno), fun hlead hbad => ?_, ?_⟩
  · obtain ⟨hpass, hfailed, hraise, hstruck⟩ := audited_bad bad hn' (hrole.trans hlead) hbad
    exact ⟨(congrArg Tally.pass ht).trans hpass, (congrArg Tally.failed ht).trans hfailed,
      (congrArg Tally.noRaise ht).trans hraise, latched_of_struck (struck_of_tally ht hstruck)⟩
  · rintro rfl
    exact latched_of_struck (struck_of_tally ht (audited_struck bad hn' (auditBegun_struck hn)))

/-- The audit in its turn (R341). -/
theorem vaultAudit_takes (bad : List Nat) (lost : Bool) (hrun : s.core.life.st = .run)
    (h : takeTurn s.core.life .audit = some (l, now)) (hn : ¬ s.core.kept.raises) :
    ∃ t, exec (.vaultAudit bad lost) s = .next t ∧
      Answered s l now ((Core.auditBegun { s.core with life := l } lost).audited bad) t ∧
      t.core.kept = Core.kept { s.core with life := l } ∧ Audited s.core bad lost t.core := by
  have hbegun := auditBegun_kept (c := { s.core with life := l }) hn lost
  have hkept : ((Core.auditBegun { s.core with life := l } lost).audited bad).kept = Core.kept { s.core with life := l } :=
    (audited_kept bad (by rwa [hbegun])).trans hbegun
  obtain ⟨t, ht, ha⟩ := onGrid_some (f := fun c => (c.auditBegun lost).audited bad) hrun h hkept
  obtain ⟨hno, hfailed, hlost⟩ := audited_of_tally (c := { s.core with life := l }) bad lost hn ha.tally
  exact ⟨t, ht, ha, ha.kept.trans hkept, hno, hfailed, hlost⟩

theorem plinthCycle_slots (c : Core) : ∀ p ∈ c.plinthCycle.plb.p.toList, p.used = 0 ∧ p.morePolls = 0 ∧ p.slotNow = 0 := by
  intro p hp
  obtain ⟨i, hi, rfl⟩ := List.mem_iff_getElem.1 hp
  have h4 : i < 4 := by simpa using hi
  simp [Core.plinthCycle]

theorem takeTurn_tick {e : GridEvent} (h : takeTurn s.core.life e = some (l, now)) : l.tick = s.core.life.tick := by
  unfold takeTurn at h
  split at h
  · cases h
    rfl
  · split at h
    · cases h
      rfl
    · cases h

/-- What a publication leaves of the records, the orders' slots, the path and the bus. -/
theorem settle_leaves (c : Core) : (settle c).plb = c.plb ∧ (settle c).vlt.recs = c.vlt.recs ∧
    (settle c).vlt.sup = c.vlt.sup ∧ (settle c).path = c.path ∧ (settle c).ord.s = c.ord.s := by
  have hselect : (selectAccount c).plb = c.plb ∧ (selectAccount c).vlt.recs = c.vlt.recs ∧
      (selectAccount c).vlt.sup = c.vlt.sup ∧ (selectAccount c).path = c.path ∧ (selectAccount c).ord.s = c.ord.s := by
    unfold selectAccount
    split <;> exact ⟨rfl, rfl, rfl, rfl, rfl⟩
  unfold settle
  dsimp only
  split <;> exact hselect

/-- The Plinth cycle start in its turn (R315). -/
theorem plinthCycleStart_takes (hrun : s.core.life.st = .run) (h : takeTurn s.core.life .plinth = some (l, now)) :
    ∃ t, exec .plinthCycleStart s = .next t ∧ Answered s l now (Core.plinthCycle { s.core with life := l }) t ∧
      t.core.kept = Core.kept { s.core with life := l } := by
  obtain ⟨t, ht, ha⟩ := onGrid_some (f := Core.plinthCycle) hrun h rfl
  exact ⟨t, ht, ha, ha.kept⟩

theorem Answered.leaves {d : Core} {t : State} (h : Answered s l now d t) : t.core.plb = d.plb ∧
    t.core.vlt.recs = d.vlt.recs ∧ t.core.vlt.sup = d.vlt.sup ∧ t.core.path = d.path ∧ t.core.ord.s = d.ord.s := by
  rcases h.core with h | h
  · rw [h]
    exact ⟨rfl, rfl, rfl, rfl, rfl⟩
  · rw [h]
    exact settle_leaves d

end

end Sys2Proof.Machine

open Sys2Proof Sys2Proof.Machine

/-- Settles O22: a merge tick keeps what is kept but the count of the grid and the orders it takes; a grid event in its turn
keeps the lifecycle, so that the last one due publishes. -/
theorem theGridCountsAndPublishes : Obligations.TheGridCountsAndPublishes := by
  refine ⟨fun pc tw bad s hprobe hres => ?_, fun s l now hrun => ⟨fun h ok => ledgerClose_skips ok h, fun h hres => ?_,
    fun bad lost => ⟨vaultAudit_skips bad lost, fun h hres => ?_⟩, plinthCycleStart_skips, fun h => ?_⟩⟩
  · have hn := not_raises_of_noResetRaised hres
    refine ⟨fun hst => ?_, fun hst => ?_, fun hst => ?_⟩
    · obtain ⟨t, ht, hkept, hpend, hpc, hpending⟩ := mergeTick_run pc tw bad hprobe hn hst
      exact ⟨t, ht, (st_of_kept hkept).trans hst, congrArg Kept.tick hkept, congrArg Kept.us hkept, hpend,
        congrArg Kept.arrived hkept, hpc, congrArg Kept.due hkept, congrArg Kept.late hkept, congrArg Kept.overruns hkept,
        congrArg Kept.twShed hkept, hpending⟩
    · obtain ⟨t, ht, hkept, hpend, hpc, hcounts, himg⟩ := mergeTick_dormant pc tw bad hprobe hn hst
      exact ⟨t, ht, (st_of_kept hkept).trans hst, congrArg Kept.tick hkept, congrArg Kept.us hkept, hpend,
        congrArg Kept.arrived hkept, hpc, congrArg Kept.due hkept, congrArg Tally.ch hcounts, congrArg Tally.closeNo hcounts,
        himg⟩
    · obtain ⟨t, ht, hkept, hpend, hpc, himg⟩ := mergeTick_safeHold pc tw bad hprobe hn hst
      exact ⟨t, ht, (st_of_kept hkept).trans hst, congrArg Kept.tick hkept, congrArg Kept.us hkept, hpend, hpc, himg⟩
  · obtain ⟨t, ht, ha, hkept, hcycled⟩ := ledgerClose_takes hrun h (not_raises_of_noResetRaised hres)
    obtain ⟨hno, hclosed, hbal, hstarted⟩ := hcycled
    exact ⟨t, ht, ((st_of_kept hkept).trans (takeTurn_keeps h).1).trans hrun, hno, hclosed, hbal, hstarted,
      congrArg Kept.due hkept, congrArg Kept.late hkept, ha.published, ha.waits, ha.pending⟩
  · obtain ⟨t, ht, ha, hkept, hno, hfailed, hlost⟩ :=
      vaultAudit_takes bad lost hrun h (not_raises_of_noResetRaised hres)
    exact ⟨t, ht, ((st_of_kept hkept).trans (takeTurn_keeps h).1).trans hrun, hno, congrArg Kept.due hkept,
      congrArg Kept.late hkept, hfailed, hlost, ha.published, ha.waits, ha.pending⟩
  · obtain ⟨t, ht, ha, hkept⟩ := plinthCycleStart_takes hrun h
    obtain ⟨hplb, hrecs, hsup, hpath, hord⟩ := ha.leaves
    refine ⟨t, ht, ?_, ?_, congrArg Kept.due hkept, congrArg Kept.late hkept, ha.published, ha.waits, hrecs, hsup, hpath,
      hord, ha.pending⟩
    · rw [hplb, ← takeTurn_tick h]
      rfl
    · rw [hplb]
      exact plinthCycle_slots _
end

section
/-! PROOFS. The way from Reset to Boot (chapters 02 and 04). -/

namespace Sys2Proof.Machine

/-! ### The three commands that end what holds Reset -/

/-- The controller once the reset hold is over (R106). -/
def Core.holdOver (c : Core) : Core := { c with life := { c.life with holdDone := true }, outs := {} }

/-- The controller with RST_N released (R61). -/
def Core.rstReleased (c : Core) : Core := { c with pins := { c.pins with rstN := false } }

/-- The controller with MOSC running again (R36). -/
def Core.moscRuns (c : Core) : Core := { c with life := { c.life with mosc := true } }

section
variable (tm : Bool) (s : State) {c d : Core}

theorem exec_resetRelease {s : State} (h : s.core.life.st = .reset) :
    exec (.resetRelease tm) s = .next (leaveReset s s.core.holdOver tm) := by
  show execResetRelease tm s = _
  rw [execResetRelease, if_pos (by simp [h])]
  rfl

theorem exec_rstNReleased : exec (.rstNReleased tm) s = .next (leaveReset s s.core.rstReleased tm) := rfl

theorem exec_moscRestored : exec (.moscRestored tm) s = .next (leaveReset s s.core.moscRuns tm) := rfl

/-- Boot as `bootStart` begins it (Table 04-2 step 2). -/
theorem bootBegun_bootStart (h : d.otp = c.otp ∧ d.nvm = c.nvm ∧ d.cel = c.cel ∧ d.chg = c.chg) :
    BootBegun c (bootStart d tm) tm := by
  obtain ⟨hotp, hnvm, hcel, hchg⟩ := h
  exact { st := rfl, clock := rfl, tmode := ⟨rfl, hotp ▸ rfl⟩, watchdog := ⟨hotp ▸ rfl, hotp ▸ rfl⟩, pins := ⟨rfl, rfl⟩
          kept := ⟨hotp, hnvm, hcel, hchg⟩ }

/-- Reset is left for Boot once its hold is over, with RST_N released and MOSC running (R106). -/
theorem leaveReset_boot (hst : c.life.st = .reset) (hhold : c.life.holdDone = true) (hrst : c.pins.rstN = false)
    (hmosc : c.life.mosc = true) : leaveReset s c tm = newPort s (bootStart c tm) := by
  simp [leaveReset, hst, hhold, hrst, hmosc]

/-- Reset is not left before the end of its hold, nor while RST_N is asserted or MOSC is absent (R106). -/
theorem leaveReset_stays (h : c.life.holdDone = false ∨ c.pins.rstN = true ∨ c.life.mosc = false) :
    leaveReset s c tm = { s with core := c } := by
  rcases h with h | h | h <;> simp [leaveReset, h]

end

end Sys2Proof.Machine

open Sys2Proof Sys2Proof.Machine

/-- Settles O11: each of the three commands leaves Reset exactly where `leaveReset` finds the hold over and no cause. -/
theorem resetEndsInBoot : Obligations.ResetEndsInBoot := by
  intro tm s hst
  rw [exec_resetRelease tm hst, exec_rstNReleased, exec_moscRestored]
  refine ⟨fun hrst hmosc => ?_, fun h => ?_, fun hhold hmosc => ?_, fun h => ?_, fun hhold hrst => ?_, fun h => ?_⟩
  · rw [leaveReset_boot tm s (c := s.core.holdOver) hst rfl hrst hmosc]
    exact ⟨_, rfl, bootBegun_bootStart tm ⟨rfl, rfl, rfl, rfl⟩, rfl, rfl, rfl⟩
  · rw [leaveReset_stays tm s (c := s.core.holdOver) (.inr h)]
    rfl
  · rw [leaveReset_boot tm s (c := s.core.rstReleased) hst hhold rfl hmosc]
    exact ⟨_, rfl, bootBegun_bootStart tm ⟨rfl, rfl, rfl, rfl⟩, rfl⟩
  · rw [leaveReset_stays tm s (c := s.core.rstReleased) (h.imp_right .inr)]
    rfl
  · rw [leaveReset_boot tm s (c := s.core.moscRuns) hst hhold hrst rfl]
    exact ⟨_, rfl, bootBegun_bootStart tm ⟨rfl, rfl, rfl, rfl⟩⟩
  · rw [leaveReset_stays tm s (c := s.core.moscRuns) (h.imp_right .inl)]
    rfl
end

section
/-! PROOFS. What a fault below class D leaves of the twin, of the exports and of the Type-C ports (chapters 11, 14 and 17), and
commands that leave the lifecycle state as it is. -/

namespace Sys2Proof.Machine

/-! ### Commands that leave the lifecycle state as it is -/

section
variable {s : State} {p : Core → Bool} {f : Core → Core} {d : Core}

/-- A command whose function keeps the lifecycle. -/
theorem onCore_of_kept (hf : f s.core = d) (hd : d.kept = s.core.kept) : onCore s f = .next { s with core := d } := by
  subst hf
  exact onCore_of_st_eq s f (congrArg Kept.st hd)

/-- A command whose condition holds, and whose function keeps the lifecycle. -/
theorem onCoreIf_of_kept (hp : p s.core = true) (hf : f s.core = d) (hd : d.kept = s.core.kept) :
    onCoreIf s p f = .next { s with core := d } := by
  rw [onCoreIf_pos s p f hp]
  exact onCore_of_kept hf hd

end

/-! ### The table of Type-C ports -/

section
variable {α : Type} {n : Nat}

/-- Two changes at one place are one. -/
theorem vupd_vupd (v : Vector α n) (i : Nat) (f g : α → α) : vupd (vupd v i f) i g = vupd v i fun x => g (f x) := by
  ext j hj
  by_cases h : j = i <;> simp [getElem_vupd, h]

/-- A change at a place reads its old entry alone. -/
theorem vupd_eq_const (v : Vector α n) (i : Nat) (f : α → α) (d : α) : vupd v i f = vupd v i fun _ => f (vget v i d) := by
  ext j hj
  by_cases h : j = i
  · subst h
    simp [vget_eq_getElem v j d hj]
  · simp [getElem_vupd, h]

/-- A change that keeps the old entry changes nothing. -/
theorem vupd_eq_self (v : Vector α n) (i : Nat) (f : α → α) (d : α) (h : f (vget v i d) = vget v i d) : vupd v i f = v := by
  ext j hj
  by_cases e : j = i
  · subst e
    rw [vget_eq_getElem v j d hj] at h
    simp [h]
  · simp [getElem_vupd, e]

end

theorem pdIx_lt (p : PdId) : pdIx p < 2 := by cases p <;> decide

theorem pdIx_inj : ∀ {p q : PdId}, pdIx p = pdIx q → p = q
  | .a, .a, _ | .b, .b, _ => rfl
  | .a, .b, h | .b, .a, h => absurd h (by decide)

section
variable (c : Core) (p : PdId) (f g : PdG → PdG)

@[simp] theorem updPd_port_self : (updPd c p f).port p = f (c.port p) := vget_vupd_self _ _ _ _ (pdIx_lt p)

theorem updPd_port_ne {p q : PdId} (h : q ≠ p) : (updPd c p f).port q = c.port q :=
  vget_vupd_ne _ _ _ _ _ fun e => h (pdIx_inj e)

@[simp] theorem updPd_updPd : updPd (updPd c p f) p g = updPd c p fun x => g (f x) := by
  simp [updPd, vupd_vupd]

end

/-! ### What the end of exporting leaves of a port -/

/-- What the reactions of a fault leave of a Type-C port: its attach state, its termination, its cable and its hold; what has
ended stays ended, and a discharge goes on. -/
structure PdG.Steady (g g' : PdG) : Prop where
  att : g'.att = g.att
  cc : g'.cc = g.cc
  cable5 : g'.cable5 = g.cable5
  hold : g'.hold = g.hold
  vconn : g.vconn = false → g'.vconn = false
  quiet : g.quiet → g'.quiet
  discharge : g.discharge = true → g'.discharge = true

theorem PdG.Steady.refl (g : PdG) : g.Steady g := ⟨rfl, rfl, rfl, rfl, id, id, id⟩

theorem PdG.Steady.trans {g g' g'' : PdG} (h : g.Steady g') (h' : g'.Steady g'') : g.Steady g'' :=
  { att := h'.att.trans h.att, cc := h'.cc.trans h.cc, cable5 := h'.cable5.trans h.cable5, hold := h'.hold.trans h.hold
    vconn := fun x => h'.vconn (h.vconn x), quiet := fun x => h'.quiet (h.quiet x)
    discharge := fun x => h'.discharge (h.discharge x) }

/-- A Type-C port that has sent a Hard Reset more. -/
def PdG.hardReset (g : PdG) : PdG :=
  { g with sent := g.sent ++ [.hardReset], nSent := g.nSent + 1, hrSent := satNat 8 (g.hrSent + 1) }

/-- A Type-C port that has ended exporting with a Hard Reset (R388). -/
def PdG.exportEnded (g : PdG) : PdG := { g.hardReset.clear with discharge := true, srWait := true, vconn := false }

theorem PdG.steady_exportEnded (g : PdG) : g.Steady g.exportEnded :=
  { att := rfl, cc := rfl, cable5 := rfl, hold := rfl, vconn := fun _ => rfl
    quiet := fun _ => ⟨rfl, rfl, rfl, rfl, rfl, rfl, rfl⟩, discharge := fun _ => rfl }

theorem PdG.without_alt {g : PdG} (h : g.alt = false) : { g with alt := false } = g := by
  rw [← h]

section
variable (c : Core) (p : PdId)

/-- Leaving the alternate mode clears its mark on the port (R395). -/
theorem altExit_pd : (altExit c p).pd = vupd c.pd (pdIx p) fun g => { g with alt := false } := by
  unfold altExit
  split
  · rw [dropMedium_eq]
    rfl
  · rename_i h
    have halt : (c.port p).alt = false := by simpa using h
    exact (vupd_eq_self _ _ _ {} (PdG.without_alt halt)).symm

theorem pdExportEnd_pd : (pdExportEnd c p).pd = vupd c.pd (pdIx p) PdG.exportEnded := by
  simp only [pdExportEnd, updPd_pd, altExit_pd, pdSend, vupd_vupd]
  rfl

/-- The end of exporting changes no port but its own, which a Hard Reset ends (R156, R388). -/
theorem exportEnd_pd (hr : Bool) :
    (exportEnd c hr).pd = c.pd ∨ ∃ q, (exportEnd c hr).pd = vupd c.pd (pdIx q) PdG.exportEnded := by
  cases he : c.path.export_ with
  | none =>
    left
    simp only [exportEnd, he]
  | some e =>
    obtain ⟨path, gdr, hpark, -⟩ := stagePark_pairOff_eq c e.port.inp
    simp only [exportEnd, he, hpark]
    split
    · rename_i q hq
      split
      · exact .inr ⟨q, pdExportEnd_pd _ q⟩
      · exact .inl rfl
    · exact .inl rfl

end

/-! ### What a fault below class D leaves -/

/-- What a fault below class D leaves: the twin, a path that exports nothing, and each Type-C port but for the end of
exporting on it. -/
structure LeftByFault (c d : Core) : Prop where
  twn : d.twn = c.twn
  export_ : c.path.export_ = none → d.path.export_ = none
  port : ∀ p, (c.port p).Steady (d.port p)

section
variable {c d e : Core}

theorem LeftByFault.trans (h : LeftByFault c d) (h' : LeftByFault d e) : LeftByFault c e :=
  { twn := h'.twn.trans h.twn, export_ := fun x => h'.export_ (h.export_ x), port := fun p => (h.port p).trans (h'.port p) }

theorem leftByFault_of_eq (ht : d.twn = c.twn) (he : d.path.export_ = c.path.export_) (hp : d.pd = c.pd) : LeftByFault c d :=
  { twn := ht, export_ := fun x => he.trans x
    port := fun p => by rw [Core.port, Core.port, hp]; exact .refl _ }

theorem leftByFault_exportEnd (c : Core) (hr : Bool) : LeftByFault c (exportEnd c hr) := by
  obtain ⟨b, path, gdr, pd, plb, vlt, he, hexport, -⟩ := exportEnd_eq c hr
  refine { twn := by rw [he], export_ := fun _ => by rw [he]; exact hexport, port := fun p => ?_ }
  rcases exportEnd_pd c hr with hpd | ⟨q, hpd⟩
  · rw [Core.port, Core.port, hpd]
    exact .refl _
  · rw [Core.port, Core.port, hpd]
    by_cases h : p = q
    · subst h
      rw [vget_vupd_self _ _ _ _ (pdIx_lt p)]
      exact PdG.steady_exportEnded _
    · rw [vget_vupd_ne _ _ _ _ _ fun e => h (pdIx_inj e)]
      exact .refl _

theorem leftByFault_classAction (c : Core) (cls : FCls) (cause ph : Nat) (code : BitVec 16) (h : cls ≠ .d) :
    LeftByFault c (classAction c cls cause ph code) := by
  cases cls with
  | d => exact absurd rfl h
  | b => exact leftByFault_of_eq rfl rfl rfl
  | c => exact leftByFault_of_eq rfl rfl rfl
  | a =>
    have hchisel : LeftByFault c (chiselAll c cause ph) := by
      refine leftByFault_of_eq rfl ?_ rfl
      simp only [chiselAll]
      split <;> rfl
    have hnote : LeftByFault (chiselAll c cause ph) (noteChisel c.gdr (chiselAll c cause ph) code) := by
      rw [noteChisel_eq]
      exact leftByFault_of_eq rfl rfl rfl
    exact ((hchisel.trans hnote).trans (leftByFault_exportEnd _ true)).trans (leftByFault_of_eq rfl rfl rfl)

/-- A fault below class D leaves the twin, and the ports but for the exporting that it ends (R156, R284). -/
theorem leftByFault_faultWith (c : Core) (code : BitVec 16) (inst : BitVec 8) (row : FCls) (p : ProbeSt) (probe : Bool)
    (cause ph : Nat) (h : classInForce c code row ≠ .d) : LeftByFault c (faultWith c code inst row p probe cause ph) := by
  have hlatch : LeftByFault c (latchRecord (latchPut c code inst (classInForce c code row) p) code inst) := by
    obtain ⟨o, n, q, e⟩ := latchRecord_eq (latchPut c code inst (classInForce c code row) p) code inst
    rw [e, latchPut_eq]
    exact leftByFault_of_eq rfl rfl rfl
  have hprobe : ∀ d : Core, LeftByFault d (if probe = true then queueProbe d code inst else d) := fun d => by
    split
    · rw [queueProbe_eq]
      exact leftByFault_of_eq rfl rfl rfl
    · exact leftByFault_of_eq rfl rfl rfl
  have hraised : ∀ (d : Core) (k : FCls), LeftByFault d (raisedC d code row k) := fun d k => by
    unfold raisedC
    split <;> exact leftByFault_of_eq rfl rfl rfl
  have hexport : ∀ d : Core, LeftByFault d (exportFault d code) := fun d => by
    unfold exportFault
    split
    · exact leftByFault_exportEnd d true
    · exact leftByFault_of_eq rfl rfl rfl
  have hinst : ∀ b d : Core, LeftByFault d (noteInst b d inst) := fun b d => by
    unfold noteInst
    split <;> exact leftByFault_of_eq rfl rfl rfl
  exact (hlatch.trans (hprobe _)).trans ((leftByFault_classAction _ _ cause ph code h).trans
    ((hraised _ _).trans ((hexport _).trans (hinst _ _))))

/-- What stands after a fault that no image raises to class D: its latch, and what the fault leaves (R284, R288). -/
theorem fault_stands {c : Core} {code : BitVec 16} (inst : BitVec 8) (hn : noResetRaised c) (hrow : (rowClass code).getD .b ≠ .d) :
    (fault c code inst).kept = c.kept ∧ latched (fault c code inst) code inst ∧ LeftByFault c (fault c code inst) := by
  have hcls := classInForce_ne_d code hn hrow
  exact ⟨fault_kept code inst (not_raises_of_noResetRaised hn) hrow, latched_fault c code inst hcls,
    leftByFault_faultWith c code inst _ .pending true 3 0 hcls⟩

end

end Sys2Proof.Machine
end

section
/-! PROOFS. Heartbeat loss, fencing and the trip line (chapter 17). -/

namespace Sys2Proof.Machine

/-! ### Commands of the twin in Run -/

section
variable {s : State} {f : Core → Core} {p : Core → Bool} {d : Core}

/-- A twin command in Run, with a twin expected, whose function keeps the lifecycle (R447, R448). -/
theorem onTwin_of_kept (hrun : s.core.life.st = .run) (htwin : s.core.maq.twin.expected = true)
    (hf : f s.core = d) (hd : d.kept = s.core.kept) : onTwin s f = .next { s with core := d } :=
  onCoreIf_of_kept (by simp [inRun, hrun, twinExpected, htwin]) hf hd

end

/-! ### Heartbeat loss (R462, R469) -/

/-- The twin link once its heartbeat is lost. -/
def TwnG.beatLost (g : TwnG) : TwnG :=
  { g with trained := false, lossNow := true, hbLoss := satNat 16 (g.hbLoss + 1), mirrorWait := false }

/-- The controller once the heartbeat of its twin is lost. -/
def Core.beatLost (c : Core) : Core := { c with twn := c.twn.beatLost }

/-- The last heartbeat of the twin said that it was Detached. -/
def TwnG.gone (g : TwnG) : Bool := match g.last with | some h => h.role == 5 | none => false

theorem TwnG.gone_of_last {g : TwnG} {h : HeartbeatMsg} (hl : g.last = some h) (hr : h.role = 5) : g.gone = true := by
  simp [gone, hl, hr]

theorem TwnG.not_gone {g : TwnG} (h : ∀ h, g.last = some h → h.role ≠ 5) : g.gone = false := by
  unfold gone
  split
  · next b hb => simpa using h b hb
  · rfl

/-- What the loss of the heartbeat does: nothing twice, no fault after a planned detach, and else a fault that begins fencing
(R462, R469, R475). -/
def heartbeatLost (c : Core) : Core :=
  if !c.twn.trained || c.twn.lossNow then c
  else if c.twn.gone || c.twn.role == .detached then c.beatLost
  else fenceBegin (fault c.beatLost 0x1401 0)

theorem exec_heartbeatLoss (s : State) : exec .heartbeatLoss s = onTwin s heartbeatLost := rfl

theorem heartbeatLost_gone {c : Core} (htr : c.twn.trained = true) (hnew : c.twn.lossNow = false) (hgone : c.twn.gone = true) :
    heartbeatLost c = c.beatLost := by
  simp [heartbeatLost, htr, hnew, hgone]

theorem heartbeatLost_fault {c : Core} (htr : c.twn.trained = true) (hnew : c.twn.lossNow = false)
    (hgone : c.twn.gone = false) (hdet : c.twn.role ≠ .detached) :
    heartbeatLost c = fenceBegin (fault c.beatLost 0x1401 0) := by
  simp [heartbeatLost, htr, hnew, hgone, hdet]

/-- Fencing begins with its delay, where none runs and the role fences (R463). -/
theorem fenceBegin_delay {c : Core} (hf : c.twn.fence = .none) (h1 : c.twn.role ≠ .fenced) (h2 : c.twn.role ≠ .detached) :
    fenceBegin c = { c with twn := { c.twn with fence := .delay, slot := 0, lost := false } } := by
  simp [fenceBegin, hf, h1, h2]

/-! ### The survivor and its promotion (R463–R466, R487) -/

/-- The sums of a rebuilt column account for its pool (R339, R465). -/
theorem rebuild_tot_balanced (v : VltG) (k : Column) : ((rebuild v k).tot k).balanced = true := by
  cases k <;> exact decide_eq_true (by simp only [rebuild, VltG.tot, VltG.setTot]; omega)

theorem takeVault_balanced (c : Core) :
    (takeVault c).vlt.sup.balanced = true ∧ (takeVault c).vlt.ret.balanced = true := by
  simp only [takeVault]
  generalize (if c.twn.xMirOk = true then c else lowerAll c _ : Core) = d
  exact ⟨rebuild_tot_balanced d.vlt .supply, rebuild_tot_balanced _ .ret⟩

/-- Where the mirror agreed, its records stand (R465). -/
theorem takeVault_recs {c : Core} (h : c.twn.xMirOk = true) : (takeVault c).vlt.recs = c.vlt.recs := by
  simp [takeVault, h, rebuild, VltG.setTot]

theorem withdrawGrant_leaves (c : Core) (a : Nat) (k : Column) :
    (withdrawGrant c a k).twn = c.twn ∧ (withdrawGrant c a k).ord = c.ord := by
  unfold withdrawGrant
  dsimp only
  generalize (_ || _ : Bool) = tried
  cases tried <;> exact ⟨rfl, rfl⟩

/-- Taking levels to 0 leaves the twin and the orders. -/
theorem lowerAll_leaves (as : List Nat) : ∀ c : Core, (lowerAll c as).twn = c.twn ∧ (lowerAll c as).ord = c.ord := by
  induction as with
  | nil => exact fun c => ⟨rfl, rfl⟩
  | cons a as ih =>
    intro c
    obtain ⟨htwn, hord⟩ := ih (book (withdrawGrant (book (withdrawGrant c a .supply) a .supply ColRec.release) a .ret) a .ret
      ColRec.release)
    obtain ⟨hr1, hr2⟩ := withdrawGrant_leaves (book (withdrawGrant c a .supply) a .supply ColRec.release) a .ret
    obtain ⟨hs1, hs2⟩ := withdrawGrant_leaves c a .supply
    rw [book_twn] at htwn hr1
    rw [book_ord] at hord hr2
    exact ⟨htwn.trans (hr1.trans hs1), hord.trans (hr2.trans hs2)⟩

theorem takeVault_leaves (c : Core) : (takeVault c).twn = c.twn ∧ (takeVault c).ord = c.ord := by
  simp only [takeVault]
  split
  · exact ⟨rfl, rfl⟩
  · exact lowerAll_leaves _ c

/-- What a promotion makes of the controller (R465, R468, R487). -/
structure Promoted (c d : Core) : Prop where
  role : d.twn.role = .lead
  onRef : d.twn.onRef = (c.twn.attached && c.maq.twin.refclk)
  balanced : d.vlt.sup.balanced = true ∧ d.vlt.ret.balanced = true
  recs : c.twn.xMirOk = true → d.vlt.recs = c.vlt.recs
  orders : ∀ k : Fin 23, (slotOf d k.val).host = some (slotOf c k.val).merged

theorem promoted_promote (c : Core) : Promoted c (promote c) := by
  obtain ⟨htwn, hord⟩ := takeVault_leaves c
  have hmq : (takeVault c).mq = c.mq := congrArg Kept.mq (takeVault_kept c)
  refine { role := rfl, onRef := ?_, balanced := takeVault_balanced c, recs := takeVault_recs, orders := fun k => ?_ }
  · show ((takeVault c).twn.attached && (takeVault c).maq.twin.refclk) = _
    rw [htwn, Core.maq, hmq]
    rfl
  · have h31 : k.val < 31 := by omega
    have hadopt : slotOf (promote c) k.val = { slotOf c k.val with host := some (slotOf c k.val).merged } := by
      simp [promote, adoptMerged, hord, slotOf, vget_eq_getElem _ _ _ h31, k.isLt]
    rw [hadopt]

/-- What the survivor of a fence is (R163, R463, R464): it has won and drives the line alone, and recalls a deficit at once. -/
structure Survived (c d : Core) : Prop where
  fence : d.twn.fence = .won ∧ d.twn.drive = true ∧ d.twn.attached = false
  deficit : d.vlt.sup.recallNow = true ∧ d.vlt.ret.recallNow = true
  recs : d.vlt.recs = c.vlt.recs
  gdr : d.gdr = c.gdr

theorem survived_survive (c : Core) : Survived c (survive c) :=
  { fence := ⟨rfl, rfl, rfl⟩, deficit := ⟨rfl, rfl⟩, recs := rfl, gdr := rfl }

/-! ### Every gate low -/

/-- The path gates turned off are down (R58). -/
theorem pathDown_pathGatesOff (c : Core) : pathDown (pathGatesOff c .off) := by
  refine ⟨fun x hx => ?_, rfl, rfl, rfl⟩
  obtain ⟨i, hi, rfl⟩ := List.mem_iff_getElem.1 hx
  have h3 : i < 3 := by simpa using hi
  simp [pathGatesOff, allPairsOff]

theorem chiselAll_export (c : Core) (cause ph : Nat) : (chiselAll c cause ph).path.export_ = c.path.export_ := by
  simp only [chiselAll]
  split <;> rfl

/-- What a controller is once it is Fenced (R58, Table 17-2). -/
structure Fenced (c d : Core) : Prop where
  twn : d.twn.role = .fenced ∧ d.twn.attached = false ∧ d.twn.drive = false
  stage : stageDown d
  path : pathDown d
  export_ : d.path.export_ = none
  pins : d.pins = c.pins
  flt : d.flt = c.flt

theorem fenced_becomeFenced (c : Core) : Fenced c (becomeFenced c) := by
  obtain ⟨b, path, gdr, pd, plb, vlt, he, hexport, -⟩ := exportEnd_eq c true
  have hflt := exportEnd_flt c true
  refine { twn := ⟨rfl, rfl, rfl⟩, stage := stageDown_chiselAll (exportEnd c true) 8 0, path := pathDown_pathGatesOff _
           export_ := ?_, pins := ?_, flt := hflt }
  · show (chiselAll (exportEnd c true) 8 0).path.export_ = none
    rw [chiselAll_export, he, hexport]
  · show (exportEnd c true).pins = c.pins
    rw [he]

/-! ### The gap and the contest (R463, R464) -/

section
variable {s : State} (hrun : s.core.life.st = .run)
include hrun

theorem exec_fencingDelayEnd (hf : s.core.twn.fence = .delay) : exec .fencingDelayEnd s =
    .next (s.withTwin { s.core.twn with fence := .gap, rxBlock := true, drive := true }) := by
  show execFencingDelayEnd s = _
  exact onCoreIf_of_kept (by simp [inRun, hrun, hf]) rfl rfl

theorem exec_fencingGapSample_asserted (hf : s.core.twn.fence = .gap) : exec (.fencingGapSample true) s =
    .next (s.withTwin { s.core.twn with fence := .contest, slot := 0, drive := false }) := by
  show execFencingGapSample true s = _
  exact onCoreIf_of_kept (by simp [inRun, hrun, hf]) (if_pos rfl) rfl

theorem exec_fencingGapSample_released (hf : s.core.twn.fence = .gap) : exec (.fencingGapSample false) s =
    .next { s with core := survive s.core } := by
  show execFencingGapSample false s = _
  exact onCoreIf_of_kept (by simp [inRun, hrun, hf]) (if_neg Bool.false_ne_true) (survive_kept _)

/-- A 1 that samples the line low has lost. -/
theorem exec_contestSlot_lost (hf : s.core.twn.fence = .contest)
    (hbit : s.core.otp.serial.getLsbD (63 - s.core.twn.slot) = true) : exec (.contestSlot true) s =
      .next (s.withTwin { s.core.twn with fence := .none, lost := true, rxBlock := false, drive := false }) := by
  show execContestSlot true s = _
  exact onCoreIf_of_kept (by simp [inRun, hrun, hf]) (if_pos (by simp [hbit])) rfl

section
variable (low : Bool) (hf : s.core.twn.fence = .contest)
  (hbit : s.core.otp.serial.getLsbD (63 - s.core.twn.slot) = false ∨ low = false)
include hf hbit

/-- Another bit before the last goes on to the next slot. -/
theorem exec_contestSlot_on (hslot : s.core.twn.slot < 63) :
    exec (.contestSlot low) s = .next (s.withTwin { s.core.twn with slot := s.core.twn.slot + 1 }) := by
  have hne : s.core.twn.slot + 1 ≠ 64 := by omega
  show execContestSlot low s = _
  exact onCoreIf_of_kept (by simp [inRun, hrun, hf])
    ((if_neg (by rcases hbit with h | h <;> simp [h])).trans (if_neg hne)) rfl

/-- The last of the 64 slots wins. -/
theorem exec_contestSlot_won (hslot : s.core.twn.slot = 63) : exec (.contestSlot low) s =
    .next { s with core := survive { s.core with twn := { s.core.twn with slot := s.core.twn.slot + 1 } } } := by
  have heq : s.core.twn.slot + 1 = 64 := by omega
  show execContestSlot low s = _
  exact onCoreIf_of_kept (by simp [inRun, hrun, hf])
    ((if_neg (by rcases hbit with h | h <;> simp [h])).trans (if_pos heq)) (survive_kept _)

end

theorem exec_promotionComplete (hf : s.core.twn.fence = .won) (hr : s.core.twn.role = .follow) :
    exec .promotionComplete s = .next { s with core := promote s.core } := by
  show execPromotionComplete s = _
  exact onCoreIf_of_kept (by simp [inRun, hrun, hf, hr]) rfl (promote_kept _)

end

/-! ### The twin's pins (R58, R59, R467) -/

section
variable {s : State}

/-- The controller with the level of TW_TRIP_N read. -/
def Core.tripRead (c : Core) (b : Bool) : Core := { c with pins := { c.pins with twTrip := b } }

theorem exec_twTripNAsserted_fenced (hrun : s.core.life.st = .run) (htwin : s.core.maq.twin.expected = true)
    (hrx : s.core.twn.rxBlock = false) :
    exec .twTripNAsserted s = .next { s with core := becomeFenced (s.core.tripRead true) } := by
  have hblock : ¬ s.core.twn.rxBlock = true := by simp [hrx]
  have hlive : (inRun (s.core.tripRead true) || s.core.life.st == .dormant) = true := by simp [inRun, Core.tripRead, hrun]
  show execTwTripNAsserted s = _
  exact onCore_of_kept ((if_neg hblock).trans ((if_pos hlive).trans (if_pos htwin))) (becomeFenced_kept _)

theorem exec_twTripNAsserted_blocked (hrx : s.core.twn.rxBlock = true) :
    exec .twTripNAsserted s = .next { s with core := s.core.tripRead true } := by
  show execTwTripNAsserted s = _
  exact onCore_of_kept (if_pos hrx) rfl

/-- Released, the line frees the gates of a Follow without a Kiln Guard trip. -/
theorem exec_twTripNReleased_follow (hrun : s.core.life.st = .run) (hr : s.core.twn.role = .follow)
    (htrip : s.core.thm.tripped = false) : exec .twTripNReleased s =
      .next { s with core := { s.core.tripRead false with path := { s.core.path with held := false } } } := by
  have hfollow : (inRun (s.core.tripRead false) && s.core.twn.role == .follow) = true := by
    simp [inRun, Core.tripRead, hrun, hr]
  show execTwTripNReleased s = _
  exact onCore_of_kept ((if_pos hfollow).trans (by rw [← htrip]; rfl)) rfl

/-- A line that does not read back is a fault, and leaves the controller Fenced until the next start. -/
theorem exec_tripReadbackMismatch (hrun : s.core.life.st = .run) (htwin : s.core.maq.twin.expected = true)
    (hres : noResetRaised s.core) : ∃ g : TwnG, g.locked = true ∧ g.role = .fenced ∧
      exec .tripReadbackMismatch s = .next { s with core := { becomeFenced (fault s.core 0x1407 0) with twn := g } } := by
  have hkept : (fault s.core 0x1407 0).kept = s.core.kept := (fault_stands 0 hres (by decide)).1
  refine ⟨{ (becomeFenced (fault s.core 0x1407 0)).twn with locked := true }, rfl, rfl, ?_⟩
  show execTripReadbackMismatch s = _
  have hd := (becomeFenced_kept _).trans hkept
  refine onTwin_of_kept hrun htwin rfl ?_
  generalize becomeFenced (fault s.core 0x1407 0) = d at hd
  exact hd

theorem exec_twRefclkLoss (hrun : s.core.life.st = .run) (htwin : s.core.maq.twin.expected = true) :
    exec .twRefclkLoss s = .next (s.withTwin { s.core.twn with onRef := false }) := by
  show execTwRefclkLoss s = _
  exact onTwin_of_kept hrun htwin rfl rfl

/-- The controller with the level of TW_PRES_N read. -/
def Core.presRead (c : Core) (b : Bool) : Core := { c with pins := { c.pins with twPres := b } }

theorem wakeBegin_presRead (c : Core) (b wd : Bool) :
    wakeBegin (c.presRead b) wd = { c.presRead b with life := (wakeBegin c wd).life } := by
  by_cases h : c.life.st = .dormant <;> simp [wakeBegin, Core.presRead, h]

/-- Outside Safe Hold, and asserted everywhere, TW_PRES_N wakes Dormant by its edge and does nothing more (Table 04-5). -/
theorem exec_twPresNChange_wakes (b : Bool) (h : s.core.life.st ≠ .safeHold ∨ b = true) : exec (.twPresNChange b) s =
    .next { s with core := { s.core.presRead b with
      life := if b && !s.core.pins.twPres then (wakeBegin s.core false).life else s.core.life } } := by
  show execTwPresNChange b s = _
  by_cases hedge : (b && !s.core.pins.twPres) = true
  · rw [if_pos hedge, ← wakeBegin_presRead]
    exact onCore_of_kept (if_pos hedge) (wakeBegin_kept _ _)
  · have hsafe : ¬ (inSafeHold (s.core.presRead b) && !b) = true := by
      rcases h with h | h <;> simp [inSafeHold, Core.presRead, h]
    rw [if_neg hedge]
    exact onCore_of_kept ((if_neg hedge).trans (if_neg hsafe)) rfl

/-- Deasserted in Safe Hold it asserts every SHED line (R59). -/
theorem exec_twPresNChange_sheds (h : s.core.life.st = .safeHold) : exec (.twPresNChange false) s =
    .next { s with core := { s.core.presRead false with plb := { s.core.plb with
      p := vmap (fun _ g => { g with bySafe := true, shed := true }) s.core.plb.p } } } := by
  show execTwPresNChange false s = _
  exact onCore_of_kept ((if_neg (by simp)).trans (if_pos (by simp [inSafeHold, h]))) rfl

end

end Sys2Proof.Machine

open Sys2Proof Sys2Proof.Machine

/-- Settles O58: each step of the fence is the lemma of its command; the trip line makes the controller Fenced by
`becomeFenced`, and the winner of the fence promotes by `promote`. -/
theorem fencingLeavesOneController : Obligations.FencingLeavesOneController := by
  intro s hrun htwin
  refine ⟨fun htr hnew => ⟨fun hlast hdet hfen hf hres => ?_, fun h hl hr => ?_⟩, exec_fencingDelayEnd hrun, fun hf => ?_,
    fun hf low => ⟨fun hbit hlow => ?_, fun hbit hslot => ?_, fun hbit hslot => ?_⟩, fun hf hr => ?_, fun hrx => ?_,
    fun hrx => ?_, fun hr htrip => ?_, fun hres => ?_, exec_twRefclkLoss hrun htwin, fun b u => ⟨fun h => ?_, fun h => ?_⟩⟩
  · obtain ⟨hkept, hlatch, htwn, -, -⟩ := fault_stands (c := s.core.beatLost) (code := 0x1401) 0 hres (by decide)
    have hdelay : fenceBegin (fault s.core.beatLost 0x1401 0) = { fault s.core.beatLost 0x1401 0 with
        twn := { s.core.twn.beatLost with fence := .delay, slot := 0, lost := false } } := by
      rw [fenceBegin_delay (by rw [htwn]; exact hf) (by rw [htwn]; exact hfen) (by rw [htwn]; exact hdet), htwn]
      rfl
    have hlost := (heartbeatLost_fault htr hnew (TwnG.not_gone hlast) hdet).trans hdelay
    clear hdelay htwn
    generalize fault s.core.beatLost 0x1401 0 = d at hkept hlatch hlost
    exact ⟨_, onTwin_of_kept hrun htwin hlost hkept, rfl, rfl, Nat.min_comm _ _, rfl, hlatch⟩
  · exact onTwin_of_kept hrun htwin (heartbeatLost_gone htr hnew (TwnG.gone_of_last hl hr)) rfl
  · obtain ⟨⟨hwon, hdrive, hatt⟩, ⟨hsup, hret⟩, hrecs, hgdr⟩ := survived_survive s.core
    exact ⟨exec_fencingGapSample_asserted hrun hf, _, exec_fencingGapSample_released hrun hf, hwon, hdrive, hatt, hsup, hret,
      hrecs, hgdr⟩
  · subst hlow
    exact exec_contestSlot_lost hrun hf hbit
  · exact exec_contestSlot_on hrun low hf hbit hslot
  · have hbit' : s.core.otp.serial.getLsbD (63 - s.core.twn.slot) = false ∨ low = false := by simpa [hslot] using hbit
    exact ⟨_, exec_contestSlot_won hrun low hf hbit' hslot, rfl, rfl⟩
  · obtain ⟨hrole, href, ⟨hsup, hret⟩, hrecs, hord⟩ := promoted_promote s.core
    exact ⟨_, exec_promotionComplete hrun hf hr, hrole, href, hsup, hret, hrecs, hord⟩
  · obtain ⟨⟨hrole, hatt, hdrive⟩, hstage, hpath, hexport, hpins, -⟩ := fenced_becomeFenced (s.core.tripRead true)
    exact ⟨_, exec_twTripNAsserted_fenced hrun htwin hrx, hrole, hatt, hdrive, hstage, hpath, hexport, by rw [hpins]; rfl⟩
  · exact exec_twTripNAsserted_blocked hrx
  · exact exec_twTripNReleased_follow hrun hr htrip
  · obtain ⟨-, hlatch, -⟩ := fault_stands (c := s.core) (code := 0x1407) 0 hres (by decide)
    obtain ⟨-, hstage, hpath, -, -, hflt⟩ := fenced_becomeFenced (fault s.core 0x1407 0)
    obtain ⟨g, hlocked, hrole, hexec⟩ := exec_tripReadbackMismatch hrun htwin hres
    exact ⟨_, hexec, hrole, hlocked, hstage, hpath, by unfold latched faultActive at *; rw [hflt]; exact hlatch⟩
  · exact exec_twPresNChange_wakes b h
  · refine ⟨_, exec_twPresNChange_sheds h, rfl, fun g hg => ?_⟩
    obtain ⟨i, hi, rfl⟩ := List.mem_iff_getElem.1 hg
    have h4 : i < 4 := by simpa using hi
    simp
end

section
/-! PROOFS. The vendor alternate mode, moisture, and the faults of Table 14-5 on a Type-C port (chapter 14). -/

namespace Sys2Proof.Machine

/-! ### Commands that change one Type-C port -/

section
variable {s : State} {p : PdId} {q : Core → Bool} {f : Core → Core} {g : PdG → PdG}

/-- A change of a port reads its old state alone. -/
theorem updPd_const (c : Core) (p : PdId) (g : PdG → PdG) : updPd c p g = updPd c p fun _ => g (c.port p) := by
  simp only [updPd, Core.port]
  rw [vupd_eq_const c.pd (pdIx p) g {}]

theorem updPd_withPort (s : State) (p : PdId) (g : PdG → PdG) :
    { s with core := updPd s.core p g } = s.withPort p (g (s.core.port p)) := by
  rw [updPd_const]
  rfl

@[simp] theorem withPort_port (s : State) (p : PdId) (x : PdG) : (s.withPort p x).core.port p = x :=
  vget_vupd_self _ _ _ _ (pdIx_lt p)

/-- A command whose condition holds, and whose function changes a port alone. -/
theorem onCoreIf_updPd (hq : q s.core = true) (hf : f s.core = updPd s.core p g) :
    onCoreIf s q f = .next (s.withPort p (g (s.core.port p))) := by
  rw [onCoreIf_of_kept hq hf rfl, updPd_withPort]

/-- A message received by an attached port in Run. -/
theorem onPd_of_kept {d : Core} (hrun : s.core.life.st = .run) (hatt : (s.core.port p).attached)
    (hf : f (pdCount s.core p) = d) (hd : d.kept = s.core.kept) : onPd s p f = .next { s with core := d } :=
  onCoreIf_of_kept (f := fun c => f (pdCount c p)) (by simpa [inRun, hrun, PdG.attached] using hatt) hf hd

/-- A message whose answer changes the port alone. -/
theorem onPd_updPd (hrun : s.core.life.st = .run) (hatt : (s.core.port p).attached)
    (hf : f (pdCount s.core p) = updPd (pdCount s.core p) p g) : onPd s p f = .next (s.withPort p (g (s.core.port p).heard)) := by
  rw [onPd_of_kept hrun hatt hf rfl, pdCount, updPd_updPd, updPd_withPort]
  rfl

theorem pdSend_says (c : Core) (p : PdId) {m : PdMsg} (hh : m ≠ .hardReset) (hr : m ≠ .reject) :
    pdSend c p m = updPd c p fun x => x.says m := by
  simp [pdSend, PdG.says, hh, hr]

/-- A message that is answered by a message. -/
theorem onPd_says {m : PdMsg} (hrun : s.core.life.st = .run) (hatt : (s.core.port p).attached) (hh : m ≠ .hardReset)
    (hr : m ≠ .reject) (hf : f (pdCount s.core p) = pdSend (pdCount s.core p) p m) :
    onPd s p f = .next (s.withPort p ((s.core.port p).heard.says m)) :=
  onPd_updPd hrun hatt (hf.trans (pdSend_says _ p hh hr))

end

section
variable (c : Core) (p : PdId)

@[simp] theorem pdCount_port : (pdCount c p).port p = (c.port p).heard := updPd_port_self c p _

/-- A message received and answered. -/
theorem pdSend_pdCount_port {m : PdMsg} (hh : m ≠ .hardReset) (hr : m ≠ .reject) :
    (pdSend (pdCount c p) p m).port p = (c.port p).heard.says m := by
  rw [pdSend_says _ p hh hr, updPd_port_self, pdCount_port]

@[simp] theorem pdCount_port_other : (pdCount c p).port (otherPd p) = c.port (otherPd p) :=
  updPd_port_ne c _ (by cases p <;> decide)

@[simp] theorem heard_att (g : PdG) : g.heard.att = g.att := rfl

/-- A message counted changes nothing of whether the mode is offered. -/
@[simp] theorem offersMode_pdCount : offersMode (pdCount c p) p = offersMode c p := by
  simp only [offersMode, pdCount_port, pdCount_port_other]
  rfl

end

/-! ### The vendor alternate mode (R393–R395, R338) -/

section
variable {s : State} {p : PdId} (hrun : s.core.life.st = .run)
include hrun

section
variable (hatt : (s.core.port p).att = .sink)
include hatt

theorem exec_discoverIdentity_sink :
    exec (.discoverIdentity p) s = .next (s.withPort p ((s.core.port p).heard.says .ackIdentity)) := by
  show execDiscoverIdentity p s = _
  exact onPd_says (m := .ackIdentity) hrun (.inl hatt) nofun nofun (by simp [hatt])

theorem exec_discoverSvids_sink (b : Bool) :
    exec (.discoverSvids p b) s = .next (s.withPort p ((s.core.port p).heard.says
      (.ackSvids (if offersMode s.core p then [Config.svid] else [])))) := by
  show execDiscoverSvids p b s = _
  exact onPd_says (m := .ackSvids _) hrun (.inl hatt) nofun nofun (by simp [hatt])

theorem exec_discoverModes_offered (ho : offersMode s.core p = true) :
    exec (.discoverModes p Config.svid) s =
      .next (s.withPort p ((s.core.port p).heard.says (.ackModes (modeVdo s.core)))) := by
  show execDiscoverModes p Config.svid s = _
  refine onPd_says (m := .ackModes _) hrun (.inl hatt) nofun nofun ?_
  simp only [pdCount_port, heard_att, hatt, offersMode_pdCount, ho, beq_self_eq_true, Bool.and_self, if_true]
  rfl

/-- Without the vendor SVID, or where the mode is not offered, a sink answers NAK (R393). -/
theorem exec_discoverModes_nak {v : BitVec 16} (hv : v ≠ Config.svid ∨ offersMode s.core p = false) :
    exec (.discoverModes p v) s = .next (s.withPort p ((s.core.port p).heard.says .nak)) := by
  show execDiscoverModes p v s = _
  refine onPd_says (m := .nak) hrun (.inl hatt) nofun nofun ?_
  rcases hv with hv | hv <;> simp [hatt, hv]

theorem exec_enterMode_nak {v : BitVec 16} (hv : v ≠ Config.svid ∨ offersMode s.core p = false) :
    exec (.enterMode p v) s = .next (s.withPort p ((s.core.port p).heard.says .nak)) := by
  show execEnterMode p v s = _
  refine onPd_says (m := .nak) hrun (.inl hatt) nofun nofun ?_
  rcases hv with hv | hv <;> simp [hatt, hv]

theorem exec_enterMode_offered (ho : offersMode s.core p = true) :
    exec (.enterMode p Config.svid) s =
      .next { s with core := enterAlt (pdSend (pdCount s.core p) p .ackEnter) p } := by
  show execEnterMode p Config.svid s = _
  refine onPd_of_kept hrun (.inl hatt) ?_ (by simp)
  simp [hatt, ho]

end

/-- A source whose partner lists the mode asks it to enter (R394, R390). -/
theorem exec_discoverModes_source (hatt : (s.core.port p).att = .source) (ho : offersMode s.core p = true)
    (hl : (s.core.port p).altListed = true) :
    exec (.discoverModes p Config.svid) s = .next (s.withPort p { (s.core.port p).heard with
      txWait := true, txQueue := (s.core.port p).txQueue ++ [.enterMode], cc := .rp15 }) := by
  have hlh : (s.core.port p).heard.altListed = true := hl
  show execDiscoverModes p Config.svid s = _
  refine onPd_updPd (g := fun x => { x with txWait := true, txQueue := x.txQueue ++ [.enterMode], cc := .rp15 }) hrun
    (.inr hatt) ?_
  simp [hatt, ho, hlh, beginSequence]

theorem exec_exitMode_active (hatt : (s.core.port p).attached) (halt : (s.core.port p).alt = true) :
    exec (.exitMode p Config.svid) s = .next { s with core := altExit (pdSend (pdCount s.core p) p .ackExit) p } := by
  have hah : (s.core.port p).heard.alt = true := halt
  show execExitMode p Config.svid s = _
  refine onPd_of_kept hrun hatt ?_ (altExit_kept _ p)
  simp [hah]

theorem exec_exitMode_nak (hatt : (s.core.port p).attached) (halt : (s.core.port p).alt = false) (v : BitVec 16) :
    exec (.exitMode p v) s = .next (s.withPort p ((s.core.port p).heard.says .nak)) := by
  have hah : (s.core.port p).heard.alt = false := halt
  show execExitMode p v s = _
  exact onPd_says (m := .nak) hrun hatt nofun nofun (by simp [hah])

end

section
variable (c : Core) (p : PdId)

theorem enterAlt_port : (enterAlt c p).port p = { c.port p with alt := true } := updPd_port_self c p _

theorem enterAlt_plbPort : (enterAlt c p).plbPort 3 = { c.plbPort 3 with medium := true, st := .active, tec := 0 } :=
  vget_vupd_self _ 3 _ _ (by decide)

theorem enterAlt_plb_other {q : Fin 4} (h : q ≠ 3) : (enterAlt c p).plb.p[q] = c.plb.p[q] :=
  getElem_vupd_ne _ 3 _ _ q.isLt fun e => h (Fin.ext e)

theorem altExit_port : (altExit c p).port p = { c.port p with alt := false } := by
  rw [Core.port, altExit_pd, vget_vupd_self _ _ _ _ (pdIx_lt p)]
  rfl

/-- Plinth port 4 is without its medium once the mode is left (R338, R395). -/
theorem altExit_medium (halt : (c.port p).alt = true) (hroute : c.maq.plbs.route = true) :
    ((altExit c p).plbPort 3).medium = false := by
  simp only [altExit, halt, if_true, dropMedium]
  split
  · rename_i h
    have hmaq : (updPd c p fun g => { g with alt := false }).maq = c.maq := rfl
    rw [hmaq, hroute] at h
    exact eq_false_of_ne_true fun hm => by simp [Core.plbPort] at hm; simp [hm] at h
  · rw [bookAll_eq, bookAll_eq]
    simp [Core.plbPort, vget_vupd_self]

end

/-- A sink that enters the mode acknowledges it, and Plinth port 4 is Active with TEC 0 (R338, R394). -/
theorem enters_enterMode {s : State} {p : PdId} (hrun : s.core.life.st = .run) (hatt : (s.core.port p).att = .sink)
    (ho : offersMode s.core p = true) :
    ∃ t, exec (.enterMode p Config.svid) s = .next t ∧ (t.core.port p).alt = true ∧
      (t.core.plbPort 3).medium = true ∧ (t.core.plbPort 3).st = .active ∧ (t.core.plbPort 3).tec = 0 ∧
      (t.core.port p).sent = (s.core.port p).sent ++ [.ackEnter] ∧ t.core.vlt = s.core.vlt ∧
      ∀ q : Fin 4, q ≠ 3 → t.core.plb.p[q] = s.core.plb.p[q] := by
  refine ⟨_, exec_enterMode_offered hrun hatt ho, ?_, ?_, ?_, ?_, ?_, ?_, fun q hq => ?_⟩
  · rw [enterAlt_port]
  · rw [enterAlt_plbPort]
  · rw [enterAlt_plbPort]
  · rw [enterAlt_plbPort]
  · rw [enterAlt_port, pdSend_pdCount_port _ p (m := .ackEnter) nofun nofun]
    rfl
  · simp [enterAlt, pdSend, pdCount]
  · rw [enterAlt_plb_other _ p hq]
    simp [pdSend, pdCount]

/-! ### The cable (R392) -/

/-- Where the port does not source yet, no offer leaves. -/
theorem sendOffer_idle {c : Core} {p : PdId} (h : pdExporting c p = false) : sendOffer c p = c := by
  simp [sendOffer, h]

section
variable {s : State} {p : PdId} (hrun : s.core.life.st = .run) (hw : (s.core.port p).cableWait = true)
  (hx : pdExporting s.core p = false)
include hrun hw hx

theorem exec_cableIdentityReply_idle (five : Bool) :
    exec (.cableIdentityReply p five) s = .next (s.withPort p { (s.core.port p).heard with
      cableWait := false, cable5 := five && (s.core.port p).vconn }) := by
  show execCableIdentityReply p five s = _
  exact onCoreIf_updPd (g := fun x => { x.heard with cableWait := false, cable5 := five && x.vconn })
    (by simp [inRun, hrun, hw]) (sendOffer_idle hx)

theorem exec_cableDiscoveryTimeout_idle :
    exec (.cableDiscoveryTimeout p) s = .next (s.withPort p { s.core.port p with cableWait := false, cable5 := false }) := by
  show execCableDiscoveryTimeout p s = _
  exact onCoreIf_updPd (g := fun x => { x with cableWait := false, cable5 := false }) (by simp [inRun, hrun, hw]) (sendOffer_idle hx)

end

/-! ### A port that leaves its partner (R377, R388, R397) -/

/-- A port without a partner: in this attach state, with CC open and nothing running. -/
structure PdG.Alone (g : PdG) (att : Attach) : Prop where
  att : g.att = att
  cc : g.cc = .open_
  quiet : g.quiet

/-- A port stays alone where its pins are marked (Table 14-5 row 2). -/
theorem PdG.Alone.ovClear {g : PdG} {att : Attach} (h : g.Alone att) (b : Bool) : PdG.Alone { g with ovClear := b } att :=
  ⟨h.att, h.cc, h.quiet⟩

/-- A fault below class D leaves a port alone. -/
theorem PdG.Alone.steady {g g' : PdG} {att : Attach} (h : g.Alone att) (hs : g.Steady g') : g'.Alone att :=
  ⟨hs.att.trans h.att, hs.cc.trans h.cc, hs.quiet h.quiet⟩

theorem pdLeave_alone (c : Core) (p : PdId) (att : Attach) : ((pdLeave c p att).port p).Alone att := by
  simp only [pdLeave, updPd_port_self]
  exact ⟨rfl, rfl, rfl, rfl, rfl, rfl, rfl, rfl, rfl⟩

theorem recordCondition_port (c : Core) (p : PdId) : (recordCondition c).port p = c.port p := by
  rw [recordCondition, queueFree_eq]
  rfl

theorem recordCondition_fault (c : Core) : (recordCondition c).flt = c.flt := by
  rw [recordCondition, queueFree_eq]

/-- A port changed and then terminated (Table 14-3): its termination leaves the attach state and the moisture. -/
theorem pdTerm_of_updPd (c : Core) (p : PdId) (f : PdG → PdG) : ∃ x : PdG, pdTerm (updPd c p f) p = updPd c p (fun _ => x) ∧
    x.att = (f (c.port p)).att ∧ x.damp = (f (c.port p)).damp ∧ x.corroded = (f (c.port p)).corroded := by
  refine ⟨(pdTerm (updPd c p f) p).port p, ?_, ?_⟩
  · simp only [pdTerm, updPd_updPd, updPd_port_self]
    exact updPd_const c p _
  · simp only [pdTerm, updPd_updPd, updPd_port_self]
    split
    · split
      · exact ⟨rfl, rfl, rfl⟩
      · split
        · exact ⟨rfl, rfl, rfl⟩
        · split
          · exact ⟨rfl, rfl, rfl⟩
          · split <;> exact ⟨rfl, rfl, rfl⟩
    all_goals exact ⟨rfl, rfl, rfl⟩

/-! ### Moisture (R396, R397) -/

/-- Wet readings in a row, pin by pin. -/
def PdG.wetCounts (g : PdG) (w : Nat) (kohm : Vector Nat 4) : Vector Nat 4 :=
  vmap (fun k n => if pinMeasured g k && decide (vget kohm k 0 < w) then n + 1 else 0) g.wet

/-- Readings kept, pin by pin. -/
def PdG.readings (g : PdG) (kohm : Vector Nat 4) : Vector Nat 4 :=
  vmap (fun k r => if pinMeasured g k then satNat 16 r else vget g.kohm k 0) kohm

/-- A port that has measured its pins. -/
def PdG.measured (g : PdG) (w : Nat) (kohm : Vector Nat 4) : PdG :=
  { g with kohm := g.readings kohm, wet := g.wetCounts w kohm }

section
variable {g : PdG} {w : Nat} {kohm : Vector Nat 4}

theorem wetCounts_dry (h : ∀ k : Fin 4, w ≤ kohm[k]) (k : Nat) (hk : k < 4) : (g.wetCounts w kohm)[k] = 0 := by
  have hdry : ¬ kohm[k] < w := Nat.not_lt.2 (h ⟨k, hk⟩)
  simp [PdG.wetCounts, vget_eq_getElem _ _ _ hk, hdry]

theorem wetCounts_wet {k : Fin 4} (hm : pinMeasured g k.val = true) (hw : kohm[k] < w) :
    (g.wetCounts w kohm)[k] = g.wet[k] + 1 := by
  have hlow : kohm[k.val] < w := hw
  simp [PdG.wetCounts, vget_eq_getElem _ _ _ k.isLt, hm, hlow]

theorem wetCounts_any_false (h : ∀ k : Fin 4, w ≤ kohm[k]) :
    ((g.wetCounts w kohm).toList.any fun n => decide (3 ≤ n)) = false := by
  refine List.any_eq_false.2 fun n hn => ?_
  obtain ⟨i, hi, rfl⟩ := List.mem_iff_getElem.1 hn
  simp [wetCounts_dry h i (by simpa using hi)]

theorem wetCounts_any {k : Fin 4} (hm : pinMeasured g k.val = true) (hw : kohm[k] < w) (h2 : 2 ≤ g.wet[k]) :
    ((g.wetCounts w kohm).toList.any fun n => decide (3 ≤ n)) = true := by
  have h3 : 3 ≤ (g.wetCounts w kohm)[k] := by
    rw [wetCounts_wet hm hw]
    omega
  exact List.any_eq_true.2 ⟨_, Vector.mem_toList_iff.2 (Vector.getElem_mem k.isLt), decide_eq_true h3⟩

end

/-- What a measurement does to a port, once its readings stand (R396, R397): a Damp port counts its dry ones, and another
one is Damp at the third wet one of a pin in a row. -/
def moisten (c : Core) (p : PdId) (kohm : Vector Nat 4) : Core :=
  let w := (pdCfg c p).wet
  let g := c.port p
  let c := updPd c p fun x => { x with kohm := g.readings kohm, wet := g.wetCounts w kohm }
  if g.damp then
    let dry := if kohm.toList.all fun r => decide (2 * w < r) then g.dry + 1 else 0
    let c := updPd c p fun x => { x with dry := dry, dampSec := x.dampSec + 1 }
    if 10 ≤ dry then
      pdTerm (updPd c p fun x => { x with
        damp := false, corroded := false
        att := if x.att == .outOfService then .outOfService else .unattached }) p
    else c
  else if (g.wetCounts w kohm).toList.any fun n => decide (3 ≤ n) then dampEntry c p
  else c

/-- A Damp port that has dried (R397). -/
def PdG.dried (g : PdG) : PdG :=
  { g with damp := false, corroded := false, att := if g.att == .outOfService then .outOfService else .unattached }

section
variable {c : Core} {p : PdId} {kohm : Vector Nat 4}

theorem moisten_dry (hd : (c.port p).damp = false) (hk : ∀ k : Fin 4, (pdCfg c p).wet ≤ kohm[k]) :
    moisten c p kohm = updPd c p fun x => { x with
      kohm := (c.port p).readings kohm, wet := (c.port p).wetCounts (pdCfg c p).wet kohm } := by
  simp [moisten, hd, wetCounts_any_false hk]

theorem moisten_wet {k : Fin 4} (hd : (c.port p).damp = false) (hm : pinMeasured (c.port p) k.val = true)
    (hw : kohm[k] < (pdCfg c p).wet) (h2 : 2 ≤ (c.port p).wet[k]) :
    moisten c p kohm = dampEntry (updPd c p fun x => { x with
      kohm := (c.port p).readings kohm, wet := (c.port p).wetCounts (pdCfg c p).wet kohm }) p := by
  simp only [moisten, hd, wetCounts_any hm hw h2, if_true]
  rfl

/-- The tenth dry measurement in a row ends Damp, and nothing but the port changes (R397). -/
theorem moisten_dries (hd : (c.port p).damp = true) (h9 : 9 ≤ (c.port p).dry)
    (hk : ∀ k : Fin 4, 2 * (pdCfg c p).wet < kohm[k]) :
    ∃ x : PdG, moisten c p kohm = updPd c p (fun _ => x) ∧ x.damp = false ∧ x.corroded = false ∧
      x.att = if (c.port p).att = .outOfService then .outOfService else .unattached := by
  have hall : (kohm.toList.all fun r => decide (2 * (pdCfg c p).wet < r)) = true := by
    refine List.all_eq_true.2 fun r hr => ?_
    obtain ⟨i, hi, rfl⟩ := List.mem_iff_getElem.1 hr
    simpa using hk ⟨i, by simpa using hi⟩
  have h10 : 10 ≤ (c.port p).dry + 1 := by omega
  simp only [moisten, hd, hall, h10, if_true, updPd_updPd]
  refine (pdTerm_of_updPd c p _).imp fun x ⟨hx, hatt, hdamp, hcor⟩ => ⟨hx, hdamp, hcor, hatt.trans ?_⟩
  simp

end

section
variable (c : Core) (p : PdId)

/-- A port that enters Damp leaves its partner, and VBUS is discharged where it was a source (R397). -/
theorem dampEntry_port : ∃ x : PdG, (dampEntry c p).port p =
      { x with damp := true, dry := 0, dampSec := 0, discharge := decide ((c.port p).att = .source) } ∧
    x.Alone (if (c.port p).att = .outOfService then .outOfService else .damp) := by
  refine ⟨_, ?_, pdLeave_alone c p _⟩
  simp only [dampEntry, updPd_port_self, recordCondition_port, beq_iff_eq]
  rfl

end

section
variable {s : State} {p : PdId} (hrun : s.core.life.st = .run)
include hrun

section
variable (hm : (pdCfg s.core p).moisture = true) (hi : (s.core.port p).iso = false)
include hm hi

theorem exec_moistureMeasurement (kohm : Vector Nat 4) :
    exec (.moistureMeasurement p kohm) s = .next { s with core := moisten s.core p kohm } := by
  show execMoistureMeasurement p kohm s = _
  refine onCoreIf_of_kept (by simp [inRun, hrun, hm, hi]) rfl ?_
  unfold moisten
  dsimp only
  repeat' split
  all_goals simp

end

/-- The corrosion time marks a Damp port, and records its condition (R397). -/
theorem exec_corrosionTime (hd : (s.core.port p).damp = true) (hc : (s.core.port p).corroded = false) :
    exec (.corrosionTime p) s =
      .next { s with core := recordCondition (updPd s.core p fun g => { g with corroded := true }) } := by
  show execCorrosionTime p s = _
  exact onCoreIf_of_kept (by simp [inRun, hrun, hd, hc]) rfl (by simp)

end

/-! ### The faults of Table 14-5 -/

theorem noResetRaised_of_kept {c d : Core} (hk : d.kept = c.kept) (h : noResetRaised c) : noResetRaised d := by
  have hmq : d.mq = c.mq := congrArg Kept.mq hk
  unfold noResetRaised Core.maq at *
  rw [hmq]
  exact h

/-- No fault of a port is one of class D (Table 14-5). -/
theorem rowClass_pdFaultCode (p : PdId) {k : Nat} (h1 : 1 ≤ k) (h4 : k ≤ 4) : (rowClass (pdFaultCode p k)).getD .b ≠ .d := by
  interval_cases k <;> cases p <;> decide

/-- A command that does what a fault of Table 14-5 asks of its port, and raises it. -/
theorem onCoreIf_portFault {s : State} {r : Res} {q : Core → Bool} {f : Core → Core} {d : Core} {p : PdId} {k : Nat}
    (hr : r = onCoreIf s q f) (hf : f s.core = fault d (pdFaultCode p k) 0) (h1 : 1 ≤ k) (h4 : k ≤ 4)
    (hn : noResetRaised s.core) (hq : q s.core = true) (hd : d.kept = s.core.kept) :
    ∃ t, r = .next t ∧ latched t.core (pdFaultCode p k) 0 ∧ LeftByFault d t.core := by
  obtain ⟨hkept, hlatch, hleft⟩ := fault_stands 0 (noResetRaised_of_kept hd hn) (rowClass_pdFaultCode p h1 h4)
  exact ⟨_, hr.trans (onCoreIf_of_kept hq hf (hkept.trans hd)), hlatch, hleft⟩

theorem pdExporting_export {c : Core} {p : PdId} (h : pdExporting c p = true) :
    ∃ e, c.path.export_ = some e ∧ e.port.pd = some p := by
  unfold pdExporting at h
  split at h
  · next e he =>
    simp only [Bool.and_eq_true, beq_iff_eq] at h
    refine ⟨e, he, ?_⟩
    rw [h.1]
    cases p <;> rfl
  · cases h

theorem exportEnd_export (c : Core) (hr : Bool) : (exportEnd c hr).path.export_ = none := by
  obtain ⟨b, path, gdr, pd, plb, vlt, he, hnone, -⟩ := exportEnd_eq c hr
  rw [he]
  exact hnone

/-- The end of a port's exporting with Hard Reset discharges its VBUS (R156, R388). -/
theorem exportEnd_discharge {c : Core} {p : PdId} {e : Export} (he : c.path.export_ = some e) (hp : e.port.pd = some p) :
    ((exportEnd c true).port p).discharge = true := by
  simp only [exportEnd, he, hp, if_true, pdExportEnd, updPd_port_self]

/-- An offer changes nothing of VCONN and the cable (R385). -/
theorem sendOffer_port (c : Core) (p : PdId) :
    ((sendOffer c p).port p).vconn = (c.port p).vconn ∧ ((sendOffer c p).port p).cable5 = (c.port p).cable5 := by
  unfold sendOffer
  dsimp only
  split
  · simp [pdSend]
  · exact ⟨rfl, rfl⟩

section
variable {s : State} {p : PdId} (hrun : s.core.life.st = .run) (hn : noResetRaised s.core)
include hrun hn

theorem exec_vbusOvervoltage_faults (hx : pdExporting s.core p = true) :
    ∃ t, exec (.vbusOvervoltage p) s = .next t ∧ latched t.core (pdFaultCode p 1) 0 ∧
      (t.core.port p).hold = true ∧ t.core.path.export_ = none ∧ (t.core.port p).discharge = true := by
  obtain ⟨e, he, hp⟩ := pdExporting_export hx
  have hcmd : execVbusOvervoltage p s = onCoreIf s _ _ := rfl
  obtain ⟨t, hexec, hlatch, -, hexp, hport⟩ := onCoreIf_portFault (p := p) (k := 1) hcmd rfl (by decide) (by decide) hn
    (by simp [inRun, hrun, hx]) (by simp)
  have hsteady := hport p
  rw [updPd_port_self] at hsteady
  exact ⟨t, hexec, hlatch, hsteady.hold, hexp (exportEnd_export _ true),
    hsteady.discharge (exportEnd_discharge he hp)⟩

theorem exec_ccSbuOvervoltage_faults (hpr : (pdCfg s.core p).present = true) (hi : (s.core.port p).iso = false) :
    ∃ t, exec (.ccSbuOvervoltage p) s = .next t ∧ latched t.core (pdFaultCode p 2) 0 ∧
      (t.core.port p).att = .outOfService ∧ (t.core.port p).quiet ∧ (t.core.port p).cc = .open_ := by
  have hcmd : execCcSbuOvervoltage p s = onCoreIf s _ _ := rfl
  obtain ⟨t, hexec, hlatch, -, -, hport⟩ := onCoreIf_portFault (p := p) (k := 2) hcmd rfl (by decide) (by decide) hn
    (by simp [pdWatched, inRun, hrun, hpr, hi]) (by simp)
  have hsteady := hport p
  rw [updPd_port_self] at hsteady
  obtain ⟨hatt, hcc, hquiet⟩ := ((pdLeave_alone s.core p .outOfService).ovClear false).steady hsteady
  exact ⟨t, hexec, hlatch, hatt, hquiet, hcc⟩

theorem exec_vconnTrip_faults (hv : (s.core.port p).vconn = true) :
    ∃ t, exec (.vconnTrip p) s = .next t ∧ latched t.core (pdFaultCode p 3) 0 ∧
      (t.core.port p).vconn = false ∧ (t.core.port p).cable5 = false := by
  have hcmd : execVconnTrip p s = onCoreIf s _ _ := rfl
  obtain ⟨t, hexec, hlatch, -, -, hport⟩ := onCoreIf_portFault (p := p) (k := 3) hcmd rfl (by decide) (by decide) hn
    (by simp [inRun, hrun, hv]) (by simp)
  obtain ⟨hvconn, hcable⟩ := sendOffer_port _ p
  rw [updPd_port_self] at hvconn hcable
  exact ⟨t, hexec, hlatch, (hport p).vconn hvconn, (hport p).cable5.trans hcable⟩

theorem exec_bmcReadbackMismatch_faults (ha : (s.core.port p).attached) :
    ∃ t, exec (.bmcReadbackMismatch p) s = .next t ∧ latched t.core (pdFaultCode p 4) 0 ∧
      (t.core.port p).att = .errorRecovery ∧ (t.core.port p).quiet := by
  have hcmd : execBmcReadbackMismatch p s = onCoreIf s _ _ := rfl
  obtain ⟨t, hexec, hlatch, -, -, hport⟩ := onCoreIf_portFault (p := p) (k := 4) hcmd rfl (by decide) (by decide) hn
    (by simpa [inRun, hrun, PdG.attached] using ha) (by simp)
  obtain ⟨hatt, -, hquiet⟩ := (pdLeave_alone s.core p .errorRecovery).steady (hport p)
  exact ⟨t, hexec, hlatch, hatt, hquiet⟩

end

/-! ### A port out of service (Table 14-5 row 2, R53) -/

section
variable {c : Core} {p : PdId}

theorem pdReturn_active (hf : faultActive c (pdFaultCode p 2) 0 = true) : pdReturn c p = c :=
  if_neg (by rw [hf]; simp)

theorem pdReturn_clear (ha : (c.port p).att = .outOfService) (hc : (c.port p).ovClear = true)
    (hf : faultActive c (pdFaultCode p 2) 0 = false) :
    pdReturn c p = pdTerm (updPd c p fun g => { g with att := if g.damp then .damp else .unattached, ovClear := false }) p :=
  if_pos (by rw [ha, hc, hf]; rfl)

end

section
variable {s : State} {p : PdId} (hrun : s.core.life.st = .run) (ha : (s.core.port p).att = .outOfService)
include hrun ha

/-- While its fault is active, a port out of service stays so. -/
theorem exec_ccSbuOvervoltageRecovery_active (hf : faultActive s.core (pdFaultCode p 2) 0 = true) :
    exec (.ccSbuOvervoltageRecovery p) s = .next (s.withPort p { s.core.port p with ovClear := true }) := by
  show execCcSbuOvervoltageRecovery p s = _
  exact onCoreIf_updPd (g := fun g => { g with ovClear := true }) (by simp [pdWatched, inRun, hrun, ha]) (pdReturn_active hf)

/-- With its fault gone it is judged afresh. -/
theorem exec_ccSbuOvervoltageRecovery_clear (hf : faultActive s.core (pdFaultCode p 2) 0 = false) :
    ∃ x, exec (.ccSbuOvervoltageRecovery p) s = .next (s.withPort p x) ∧
      x.att = if (s.core.port p).damp = true then .damp else .unattached := by
  obtain ⟨x, hx, hatt, -⟩ := pdTerm_of_updPd s.core p fun g =>
    { g with ovClear := false, att := if g.damp then .damp else .unattached }
  refine ⟨x, ?_, hatt⟩
  show execCcSbuOvervoltageRecovery p s = _
  refine onCoreIf_updPd (g := fun _ => x) (by simp [pdWatched, inRun, hrun, ha]) (Eq.trans ?_ hx)
  rw [pdReturn_clear (c := updPd s.core p fun g => { g with ovClear := true }) (by rw [updPd_port_self]; exact ha)
    (by rw [updPd_port_self]) hf, updPd_updPd]

end

end Sys2Proof.Machine

open Sys2Proof Sys2Proof.Machine

/-- Settles O54: the answers to the discovery of the vendor mode, its entry and its exit, the moisture of a port, and each fault
of Table 14-5 with what it leaves of the port. -/
theorem modesMoistureAndPortFaults : Obligations.ModesMoistureAndPortFaults := by
  unfold Obligations.ModesMoistureAndPortFaults
  intro p s hrun
  refine ⟨fun hatt => ⟨exec_discoverIdentity_sink hrun hatt, exec_discoverSvids_sink hrun hatt, fun ho => ?_, fun v hv => ?_⟩,
    fun hatt ho hl => ?_, fun hatt => ⟨fun halt => ?_, exec_exitMode_nak hrun hatt⟩,
    fun hw hx five => ⟨exec_cableIdentityReply_idle hrun hw hx five, exec_cableDiscoveryTimeout_idle hrun hw hx⟩,
    fun kohm hm hi => ⟨fun hd hk => ?_, fun hd k hpin hwet h2 => ?_, fun hd h9 hk => ?_⟩, fun hd hc => ?_,
    fun hn => ⟨exec_vbusOvervoltage_faults hrun hn, exec_ccSbuOvervoltage_faults hrun hn, exec_vconnTrip_faults hrun hn,
      exec_bmcReadbackMismatch_faults hrun hn⟩,
    fun ha => ⟨exec_ccSbuOvervoltageRecovery_active hrun ha, fun hf => ?_⟩⟩
  · obtain ⟨t, hexec, henter⟩ := enters_enterMode hrun hatt ho
    exact ⟨exec_discoverModes_offered hrun hatt ho, t, hexec, henter⟩
  · exact ⟨exec_discoverModes_nak hrun hatt hv, exec_enterMode_nak hrun hatt hv⟩
  · exact ⟨_, exec_discoverModes_source hrun hatt ho hl, by rw [withPort_port], by rw [withPort_port], by rw [withPort_port],
      by rw [withPort_port]⟩
  · refine ⟨_, exec_exitMode_active hrun hatt halt, ?_, ?_, fun hroute => altExit_medium _ p ?_ hroute⟩
    · rw [altExit_port]
    · rw [altExit_port, pdSend_pdCount_port _ p (m := .ackExit) nofun nofun]
      rfl
    · rw [pdSend_pdCount_port _ p (m := .ackExit) nofun nofun, PdG.says, PdG.heard]
      exact halt
  · refine ⟨s.withPort p ((s.core.port p).measured (pdCfg s.core p).wet kohm), ?_, ?_, ?_, ?_, fun k => ?_⟩
    · rw [exec_moistureMeasurement hrun hm hi, moisten_dry hd hk, updPd_withPort]
      rfl
    all_goals rw [withPort_port]
    · exact hd
    · rfl
    · exact wetCounts_dry hk k k.isLt
  · refine ⟨_, (exec_moistureMeasurement hrun hm hi kohm).trans (by rw [moisten_wet hd hpin hwet h2]), ?_⟩
    obtain ⟨x, hx, hatt, hcc, hquiet⟩ := dampEntry_port (updPd s.core p fun x => { x with
      kohm := (s.core.port p).readings kohm, wet := (s.core.port p).wetCounts (pdCfg s.core p).wet kohm }) p
    rw [updPd_port_self] at hx hatt
    rw [hx]
    exact ⟨rfl, hatt, hquiet, hcc, rfl⟩
  · obtain ⟨x, hx, hdamp, hcor, hatt⟩ := moisten_dries hd h9 hk
    refine ⟨s.withPort p x, ?_, ?_⟩
    · rw [exec_moistureMeasurement hrun hm hi, hx, updPd_withPort]
    · rw [withPort_port]
      exact ⟨rfl, hdamp, hcor, hatt⟩
  · refine ⟨_, exec_corrosionTime hrun hd hc, ?_, ?_, recordCondition_fault _⟩
    all_goals rw [recordCondition_port, updPd_port_self]
    exact hd
  · obtain ⟨x, hexec, hatt⟩ := exec_ccSbuOvervoltageRecovery_clear hrun ha hf
    exact ⟨_, hexec, by rw [withPort_port], by rw [withPort_port]; exact hatt⟩
end

section
/-! PROOFS. Where Boot ends: Run entry and Safe Hold entry (chapter 04). -/

namespace Sys2Proof.Machine

/-! ### What the steps of Run entry leave -/

/-- What a start settles, and the steps of Run entry leave. -/
structure Started where
  st : Life
  tick : BitVec 64
  rstCause : BitVec 9
  mq : Option Maquette
  mqs : MqsG
  role : Role
  floor : Nat
  cel : CelG
  phase : ChgPhase

def Core.started (c : Core) : Started :=
  ⟨c.life.st, c.life.tick, c.life.rstCause, c.mq, c.mqs, c.twn.role, c.path.floorSet, c.cel, c.chg.phase⟩

theorem st_of_started {c : Core} {x : Started} (h : c.started = x) : c.life.st = x.st := congrArg Started.st h

theorem started_foldl {α : Type} {f : Core → α → Core} (h : ∀ c x, (f c x).started = c.started) (l : List α) :
    ∀ c : Core, (l.foldl f c).started = c.started := by
  induction l with
  | nil => exact fun c => rfl
  | cons a l ih => exact fun c => (ih (f c a)).trans (h c a)

section
variable (c : Core)

/-! #### Records and latches -/

@[simp] theorem queueFree_started (t : RecType) (i : RecInfo) : (queueFree c t i).started = c.started := by
  rw [queueFree_eq]
  rfl

@[simp] theorem recordCondition_started : (recordCondition c).started = c.started := queueFree_started c _ _

@[simp] theorem attend_started (bit : Nat) : (attend c bit).started = c.started := rfl

@[simp] theorem latchPut_started (code : BitVec 16) (inst : BitVec 8) (cls : FCls) (p : ProbeSt) :
    (latchPut c code inst cls p).started = c.started := by
  rw [latchPut_eq]
  rfl

@[simp] theorem latchRecord_started (code : BitVec 16) (inst : BitVec 8) : (latchRecord c code inst).started = c.started := by
  obtain ⟨o, n, q, h⟩ := latchRecord_eq c code inst
  rw [h]
  rfl

@[simp] theorem queueProbe_started (code : BitVec 16) (inst : BitVec 8) : (queueProbe c code inst).started = c.started := by
  rw [queueProbe_eq]
  rfl

@[simp] theorem updLatch_started (code : BitVec 16) (inst : BitVec 8) (f : Latch → Latch) :
    (updLatch c code inst f).started = c.started := rfl

@[simp] theorem addTransient_started (code : BitVec 16) (inst : BitVec 8) (sec : Nat) :
    (addTransient c code inst sec).1.started = c.started := rfl

@[simp] theorem bootLasting_started (code : BitVec 16) (inst : BitVec 8) : (bootLasting c code inst).started = c.started := by
  unfold bootLasting
  split <;> rfl

theorem latchAtRun_started (b : BootRead) (x : BitVec 16 × BitVec 8) : (latchAtRun b c x).started = c.started := by
  unfold latchAtRun
  dsimp only
  rw [latchRecord_started]
  split
  · simp [apply_ite Core.started, apply_ite Prod.fst]
  · split <;> simp

/-! #### The blocks that start with Run -/

@[simp] theorem pathGatesOff_started (k : Batfet) : (pathGatesOff c k).started = c.started := rfl

@[simp] theorem lswKiln_started : (lswKiln c).started = c.started :=
  started_foldl (fun c n => by split <;> rfl) _ c

@[simp] theorem batfetFull_started : (batfetFull c).started = c.started := by
  unfold batfetFull
  split <;> rfl

@[simp] theorem takeDirection_started : (takeDirection c).started = c.started := by
  unfold takeDirection
  split <;> rfl

@[simp] theorem prechargeBegin_started (sel : Nat → Bool) (full : Bool) : (prechargeBegin c sel full).started = c.started := rfl

theorem loopRestart_started : (loopRestart c).started = c.started := rfl

@[simp] theorem stageStart_started (full : Bool) : (stageStart c full).started = c.started := by
  have hrestart : (if full = true then loopRestart c else c).started = c.started := by
    split
    · exact loopRestart_started c
    · rfl
  unfold stageStart
  split
  · rfl
  · rw [takeDirection_started, prechargeBegin_started]
    exact hrestart

@[simp] theorem pdTerm_started (p : PdId) : (pdTerm c p).started = c.started := rfl

/-- Before the first conversion a charge cycle waits (R172). -/
theorem cycleStart_started (h : c.cel.cells = []) : (cycleStart c).started = c.started := by
  simp only [cycleStart, h, List.isEmpty_nil, Bool.true_or, if_true]
  split <;> rfl

theorem startBlocks_started (hcells : c.cel.cells = []) (hrole : c.twn.role = .lead) : (startBlocks c).started = c.started := by
  have htrip : (if c.thm.tripped = true then lswKiln (pathGatesOff c .off) else c).started = c.started := by
    split <;> simp
  have hports : (pdTerm (pdTerm (stageStart (batfetFull
      (if c.thm.tripped = true then lswKiln (pathGatesOff c .off) else c)) true) .a) .b).started = c.started := by
    simp only [pdTerm_started, stageStart_started, batfetFull_started, htrip]
  unfold startBlocks
  dsimp only
  generalize pdTerm (pdTerm (stageStart (batfetFull _) true) .a) .b = d at hports ⊢
  have hcel : d.cel = c.cel := congrArg Started.cel hports
  have hcycle : (cycleStart d).started = c.started := (cycleStart_started d (by rw [hcel, hcells])).trans hports
  have hlead : (cycleStart d).twn.role = .lead := (congrArg Started.role hcycle).trans hrole
  rw [if_neg (by simp [hlead])]
  exact hcycle

/-! #### The first mode decision -/

/-- Without a charge phase a decision leaves the charger's phase (R175). -/
theorem chargeDecision_started (h : c.chg.phase = .none) : (chargeDecision c).started = c.started := by
  unfold chargeDecision
  split
  · rfl
  · split
    · have hre : ∀ d : Core, d.chg.phase = .none → reevaluate d = d := fun d hd => if_pos hd
      dsimp only
      split
      · have hsame := hre { c with chg := { c.chg with wasRes := false, qTerm := 0, qRch := 0 } } h
        rw [hsame]
        rfl
      · rfl
    · rfl
  · rfl

theorem decideMode_leaves (l : LifeG) (m : Mode) : (decideMode l m).st = l.st ∧ (decideMode l m).tick = l.tick ∧
    (decideMode l m).rstCause = l.rstCause := by
  unfold decideMode
  dsimp only
  repeat' split
  all_goals exact ⟨rfl, rfl, rfl⟩

/-- The core once a decision has named its mode (R22). -/
def modeNamed (i : Int) : Core :=
  { c with life := decideMode c.life (candidate c i), meas := { c.meas with ispDec := i } }

theorem modeStep_eq (i : Int) : modeStep c i = chargeDecision
    (if (modeNamed c i).life.mode != c.life.mode then queueEvent (modeNamed c i) .mode else modeNamed c i) := rfl

theorem modeNamed_started (i : Int) : (modeNamed c i).started = c.started := by
  obtain ⟨hst, htick, hcause⟩ := decideMode_leaves c.life (candidate c i)
  simp [modeNamed, Core.started, hst, htick, hcause]

theorem modeStep_started (i : Int) (h : c.chg.phase = .none) : (modeStep c i).started = c.started := by
  have hevent : (if (modeNamed c i).life.mode != c.life.mode then queueEvent (modeNamed c i) .mode else modeNamed c i).started =
      c.started := by
    split
    · exact (queueFree_started _ _ _).trans (modeNamed_started c i)
    · exact modeNamed_started c i
  rw [modeStep_eq, chargeDecision_started _ ((congrArg Started.phase hevent).trans h)]
  exact hevent

@[simp] theorem watchdogAtRun_started : (watchdogAtRun c).started = c.started := by
  unfold watchdogAtRun
  dsimp only
  split
  · rfl
  · split <;> rfl

@[simp] theorem burnsAtRun_started : (burnsAtRun c).started = c.started := rfl

@[simp] theorem recordsAtRun_started : (recordsAtRun c).started = c.started := by
  unfold recordsAtRun
  dsimp only
  split <;> split <;> simp

@[simp] theorem formMerged_started : (formMerged c).started = c.started := by
  unfold formMerged
  split <;> rfl

@[simp] theorem settle_started : (settle c).started = c.started := by
  have hselect : (selectAccount c).started = c.started := by
    unfold selectAccount
    split <;> rfl
  unfold settle
  dsimp only
  split <;> exact hselect

end

/-! ### Run entry (R86, R103) -/

/-- What the configuration settles: Run at tick 0 with the image and the copies' results, and a lone Lead (R103, R449). -/
theorem configure_started (c : Core) (b : BootRead) (m : Maquette) (fromB : Bool) (ra rb : Nat) (hpres : c.pins.twPres = false) :
    (configure c b m fromB ra rb).started =
      { st := .run, tick := 0, rstCause := c.life.rstCause, mq := some m
        mqs := { resA := ra, resB := rb, fromB := fromB, jedec := b.jedec, digest := imageDigest (copyBytes c fromB) }
        role := .lead, floor := m.path.floor, cel := c.cel, phase := c.chg.phase } := by
  show (formMerged _).started = _
  rw [formMerged_started]
  simp only [Core.started, entryRole, hpres, Bool.not_false, Bool.or_true, if_true]

/-- Each step of Run entry leaves what the configuration settles, where a lone Lead starts before the first conversion. -/
theorem runEntry_started (c : Core) (b : BootRead) (m : Maquette) (fromB : Bool) (ra rb : Nat) (hkey : b.keyTestOk = true)
    {x : Started} (hx : (configure c b m fromB ra rb).started = x) (hrole : x.role = .lead) (hcells : x.cel.cells = [])
    (hphase : x.phase = .none) : (runEntry c b m fromB ra rb).started = x := by
  rw [runEntry_eq]
  refine inState_induct (P := fun d => d.started = x) .run _ (fun f hf d hd => ?_) hx
  simp only [entrySteps, settledSteps, List.cons_append, List.nil_append, List.mem_cons, List.not_mem_nil, or_false] at hf
  subst hd
  rcases hf with rfl | rfl | rfl | rfl | rfl | rfl | rfl | rfl
  · exact started_foldl (fun e y => latchAtRun_started e b y) _ d
  · exact congrArg Core.started (if_pos hkey)
  · exact startBlocks_started d hcells hrole
  · exact modeStep_started d b.iPack hphase
  · exact watchdogAtRun_started d
  · exact burnsAtRun_started d
  · exact recordsAtRun_started d
  · dsimp only
    split
    · exact attend_started d 0
    · rfl

/-! ### Safe Hold entry (R86, R124, Table 04-4) -/

section
variable (c : Core) (b : BootRead) (ra rb : Nat)

/-- The fixed settings of Safe Hold (Table 04-4). -/
def safeHoldFixed : Core :=
  { c with
    otp := otpRead c b
    mqs := { resA := ra, resB := rb, bothFail := true, jedec := b.jedec }
    life := { c.life with
      st := .safeHold, us := BitVec.ofNat 32 b.us, pwmLock := true, sysLock := true, imgNo := 0 }
    path := { c.path with batfet := .full, floorSet := 36000 }
    gdr := { c.gdr with dtIn := 512, dtOut := 512 }
    meas := { c.meas with vsys := b.vsys }
    ord := { c.ord with attnNew := 0 } }

/-- The SHED lines under R59, and the gates under a trip. -/
def safeHoldLines : Core :=
  let c := if c.pins.twPres then c
    else { c with plb := { c.plb with p := vmap (fun _ g => { g with bySafe := true, shed := true }) c.plb.p } }
  if c.pins.twTrip || c.thm.tripped then pathGatesOff c .off else c

/-- The watchdog with t_WDS (R124). -/
def WdgG.safeHold (w : WdgG) : WdgG :=
  { w with run := true, bootTmo := false, tWds := true, period := 100, num := 0, missing := 0x3F }

/-- t_WDS under WDT_HW (R124). -/
def safeHoldWatchdog : Core := if c.otp.wdtHw then { c with wdg := c.wdg.safeHold } else c

theorem safeHoldEntry_eq : safeHoldEntry c b ra rb = safeHoldWatchdog (safeHoldLines (safeHoldFixed c b ra rb)) := rfl

theorem safeHoldLines_leaves : (safeHoldLines c).started = c.started ∧ (safeHoldLines c).otp = c.otp ∧
    (safeHoldLines c).wdg = c.wdg := by
  unfold safeHoldLines
  dsimp only
  repeat' split
  all_goals exact ⟨rfl, rfl, rfl⟩

theorem safeHoldWatchdog_leaves : (safeHoldWatchdog c).started = c.started ∧ (safeHoldWatchdog c).plb = c.plb := by
  unfold safeHoldWatchdog
  split <;> exact ⟨rfl, rfl⟩

theorem safeHoldEntry_started : (safeHoldEntry c b ra rb).started =
    { st := .safeHold, tick := c.life.tick, rstCause := c.life.rstCause, mq := c.mq
      mqs := { resA := ra, resB := rb, bothFail := true, jedec := b.jedec }
      role := c.twn.role, floor := 36000, cel := c.cel, phase := c.chg.phase } := by
  rw [safeHoldEntry_eq, (safeHoldWatchdog_leaves _).1, (safeHoldLines_leaves _).1]
  rfl

theorem safeHoldEntry_wdg : (safeHoldEntry c b ra rb).wdg = if c.otp.wdtHw then c.wdg.safeHold else c.wdg := by
  obtain ⟨-, hotp, hwdg⟩ := safeHoldLines_leaves (safeHoldFixed c b ra rb)
  rw [safeHoldEntry_eq, safeHoldWatchdog, hotp, hwdg, apply_ite Core.wdg, hwdg]
  rfl

/-- Without the twin's presence every SHED line is asserted (R59). -/
theorem safeHoldEntry_sheds (hpres : c.pins.twPres = false) :
    ∀ g ∈ (safeHoldEntry c b ra rb).plb.p.toList, g.shed = true ∧ g.bySafe = true := by
  have hfixed : ¬ (safeHoldFixed c b ra rb).pins.twPres = true := by simp [safeHoldFixed, hpres]
  have hplb : (safeHoldEntry c b ra rb).plb.p = vmap (fun _ g => { g with bySafe := true, shed := true }) c.plb.p := by
    rw [safeHoldEntry_eq, (safeHoldWatchdog_leaves _).2, safeHoldLines, if_neg hfixed]
    dsimp only
    split <;> rfl
  intro g hg
  rw [hplb] at hg
  obtain ⟨i, hi, rfl⟩ := List.mem_iff_getElem.1 hg
  have h4 : i < 4 := by simpa using hi
  simp

end

/-- The pins of an image in Safe Hold (Table 02-5). -/
theorem settle_pins_safeHold {c : Core} (h : c.life.st = .safeHold) :
    (settle c).pins.attn = true ∧ (settle c).pins.faultN = true := by
  have hst : (settle c).life.st = .safeHold := (st_of_started (settle_started c)).trans h
  have hattn : (settle c).pins.attn = attnPin (settle c) := rfl
  have hfault : (settle c).pins.faultN = faultPin (settle c) := rfl
  rw [hattn, hfault, attnPin, faultPin, hst]
  exact ⟨rfl, rfl⟩

/-! ### The two commands -/

section
variable {b : BootRead} {s : State} (hboot : s.core.life.st = .boot)
include hboot

/-- Run entry in Boot with a copy that passes, where no step of it takes a reset. -/
theorem exec_runEntry_boots {ra rb : Nat} {m : Maquette} {fromB : Bool} (hsel : bootSelect s.core b = (ra, rb, some (m, fromB)))
    (hhold : s.core.life.tmodeHold = false) {x : Started} (hx : (runEntry s.core b m fromB ra rb).started = x)
    (hrun : x.st = .run) : ∃ t, exec (.runEntry b) s = .next t ∧ t.core.started = x ∧ t.pending = s.pending := by
  have hst : (runEntry s.core b m fromB ra rb).life.st = .run := (st_of_started hx).trans hrun
  have hexec : exec (.runEntry b) s = .next (publish { s with core := runEntry s.core b m fromB ra rb }) := by
    show execRunEntry b s = _
    simp only [execRunEntry, hboot, hhold, hsel]
    rw [afterReset_of_ne (by rw [hst]; decide)]
    rfl
  generalize runEntry s.core b m fromB ra rb = d at hx hexec
  exact ⟨_, hexec, (settle_started d).trans hx, rfl⟩

theorem exec_safeHoldEntry_holds {ra rb : Nat} (hsel : bootSelect s.core b = (ra, rb, none))
    (hhold : s.core.life.tmodeHold = false) :
    ∃ t, exec (.safeHoldEntry b) s = .next t ∧ t.core = settle (safeHoldEntry s.core b ra rb) ∧ t.pending = s.pending := by
  have hexec : exec (.safeHoldEntry b) s = .next (publish { s with core := safeHoldEntry s.core b ra rb }) := by
    show execSafeHoldEntry b s = _
    simp only [execSafeHoldEntry, hboot, hhold, hsel]
    rfl
  generalize safeHoldEntry s.core b ra rb = d at hexec
  exact ⟨_, hexec, rfl, rfl⟩

end

/-- Held by TMODE, Boot ends in neither (R62). -/
theorem exec_bootEnd_held {b : BootRead} {s : State} (hhold : s.core.life.tmodeHold = true) :
    exec (.runEntry b) s = .next s ∧ exec (.safeHoldEntry b) s = .next s := by
  constructor
  · show execRunEntry b s = _
    simp [execRunEntry, hhold]
  · show execSafeHoldEntry b s = _
    simp [execSafeHoldEntry, hhold]

end Sys2Proof.Machine

open Sys2Proof Sys2Proof.Machine

/-- Settles O12: the steps of Run entry leave what the configuration settles (`Core.started`), and Safe Hold's entry settles its
own. -/
theorem bootEndsInRunOrSafeHold : Obligations.BootEndsInRunOrSafeHold := by
  unfold Obligations.BootEndsInRunOrSafeHold
  intro b s hboot
  refine ⟨fun ra rb m fromB hsel hhold hkey hpres hcel hchg => ?_, fun ra rb hsel hhold => ?_, exec_bootEnd_held⟩
  · have hstart := runEntry_started s.core b m fromB ra rb hkey (configure_started s.core b m fromB ra rb hpres) rfl
      (by simp only [hcel]) (by simp only [hchg])
    obtain ⟨t, hexec, ht, hpend⟩ := exec_runEntry_boots hboot hsel hhold hstart rfl
    have hmqs := congrArg Started.mqs ht
    exact ⟨t, hexec, congrArg Started.st ht, congrArg Started.mq ht, congrArg Started.tick ht, congrArg MqsG.resA hmqs,
      congrArg MqsG.resB hmqs, congrArg MqsG.fromB hmqs, congrArg MqsG.bothFail hmqs, congrArg Started.role ht,
      congrArg Started.floor ht, congrArg Started.rstCause ht, hpend⟩
  · have hstart := safeHoldEntry_started s.core b ra rb
    obtain ⟨t, hexec, hcore, hpend⟩ := exec_safeHoldEntry_holds hboot hsel hhold
    have ht : t.core.started = _ := hcore ▸ (settle_started _).trans hstart
    have hmqs := congrArg Started.mqs ht
    have hwdg : t.core.wdg = _ := hcore ▸ (settle_wdg _).trans (safeHoldEntry_wdg s.core b ra rb)
    have hplb : t.core.plb = _ := hcore ▸ (settle_leaves _).1
    obtain ⟨hattn, hfault⟩ := settle_pins_safeHold (st_of_started hstart)
    rw [← hcore] at hattn hfault
    refine ⟨t, hexec, congrArg Started.st ht, congrArg Started.mq ht, congrArg MqsG.resA hmqs, congrArg MqsG.resB hmqs,
      congrArg MqsG.bothFail hmqs, congrArg Started.floor ht, hattn, hfault, ?_, fun hw => ?_, fun hpres => ?_, hpend⟩
    · rw [hwdg]
      by_cases hw : s.core.otp.wdtHw = true <;> simp [hw, WdgG.safeHold]
    · rw [hwdg, if_pos hw]
      exact ⟨rfl, rfl, rfl⟩
    · rw [hplb]
      exact safeHoldEntry_sheds s.core b ra rb hpres
end


section
/-! PROOFS. What the functions of CORE leave of the cells of the NVM (R67): nearly all leave every one, block by block in the
order of the model.  Lemmas that hold by definition are proved by `(rfl)`, so that simp also rewrites with them in the
hypothesis of a lemma about a fault. -/

namespace Sys2Proof.Machine

/-- The bytes that the NVM lists. -/
def Core.cells (c : Core) : List Host.Cell := c.nvm.cells

@[simp ↓] theorem cells_mk (life : LifeG) (pins otp nvm mq mqs path chg cel ldg gdr loop thm lsw pd plb vlt twn wdg flt own ord
    meas outs free) : Core.cells ⟨life, pins, otp, nvm, mq, mqs, path, chg, cel, ldg, gdr, loop, thm, lsw, pd, plb, vlt, twn,
      wdg, flt, own, ord, meas, outs, free⟩ = nvm.cells := (rfl)

@[simp] theorem nvm_cells_eq (c : Core) : c.nvm.cells = c.cells := (rfl)

@[simp ↓] theorem cells_ite (p : Prop) [Decidable p] (c d : Core) :
    (if p then c else d).cells = if p then c.cells else d.cells := apply_ite _ _ _ _

theorem cells_foldl {α : Type} {f : Core → α → Core} (h : ∀ c x, (f c x).cells = c.cells) (l : List α) (c : Core) :
    (l.foldl f c).cells = c.cells := by
  induction l generalizing c with
  | nil => rfl
  | cons x l ih => exact (ih _).trans (h c x)

/-! ### Reactions -/

@[simp] theorem updPd_cells (c : Core) (p : PdId) (f : PdG → PdG) : (updPd c p f).cells = c.cells := by simp [updPd]
@[simp] theorem updPlb_cells (c : Core) (p : Nat) (f : PlbPort → PlbPort) : (updPlb c p f).cells = c.cells := by simp [updPlb]
@[simp] theorem updAcct_cells (c : Core) (a : Nat) (f : AcctRec → AcctRec) :
    (updAcct c a f).cells = c.cells := by simp [updAcct]
@[simp] theorem book_cells (c : Core) (a : Nat) (k : Column) (f : ColRec → ColRec) : (book c a k f).cells = c.cells := (rfl)

@[simp] theorem bookAll_cells (c : Core) (as : List Nat) (k : Column) (f : ColRec → ColRec) :
    (bookAll c as k f).cells = c.cells :=
  cells_foldl (fun c a => book_cells c a k f) as c

@[simp] theorem queueRec_cells (c : Core) (r : QRec) : (queueRec c r).cells = c.cells := by simp [queueRec]
@[simp] theorem queueFree_cells (c : Core) (t : RecType) (info : RecInfo) :
    (queueFree c t info).cells = c.cells := by simp [queueFree]
@[simp] theorem queueValues_cells (c : Core) (k : Checkpoint) (periodic nextEpoch : Bool) :
    (queueValues c k periodic nextEpoch).cells = c.cells := by simp [queueValues]
@[simp] theorem queueCheckpoint_cells (c : Core) (periodic nextEpoch : Bool) :
    (queueCheckpoint c periodic nextEpoch).cells = c.cells := by simp [queueCheckpoint]
@[simp] theorem queueLastClose_cells (c : Core) : (queueLastClose c).cells = c.cells := by simp [queueLastClose]
@[simp] theorem queuePatina_cells (c : Core) : (queuePatina c).cells = c.cells := by simp [queuePatina]
@[simp] theorem chiselAll_cells (c : Core) (cause ph : Nat) : (chiselAll c cause ph).cells = c.cells := (rfl)
@[simp] theorem chiselPhase_cells (c : Core) (n cause : Nat) : (chiselPhase c n cause).cells = c.cells := (rfl)
@[simp] theorem noteChisel_cells (before : GdrG) (c : Core) (code : BitVec 16) :
    (noteChisel before c code).cells = c.cells := by simp [noteChisel]
@[simp] theorem endTransientA_cells (c : Core) : (endTransientA c).cells = c.cells := (rfl)
@[simp] theorem clearLoops_cells (c : Core) : (clearLoops c).cells = c.cells := (rfl)
@[simp] theorem loopRestart_cells (c : Core) : (loopRestart c).cells = c.cells := (rfl)
@[simp] theorem takeDirection_cells (c : Core) : (takeDirection c).cells = c.cells := by simp [takeDirection]
@[simp] theorem prechargeBegin_cells (c : Core) (sel : Nat → Bool) (full : Bool) :
    (prechargeBegin c sel full).cells = c.cells := (rfl)
@[simp] theorem stageStart_cells (c : Core) (full : Bool) : (stageStart c full).cells = c.cells := by simp [stageStart]

@[simp] theorem stagePark_cells (c : Core) : (stagePark c).cells = c.cells := by
  unfold stagePark
  repeat' split
  all_goals simp

@[simp] theorem calibrateNext_cells (c : Core) : (calibrateNext c).cells = c.cells := by
  unfold calibrateNext
  repeat' split
  all_goals simp

@[simp] theorem stageUnpark_cells (c : Core) : (stageUnpark c).cells = c.cells := by
  unfold stageUnpark
  repeat' split
  all_goals simp

@[simp] theorem setPair_cells (c : Core) (i : Inp) (b : Bool) : (setPair c i b).cells = c.cells := (rfl)
@[simp] theorem pairOff_cells (c : Core) (i : Inp) : (pairOff c i).cells = c.cells := by simp [pairOff]
@[simp] theorem allPairsOff_cells (c : Core) : (allPairsOff c).cells = c.cells := (rfl)
@[simp] theorem batfetFull_cells (c : Core) : (batfetFull c).cells = c.cells := by simp [batfetFull]
@[simp] theorem pdSend_cells (c : Core) (p : PdId) (m : PdMsg) : (pdSend c p m).cells = c.cells := (rfl)
@[simp] theorem dropMedium_cells (c : Core) : (dropMedium c).cells = c.cells := by simp [dropMedium]
@[simp] theorem altExit_cells (c : Core) (p : PdId) : (altExit c p).cells = c.cells := by simp [altExit]
@[simp] theorem dropAsk_cells (c : Core) (p : PdId) : (dropAsk c p).cells = c.cells := (rfl)
@[simp] theorem pdExportEnd_cells (c : Core) (p : PdId) : (pdExportEnd c p).cells = c.cells := by simp [pdExportEnd]

@[simp] theorem exportEnd_cells (c : Core) (hr : Bool) : (exportEnd c hr).cells = c.cells := by
  unfold exportEnd
  repeat' split
  all_goals simp

@[simp] theorem setBurst_cells (c : Core) (a : Nat) (b : Option Burst) : (setBurst c a b).cells = c.cells := (rfl)
@[simp] theorem endBursts_cells (c : Core) (sel : Nat → Bool) : (endBursts c sel).cells = c.cells := (rfl)
@[simp] theorem shedBursts_cells (c : Core) : (shedBursts c).cells = c.cells := (rfl)
@[simp] theorem resetCause_cells (c : Core) (kind : ResetKind) (bit : Nat) (code : BitVec 16) :
    (resetCause c kind bit code).cells = c.cells := by simp [resetCause]
@[simp] theorem updLatch_cells (c : Core) (code : BitVec 16) (inst : BitVec 8) (f : Latch → Latch) :
    (updLatch c code inst f).cells = c.cells := (rfl)
@[simp] theorem clearActive_cells (c : Core) (code : BitVec 16) (inst : BitVec 8) :
    (clearActive c code inst).cells = c.cells := (rfl)

@[simp] theorem latchPut_cells (c : Core) (code : BitVec 16) (inst : BitVec 8) (cls : FCls) (p : ProbeSt) :
    (latchPut c code inst cls p).cells = c.cells := by
  unfold latchPut
  repeat' split
  all_goals simp

@[simp] theorem latchRecord_cells (c : Core) (code : BitVec 16) (inst : BitVec 8) :
    (latchRecord c code inst).cells = c.cells := by simp [latchRecord]
@[simp] theorem queueProbe_cells (c : Core) (code : BitVec 16) (inst : BitVec 8) :
    (queueProbe c code inst).cells = c.cells := by simp [queueProbe]
@[simp] theorem raisedC_cells (c : Core) (code : BitVec 16) (row cls : FCls) :
    (raisedC c code row cls).cells = c.cells := by simp [raisedC]
@[simp] theorem noteInst_cells (before c : Core) (inst : BitVec 8) :
    (noteInst before c inst).cells = c.cells := by simp [noteInst]
@[simp] theorem exportFault_cells (c : Core) (code : BitVec 16) : (exportFault c code).cells = c.cells := by simp [exportFault]
@[simp] theorem recordCondition_cells (c : Core) : (recordCondition c).cells = c.cells := by simp [recordCondition]
@[simp] theorem attend_cells (c : Core) (bit : Nat) : (attend c bit).cells = c.cells := (rfl)

/-! ### Flags -/

@[simp] theorem freeLatches_cells (c : Core) : (freeLatches c).cells = c.cells := (rfl)

@[simp] theorem selectAccount_cells (c : Core) : (selectAccount c).cells = c.cells := by
  unfold selectAccount
  split <;> simp

@[simp] theorem settle_cells (c : Core) : (settle c).cells = c.cells := by simp [settle]
@[simp] theorem publish_cells (s : State) : (publish s).core.cells = s.core.cells := by simp [publish]
@[simp] theorem portNote_cells (s : State) (bit : Nat) : (portNote s bit).core.cells = s.core.cells := (rfl)
@[simp] theorem wakeBegin_cells (c : Core) (wd : Bool) : (wakeBegin c wd).cells = c.cells := by simp [wakeBegin]

@[simp] theorem refusePort_cells (s : State) : (refusePort s).core.cells = s.core.cells := by
  unfold refusePort
  split <;> simp

/-! ### Limits -/

@[simp] theorem twSend_cells (c : Core) (type : Nat) (data : List Int) :
    (twSend c type data).cells = c.cells := by simp [twSend]

/-! ### Loop -/

@[simp] theorem updDesc_cells (c : Core) (d : Nat) (f : DescG → DescG) : (updDesc c d f).cells = c.cells := (rfl)
@[simp] theorem phaseSetpoints_cells (c : Core) : (phaseSetpoints c).cells = c.cells := (rfl)
@[simp] theorem refreshSetpoints_cells (c : Core) : (refreshSetpoints c).cells = c.cells := (rfl)
@[simp] theorem outerSelect_cells (c : Core) : (outerSelect c).cells = c.cells := (rfl)
@[simp] theorem patternLogic_cells (c : Core) (n : Nat) (m : Int) : (patternLogic c n m).cells = c.cells := (rfl)
@[simp] theorem runEnded_cells (c : Core) (d : Nat) : (runEnded c d).cells = c.cells := by simp [runEnded]
@[simp] theorem loopOut_cells (c : Core) (r : LoopRun) (v : Word) : (loopOut c r v).cells = c.cells := by simp [loopOut]
@[simp] theorem backstopEnter_cells (c : Core) (n : Nat) : (backstopEnter c n).cells = c.cells := by simp [backstopEnter]
@[simp] theorem addCycles_cells (c : Core) (cyc : Nat) : (addCycles c cyc).cells = c.cells := (rfl)

/-! ### Stage -/

@[simp] theorem phasePeriod_cells (c : Core) (n : Nat) : (phasePeriod c n).cells = c.cells := (rfl)
@[simp] theorem bufferSwap_cells (c : Core) (first : Bool) : (bufferSwap c first).cells = c.cells := (rfl)
@[simp] theorem backstopRun_cells (c : Core) (n : Nat) : (backstopRun c n).cells = c.cells := (rfl)

@[simp] theorem latchCurrent_cells (c : Core) (n : Nat) (first : Bool) (smp : LoopSample) :
    (latchCurrent c n first smp).cells = c.cells := by
  unfold latchCurrent
  split <;> simp

@[simp] theorem chiselStep2_cells (c : Core) (n : Nat) : (chiselStep2 c n).cells = c.cells := by simp [chiselStep2]
@[simp] theorem chiselDone_cells (c : Core) (n : Nat) : (chiselDone c n).cells = c.cells := by simp [chiselDone]

/-! ### Ledger -/

@[simp] theorem sampleRun_cells (smp : Sample) (c : Core) : (sampleRun smp c).cells = c.cells := (rfl)

@[simp] theorem bookInjected_cells (c : Core) : (bookInjected c).cells = c.cells := by
  unfold bookInjected
  split <;> simp

@[simp] theorem bookDerived_cells (c : Core) (v0 : Nat) : (bookDerived c v0).cells = c.cells := by
  unfold bookDerived
  split <;> simp

@[simp] theorem modeBook_cells (c : Core) : (modeBook c).cells = c.cells := (rfl)
@[simp] theorem closeMarks_cells (c : Core) : (closeMarks c).cells = c.cells := (rfl)
@[simp] theorem socUpdate_cells (c : Core) : (socUpdate c).cells = c.cells := (rfl)
@[simp] theorem setRef_cells (c : Core) (q : Int) (coarse : Bool) : (setRef c q coarse).cells = c.cells := (rfl)
@[simp] theorem ocvStep_cells (c : Core) : (ocvStep c).cells = c.cells := by simp [ocvStep]
@[simp] theorem addBase_cells (c : Core) (k : Checkpoint) : (addBase c k).cells = c.cells := (rfl)
@[simp] theorem zeroAccumulators_cells (c : Core) : (zeroAccumulators c).cells = c.cells := (rfl)

@[simp] theorem restoreBase_cells (c : Core) : (restoreBase c).cells = c.cells := by
  unfold restoreBase
  dsimp only
  repeat' split
  all_goals simp

@[simp] theorem entryRecords_cells (c : Core) : (entryRecords c).cells = c.cells := by
  unfold entryRecords
  split <;> simp

@[simp] theorem closeDormant_cells (c : Core) : (closeDormant c).cells = c.cells := (rfl)
@[simp] theorem dormantRecord_cells (c : Core) : (dormantRecord c).cells = c.cells := by simp [dormantRecord]
@[simp] theorem noteClose_cells (c : Core) : (noteClose c).cells = c.cells := (rfl)
@[simp] theorem closingClose_cells (c : Core) : (closingClose c).cells = c.cells := by simp [closingClose]
@[simp] theorem openingClose_cells (c : Core) : (openingClose c).cells = c.cells := by simp [openingClose]

@[simp] theorem handoverClose_cells (c : Core) : (handoverClose c).cells = c.cells := by
  unfold handoverClose
  split <;> simp

@[simp] theorem closeFrames_cells (c : Core) (net : List Int) : (closeFrames c net).cells = c.cells := by simp [closeFrames]
@[simp] theorem cycleBegin_cells (c : Core) : (cycleBegin c).cells = c.cells := (rfl)
@[simp] theorem closeSoc_cells (c : Core) (entry : Bool) : (closeSoc c entry).cells = c.cells := by simp [closeSoc]
@[simp] theorem closeRecords_cells (c : Core) (entry dormant : Bool) :
    (closeRecords c entry dormant).cells = c.cells := by simp [closeRecords]
@[simp] theorem isolateChannel_cells (c : Core) (k : Nat) : (isolateChannel c k).cells = c.cells := (rfl)

/-! ### Cells -/

@[simp] theorem publishCells_cells (c : Core) : (publishCells c).cells = c.cells := (rfl)

@[simp] theorem chooseDiag_cells (c : Core) (owed : Bool) : (chooseDiag c owed).cells = c.cells := by
  unfold chooseDiag
  dsimp only
  repeat' split
  all_goals simp

@[simp] theorem balanceStep_cells (c : Core) : (balanceStep c).cells = c.cells := (rfl)
@[simp] theorem limitCorrection_cells (c : Core) : (limitCorrection c).cells = c.cells := by simp [limitCorrection]
@[simp] theorem stackCheck_cells (c : Core) (cells : List Nat) (stack : Nat) :
    (stackCheck c cells stack).cells = c.cells := by simp [stackCheck]
@[simp] theorem ocvStart_cells (c : Core) : (ocvStart c).cells = c.cells := by simp [ocvStart]
@[simp] theorem classified_cells (c : Core) : (classified c).cells = c.cells := (rfl)
@[simp] theorem twinCells_cells (c : Core) (other : List Nat) : (twinCells c other).cells = c.cells := by simp [twinCells]

/-! ### Charger -/

@[simp] theorem enterPhase_cells (c : Core) (p : ChgPhase) : (enterPhase c p).cells = c.cells := (rfl)
@[simp] theorem timerFaultEnds_cells (c : Core) : (timerFaultEnds c).cells = c.cells := by simp [timerFaultEnds]
@[simp] theorem countStep_cells (c : Core) (iPackAvg : Int) : (countStep c iPackAvg).cells = c.cells := by simp [countStep]

@[simp] theorem timerStep_cells (c : Core) : (timerStep c).cells = c.cells := by
  unfold timerStep
  repeat' split
  all_goals simp

@[simp] theorem heaterStep_cells (c : Core) : (heaterStep c).cells = c.cells := by simp [heaterStep]
@[simp] theorem askStep_cells (c : Core) (iPackAvg : Int) : (askStep c iPackAvg).cells = c.cells := (rfl)
@[simp] theorem restStep_cells (c : Core) : (restStep c).cells = c.cells := (rfl)
@[simp] theorem chargeTargets_cells (c : Core) : (chargeTargets c).cells = c.cells := by simp [chargeTargets]

/-! ### Path -/

@[simp] theorem incomingOn_cells (c : Core) (x : Xfer) : (incomingOn c x).cells = c.cells := by simp [incomingOn]
@[simp] theorem beginTurnOn_cells (c : Core) (i : Inp) : (beginTurnOn c i).cells = c.cells := by simp [beginTurnOn]
@[simp] theorem beginTransfer_cells (c : Core) (out inc : Inp) (loss : Bool) :
    (beginTransfer c out inc loss).cells = c.cells := by simp [beginTransfer]
@[simp] theorem noInput_cells (c : Core) (i : Inp) : (noInput c i).cells = c.cells := by simp [noInput]

@[simp] theorem selectInput_cells (c : Core) : (selectInput c).cells = c.cells := by
  unfold selectInput
  repeat' split
  all_goals simp

@[simp] theorem setDirection_cells (c : Core) (rev : Bool) : (setDirection c rev).cells = c.cells := by simp [setDirection]

@[simp] theorem exportReverse_cells (c : Core) : (exportReverse c).cells = c.cells := by
  unfold exportReverse
  split <;> simp

@[simp] theorem exportBegin_cells (c : Core) (e : Export) : (exportBegin c e).cells = c.cells := by
  unfold exportBegin
  repeat' split
  all_goals simp

@[simp] theorem exportWaiting_cells (c : Core) : (exportWaiting c).cells = c.cells := by
  unfold exportWaiting
  split <;> simp

@[simp] theorem inputLost_cells (c : Core) (i : Inp) : (inputLost c i).cells = c.cells := by
  unfold inputLost
  dsimp only
  repeat' split
  all_goals simp

@[simp] theorem safeHoldStart_cells (c : Core) : (safeHoldStart c).cells = c.cells := by simp [safeHoldStart]
@[simp] theorem safeHoldMain_cells (c : Core) : (safeHoldMain c).cells = c.cells := (rfl)
@[simp] theorem safeHoldResume_cells (c : Core) : (safeHoldResume c).cells = c.cells := by simp [safeHoldResume]
@[simp] theorem pairFault_cells (c : Core) (i : Inp) : (pairFault c i).cells = c.cells := (rfl)
@[simp] theorem pathGatesOff_cells (c : Core) (batfet : Batfet) : (pathGatesOff c batfet).cells = c.cells := (rfl)
@[simp] theorem floorStep_cells (c : Core) : (floorStep c).cells = c.cells := (rfl)

@[simp] theorem limitStep_cells (c : Core) : (limitStep c).cells = c.cells := by
  unfold limitStep
  repeat' split
  all_goals simp

@[simp] theorem floorSuspStep_cells (c : Core) : (floorSuspStep c).cells = c.cells := (rfl)

/-! ### LoadSwitch -/

@[simp] theorem updLsw_cells (c : Core) (n : Nat) (f : LswCh → LswCh) : (updLsw c n f).cells = c.cells := (rfl)
@[simp] theorem lswOff_cells (c : Core) (n : Nat) : (lswOff c n).cells = c.cells := (rfl)

@[simp] theorem lswAllOff_cells (c : Core) : (lswAllOff c).cells = c.cells := cells_foldl (f := lswOff) (fun _ _ => rfl) _ c

@[simp] theorem lswStep_cells (c : Core) : (lswStep c).cells = c.cells := by simp [lswStep, cells_foldl]

@[simp] theorem lswKiln_cells (c : Core) : (lswKiln c).cells = c.cells := cells_foldl (fun _ _ => by simp) _ c

@[simp] theorem lswRelease_cells (c : Core) : (lswRelease c).cells = c.cells := (rfl)
@[simp] theorem lswRetry_cells (c : Core) (n : Nat) : (lswRetry c n).cells = c.cells := (rfl)
@[simp] theorem lswFlagStep_cells (c : Core) : (lswFlagStep c).cells = c.cells := (rfl)

/-! ### Tokens -/

@[simp] theorem updPartner_cells (c : Core) (p addr : Nat) (f : Partner → Partner) :
    (updPartner c p addr f).cells = c.cells := (rfl)
@[simp] theorem queueMsg_cells (c : Core) (p : Nat) (m : PlbMsg) : (queueMsg c p m).cells = c.cells := (rfl)
@[simp] theorem sendDefer_cells (c : Core) (a : Nat) (seq : Byte) (reason : Nat) :
    (sendDefer c a seq reason).cells = c.cells := (rfl)
@[simp] theorem sendDenied_cells (c : Core) (a : Nat) (seq : Byte) (eMax : Nat) :
    (sendDenied c a seq eMax).cells = c.cells := (rfl)
@[simp] theorem sendThrottle_cells (c : Core) (a level : Nat) : (sendThrottle c a level).cells = c.cells := (rfl)
@[simp] theorem sendShedFrame_cells (c : Core) (p cause : Nat) : (sendShedFrame c p cause).cells = c.cells := (rfl)
@[simp] theorem withdrawGrant_cells (c : Core) (a : Nat) (k : Column) :
    (withdrawGrant c a k).cells = c.cells := by simp [withdrawGrant]
@[simp] theorem grantLevel_cells (c : Core) (a : Nat) (k : Column) (target : Nat) (seq : Byte) :
    (grantLevel c a k target seq).cells = c.cells := by simp [grantLevel]

@[simp] theorem exportStop_cells (c : Core) (a : Nat) (hr : Bool) : (exportStop c a hr).cells = c.cells := by
  unfold exportStop
  repeat' split
  all_goals simp

@[simp] theorem recallTo_cells (c : Core) (a : Nat) (k : Column) (target : Nat) : (recallTo c a k target).cells = c.cells := by
  unfold recallTo
  repeat' split
  all_goals simp

@[simp] theorem lowerAll_cells (c : Core) (as : List Nat) : (lowerAll c as).cells = c.cells := by simp [lowerAll, cells_foldl]
@[simp] theorem recallPort_cells (c : Core) (p : Nat) : (recallPort c p).cells = c.cells := by simp [recallPort]
@[simp] theorem dropPartner_cells (c : Core) (p addr : Nat) : (dropPartner c p addr).cells = c.cells := by simp [dropPartner]

/-! ### Pd -/

@[simp] theorem pdTerm_cells (c : Core) (p : PdId) : (pdTerm c p).cells = c.cells := (rfl)
@[simp] theorem sinkLost_cells (c : Core) (p : PdId) : (sinkLost c p).cells = c.cells := by simp [sinkLost]
@[simp] theorem pdLeave_cells (c : Core) (p : PdId) (att : Attach) : (pdLeave c p att).cells = c.cells := by simp [pdLeave]
@[simp] theorem errorRecovery_cells (c : Core) (p : PdId) : (errorRecovery c p).cells = c.cells := by simp [errorRecovery]
@[simp] theorem pdCount_cells (c : Core) (p : PdId) : (pdCount c p).cells = c.cells := (rfl)
@[simp] theorem sendOffer_cells (c : Core) (p : PdId) : (sendOffer c p).cells = c.cells := by simp [sendOffer]

@[simp] theorem pdBacked_cells (c : Core) (p : PdId) (ok : Bool) : (pdBacked c p ok).cells = c.cells := by
  unfold pdBacked
  dsimp only
  repeat' split
  all_goals simp

@[simp] theorem beginSequence_cells (c : Core) (p : PdId) (m : PdMsg) : (beginSequence c p m).cells = c.cells := (rfl)
@[simp] theorem refuseSwap_cells (c : Core) (port : PdId) : (refuseSwap c port).cells = c.cells := (rfl)
@[simp] theorem enterAlt_cells (c : Core) (p : PdId) : (enterAlt c p).cells = c.cells := (rfl)
@[simp] theorem dampEntry_cells (c : Core) (p : PdId) : (dampEntry c p).cells = c.cells := by simp [dampEntry]
@[simp] theorem pdReturn_cells (c : Core) (p : PdId) : (pdReturn c p).cells = c.cells := by simp [pdReturn]
@[simp] theorem pdAsk_cells (c : Core) (p : PdId) : (pdAsk c p).cells = c.cells := by simp [pdAsk]
@[simp] theorem pdEnableOff_cells (c : Core) (p : PdId) : (pdEnableOff c p).cells = c.cells := by simp [pdEnableOff]
@[simp] theorem pdTick_cells (c : Core) : (pdTick c).cells = c.cells := by simp [pdTick]

/-! ### Vault -/

@[simp] theorem recompute_cells (c : Core) : (recompute c).cells = c.cells := (rfl)

@[simp] theorem throttleStep_cells (c : Core) : (throttleStep c).cells = c.cells := by
  unfold throttleStep
  split
  · rfl
  · simp [cells_foldl]

@[simp] theorem recallTier_cells (c : Core) (k : Column) (tier need : Nat) : (recallTier c k tier need).1.cells = c.cells := by
  unfold recallTier
  split
  · rfl
  · exact cells_foldl (fun _ _ => by simp) _ c

@[simp] theorem recallTiers_cells (k : Column) (ts : List Nat) : ∀ (c : Core) (need : Nat),
    (recallTiers c k ts need).cells = c.cells := by
  induction ts with
  | nil => exact fun _ _ => rfl
  | cons t ts ih => exact fun c need => (ih _ _).trans (recallTier_cells c k t need)

@[simp] theorem recallStep_cells (c : Core) (k : Column) : (recallStep c k).cells = c.cells := by simp [recallStep]
@[simp] theorem marginStep_cells (c : Core) (before : Int) :
    (marginStep c before).cells = c.cells := by simp [marginStep, cells_foldl]

@[simp] theorem serve_cells (c : Core) (k : Column) (fair : List (Nat × Nat)) (capped : Bool) (a : Nat) :
    (serve c k fair capped a).cells = c.cells := by
  unfold serve
  dsimp only
  repeat' split
  all_goals simp

@[simp] theorem serveColumn_cells (c : Core) (k : Column) :
    (serveColumn c k).cells = c.cells := by simp [serveColumn, cells_foldl]

@[simp] theorem judgeBurst_cells (c : Core) (a : Nat) : (judgeBurst c a).cells = c.cells := by
  unfold judgeBurst
  dsimp only
  repeat' split
  all_goals simp

@[simp] theorem burstStep_cells (c : Core) : (burstStep c).cells = c.cells := by simp [burstStep, cells_foldl]

@[simp] theorem releaseSurplus_cells (c : Core) (p : PdId) : (releaseSurplus c p).cells = c.cells := by
  unfold releaseSurplus
  split <;> simp

@[simp] theorem backOne_cells (c : Core) (a n : Nat) : (backOne c a n).cells = c.cells := by simp [backOne]
@[simp] theorem backStep_cells (c : Core) : (backStep c).cells = c.cells := by simp [backStep, cells_foldl]
@[simp] theorem sendMirror_cells (c : Core) : (sendMirror c).cells = c.cells := by simp [sendMirror, cells_foldl]

@[simp] theorem endReturns_cells (c : Core) : (endReturns c).cells = c.cells := by
  unfold endReturns
  split
  · rfl
  · exact (cells_foldl (fun _ _ => by simp) _ _).trans (cells_foldl (fun _ _ => updPlb_cells _ _ _) _ c)

@[simp] theorem followAudit_cells (c : Core) (bad : List Nat) : (followAudit c bad).cells = c.cells := by simp [followAudit]

/-! ### Plinth -/

@[simp] theorem drive_cells (c : Core) (p slot : Nat) (f : Frame) : (drive c p slot f).cells = c.cells := (rfl)

@[simp] theorem deliver_cells (c : Core) (p : Nat) (m : PlbMsg) : (deliver c p m).cells = c.cells := by
  unfold deliver
  repeat' split
  all_goals simp

@[simp] theorem undelivered_cells (c : Core) (p : Nat) (m : PlbMsg) :
    (undelivered c p m).cells = c.cells := by simp [undelivered]
@[simp] theorem makeAbsent_cells (c : Core) (p a : Nat) : (makeAbsent c p a).cells = c.cells := by simp [makeAbsent]

@[simp] theorem replaceSupply_cells (c : Core) (a : Nat) : (replaceSupply c a).cells = c.cells := by
  unfold replaceSupply
  dsimp only
  repeat' split
  all_goals simp

@[simp] theorem putRequest_cells (c : Core) (a : Nat) (k : Column) (tokens : Nat) (seq : Byte) :
    (putRequest c a k tokens seq).cells = c.cells := by
  unfold putRequest
  repeat' split
  all_goals simp

@[simp] theorem takeRequest_cells (c : Core) (a : Nat) (k : Column) (f : Frame) :
    (takeRequest c a k f).cells = c.cells := by simp [takeRequest]
@[simp] theorem sendOrderAck_cells (c : Core) (p a idx slot result : Nat) (seq : Byte) :
    (sendOrderAck c p a idx slot result seq).cells = c.cells := (rfl)
@[simp] theorem shedPort_cells (before c : Core) (p : Nat) : (shedPort before c p).cells = c.cells := by simp [shedPort]
@[simp] theorem shedTick_cells (before c : Core) : (shedTick before c).cells = c.cells := by simp [shedTick, cells_foldl]

/-! ### Twin -/

@[simp] theorem sendIdent_cells (c : Core) : (sendIdent c).cells = c.cells := by simp [sendIdent]
@[simp] theorem sendControl_cells (c : Core) (command tick : Nat) :
    (sendControl c command tick).cells = c.cells := by simp [sendControl]
@[simp] theorem sendOrders_cells (c : Core) : (sendOrders c).cells = c.cells := by simp [sendOrders]
@[simp] theorem sendPolicy_cells (c : Core) : (sendPolicy c).cells = c.cells := by simp [sendPolicy]
@[simp] theorem sendHeartbeat_cells (c : Core) : (sendHeartbeat c).cells = c.cells := by simp [sendHeartbeat]
theorem receive_cells {c : Core} {h : LinkHdr} {type : Nat} {act : Core → Core} (ha : ∀ d : Core, (act d).cells = d.cells) :
    (receive c h type act).cells = c.cells := by simp [receive, ha]
@[simp] theorem attachRoles_cells (c : Core) (m : IdentMsg) : (attachRoles c m).cells = c.cells := (rfl)
@[simp] theorem rampBegin_cells (c : Core) : (rampBegin c).cells = c.cells := by simp [rampBegin]
@[simp] theorem adoptMerged_cells (c : Core) : (adoptMerged c).cells = c.cells := (rfl)
@[simp] theorem takeVault_cells (c : Core) : (takeVault c).cells = c.cells := by simp [takeVault]
@[simp] theorem promote_cells (c : Core) : (promote c).cells = c.cells := by simp [promote]
@[simp] theorem survive_cells (c : Core) : (survive c).cells = c.cells := (rfl)
@[simp] theorem alignTick_cells (c : Core) (h : HeartbeatMsg) : (alignTick c h).cells = c.cells := by simp [alignTick]
@[simp] theorem shareStep_cells (c : Core) (h : HeartbeatMsg) : (shareStep c h).cells = c.cells := by simp [shareStep]
@[simp] theorem fenceBegin_cells (c : Core) : (fenceBegin c).cells = c.cells := by simp [fenceBegin]
@[simp] theorem becomeFenced_cells (c : Core) : (becomeFenced c).cells = c.cells := by simp [becomeFenced]
@[simp] theorem twinNet_cells (c : Core) (m : LedgerMsg) : (twinNet c m).cells = c.cells := by simp [twinNet]
@[simp] theorem applyMirror_cells (c : Core) (a : Nat) (r : MirrorRec) :
    (applyMirror c a r).cells = c.cells := by simp [applyMirror]

@[simp] theorem applyMirrors_cells (rs : List MirrorRec) : ∀ (c : Core) (a : Nat), (applyMirrors c a rs).cells = c.cells := by
  induction rs with
  | nil => exact fun _ _ => rfl
  | cons r rs ih => exact fun c a => (ih _ _).trans (by simp)

@[simp] theorem twinApply_cells (c : Core) : (twinApply c).cells = c.cells := by
  unfold twinApply
  dsimp only
  repeat' split
  all_goals simp

@[simp] theorem handoverBegin_cells (c : Core) : (handoverBegin c).cells = c.cells := by simp [handoverBegin]
@[simp] theorem detachSend_cells (c : Core) (own : Bool) : (detachSend c own).cells = c.cells := by simp [detachSend]
@[simp] theorem detachBegin_cells (c : Core) (own : Bool) : (detachBegin c own).cells = c.cells := by simp [detachBegin]
@[simp] theorem reattachBegin_cells (c : Core) : (reattachBegin c).cells = c.cells := by simp [reattachBegin]
@[simp] theorem detachRamp_cells (c : Core) : (detachRamp c).cells = c.cells := (rfl)
@[simp] theorem detachDone_cells (c : Core) : (detachDone c).cells = c.cells := by simp [detachDone]
@[simp] theorem rampWeight_cells (c : Core) : (rampWeight c).cells = c.cells := by simp [rampWeight]

/-! ### Orders -/

@[simp] theorem updSlot_cells (c : Core) (k : Nat) (f : SlotG → SlotG) : (updSlot c k f).cells = c.cells := (rfl)
@[simp] theorem formMerged_cells (c : Core) : (formMerged c).cells = c.cells := by simp [formMerged]
@[simp] theorem supervisorGone_cells (c : Core) : (supervisorGone c).cells = c.cells := by simp [supervisorGone]
@[simp] theorem clearSupervisor_cells (c : Core) : (clearSupervisor c).cells = c.cells := (rfl)

@[simp] theorem report_cells (c : Core) (a : Arrived) (r : OrdRes) : (report c a r).cells = c.cells := by
  unfold report
  repeat' split
  all_goals simp

@[simp] theorem ownerHandover_cells (c : Core) : (ownerHandover c).cells = c.cells := by simp [ownerHandover]
@[simp] theorem exportOrderStep_cells (c : Core) : (exportOrderStep c).cells = c.cells := by simp [exportOrderStep]

/-! ### Records -/

@[simp] theorem updSector_cells (c : Core) (i : Nat) (f : LogSector → LogSector) :
    (updSector c i f).cells = c.cells := by simp [updSector]
@[simp] theorem freshRecord_cells (c : Core) (t : RecType) : (freshRecord c t).cells = c.cells := by simp [freshRecord]
@[simp] theorem dropRecord_cells (c : Core) : (dropRecord c).cells = c.cells := (rfl)

@[simp] theorem logBegin_cells (n : Nat) : ∀ c : Core, (logBegin n c).cells = c.cells := by
  induction n with
  | zero => exact fun _ => rfl
  | succ n ih =>
    intro c
    unfold logBegin
    split
    · rfl
    · exact (ih _).trans rfl
    · rfl
    · rfl

@[simp] theorem nvmKick_cells (c : Core) : (nvmKick c).cells = c.cells := by
  unfold nvmKick
  split
  · rfl
  · dsimp only
    generalize hd : (if inRun c = true then logBegin (c.own.q.length + 1) c else c) = d
    have hk : d.cells = c.cells := by
      rw [← hd]
      simp
    repeat' split
    all_goals exact hk

@[simp] theorem markStart_cells (c : Core) : (markStart c).cells = c.cells := (rfl)
@[simp] theorem scanFresh_cells (c : Core) : (scanFresh c).cells = c.cells := (rfl)
@[simp] theorem scanRef_cells (c : Core) : (scanRef c).cells = c.cells := (rfl)
@[simp] theorem scanFound_cells (c : Core) (h : Nat) : (scanFound c h).cells = c.cells := (rfl)

@[simp] theorem recordDone_cells (c : Core) (r : QRec) : (recordDone c r).cells = c.cells := by
  unfold recordDone
  split <;> simp

@[simp] theorem recordWritten_cells (c : Core) : (recordWritten c).cells = c.cells := by
  unfold recordWritten
  split <;> simp

@[simp] theorem countErase_cells (c : Core) : (countErase c).cells = c.cells := (rfl)
@[simp] theorem sectorOpened_cells (c : Core) (i : Nat) : (sectorOpened c i).cells = c.cells := (rfl)
@[simp] theorem handoverFuse_cells (c : Core) : (handoverFuse c).cells = c.cells := by simp [handoverFuse]
@[simp] theorem handoverKey_cells (c : Core) : (handoverKey c).cells = c.cells := by simp [handoverKey]
@[simp] theorem endPass_cells (c : Core) (r : Nat) (digest : Option (BitVec 256)) :
    (endPass c r digest).cells = c.cells := (rfl)

@[simp] theorem provisioned_cells (c : Core) (ok : Bool) : (provisioned c ok).cells = c.cells := by
  unfold provisioned
  split <;> simp

/-! ### Thermal -/

@[simp] theorem updSensor_cells (c : Core) (i : Nat) (f : SensorG → SensorG) : (updSensor c i f).cells = c.cells := (rfl)
@[simp] theorem packBandStep_cells (c : Core) : (packBandStep c).cells = c.cells := by simp [packBandStep]

@[simp] theorem bandsAfter_cells (c : Core) (role : Nat) : (bandsAfter c role).cells = c.cells := by
  unfold bandsAfter
  split <;> simp

@[simp] theorem rateStep_cells (c : Core) (i : Nat) (t : Int) : (rateStep c i t).cells = c.cells := by simp [rateStep]

@[simp] theorem twinThermal_cells (c : Core) (m : Option TwinTherm) : (twinThermal c m).cells = c.cells := by
  unfold twinThermal
  split <;> simp

@[simp] theorem gatesFree_cells (c : Core) : (gatesFree c).cells = c.cells := by simp [gatesFree]
@[simp] theorem stageRestart_cells (c : Core) : (stageRestart c).cells = c.cells := by simp [stageRestart]
@[simp] theorem kilnCount_cells (c : Core) : (kilnCount c).cells = c.cells := by simp [kilnCount]
@[simp] theorem applyBands_cells (c : Core) : (applyBands c).cells = c.cells := (rfl)

/-! ### Faults -/

@[simp] theorem addTransient_cells (c : Core) (code : BitVec 16) (inst : BitVec 8) (sec : Nat) :
    (addTransient c code inst sec).1.cells = c.cells := (rfl)

@[simp] theorem probeEffect_cells (c : Core) (code : BitVec 16) (inst : BitVec 8) :
    (probeEffect c code inst).cells = c.cells := by
  unfold probeEffect
  repeat' split
  all_goals simp

@[simp] theorem phaseReturn_cells (c : Core) (n : Nat) : (phaseReturn c n).cells = c.cells := by simp [phaseReturn]
@[simp] theorem isolatePhase_cells (c : Core) (n : Nat) : (isolatePhase c n).cells = c.cells := by simp [isolatePhase]
@[simp] theorem isolateInput_cells (c : Core) (n : Nat) : (isolateInput c n).cells = c.cells := (rfl)
@[simp] theorem sensorReturn_cells (c : Core) (n : Nat) : (sensorReturn c n).cells = c.cells := (rfl)
@[simp] theorem channelReturn_cells (c : Core) (k : Nat) : (channelReturn c k).cells = c.cells := by simp [channelReturn]
@[simp] theorem portReturn_cells (c : Core) (n : Nat) : (portReturn c n).cells = c.cells := by simp [portReturn]

@[simp] theorem rotTransient_cells (c : Core) (x : Nat × BitVec 8) : (rotTransient c x).cells = c.cells := by
  unfold rotTransient
  split <;> simp

@[simp] theorem rotLasting_cells (c : Core) (x : Nat × BitVec 8) : (rotLasting c x).cells = c.cells := by
  unfold rotLasting
  split <;> simp

@[simp] theorem transientAct_cells (c : Core) (code : BitVec 16) (inst : BitVec 8) :
    (transientAct c code inst).cells = c.cells := by
  unfold transientAct
  dsimp only
  split
  all_goals simp [cells_foldl]

@[simp] theorem vaultLost_cells (c : Core) : (vaultLost c).cells = c.cells := by simp [vaultLost, cells_foldl]

@[simp] theorem closureProbe_cells (c : Core) (ch : Nat) (pass : Bool) (sec : Nat) (st : ProbeSt) :
    (closureProbe c ch pass sec st).cells = c.cells := by
  unfold closureProbe
  dsimp only
  repeat' split
  all_goals rfl

@[simp] theorem dequeue_cells (c : Core) (code : BitVec 16) (inst : BitVec 8) : (dequeue c code inst).cells = c.cells := (rfl)
@[simp] theorem rotationRun_cells (c : Core) (item : Fin 10) (inst : BitVec 8) :
    (rotationRun c item inst).cells = c.cells := (rfl)

@[simp] theorem rotationEffect_cells (c : Core) (item : Nat) (inst : BitVec 8) :
    (rotationEffect c item inst).cells = c.cells := by
  unfold rotationEffect
  split <;> simp

/-! ### Window -/

@[simp] theorem holdWrite_cells (s : State) (w : WinWrite) : (holdWrite s w).core.cells = s.core.cells := by
  unfold holdWrite
  split <;> simp

@[simp] theorem takePending_cells (s : State) (op : Byte) (h : WinHead) (f : WinFrame) :
    (takePending s op h f).core.cells = s.core.cells := by
  unfold takePending
  dsimp only
  repeat' split
  all_goals simp

@[simp] theorem transactOpen_cells (f : WinFrame) (s : State) : (transactOpen f s).core.cells = s.core.cells := by
  unfold transactOpen
  repeat' split
  all_goals simp

@[simp] theorem transactBoot_cells (f : WinFrame) (s : State) : (transactBoot f s).core.cells = s.core.cells := by
  unfold transactBoot
  repeat' split
  all_goals simp

@[simp] theorem ackNew_cells (c : Core) (mask : Nat) (image : BitVec 64) : (ackNew c mask image).cells = c.cells := (rfl)

@[simp] theorem ackWord_cells (c : Core) (a : Nat) (v : BitVec 32) (image : BitVec 64) :
    (ackWord c a v image).cells = c.cells := by
  unfold ackWord
  split <;> simp

/-! ### Grid -/

@[simp] theorem queueEvent_cells (c : Core) (k : EventKind) : (queueEvent c k).cells = c.cells := by simp [queueEvent]
@[simp] theorem eventStep_cells (c : Core) : (eventStep c).cells = c.cells := by simp [eventStep, cells_foldl]

@[simp] theorem endTick_cells (s : State) : (endTick s).core.cells = s.core.cells := by
  unfold endTick
  split <;> simp

@[simp] theorem shadow_cells (pc : BitVec 32) (c : Core) : (shadow pc c).cells = c.cells := (rfl)
@[simp] theorem usTick_cells (c : Core) : (usTick c).cells = c.cells := (rfl)
@[simp] theorem hourTick_cells (c : Core) : (hourTick c).cells = c.cells := (rfl)
@[simp] theorem clearSent_cells (c : Core) : (clearSent c).cells = c.cells := (rfl)
@[simp] theorem twinFrames_cells (c : Core) : (twinFrames c).cells = c.cells := by simp [twinFrames]
@[simp] theorem gridTick_cells (c : Core) : (gridTick c).cells = c.cells := (rfl)
@[simp] theorem entryStep_cells (c : Core) : (entryStep c).cells = c.cells := (rfl)
@[simp] theorem safeSoft_cells (c : Core) : (safeSoft c).cells = c.cells := by simp [safeSoft]

/-! ### Lifecycle -/

@[simp] theorem bootLasting_cells (c : Core) (code : BitVec 16) (inst : BitVec 8) :
    (bootLasting c code inst).cells = c.cells := by simp [bootLasting]

@[simp] theorem latchAtRun_cells (b : BootRead) (c : Core) (x : BitVec 16 × BitVec 8) :
    (latchAtRun b c x).cells = c.cells := by
  unfold latchAtRun
  dsimp only
  rw [latchRecord_cells]
  split
  · split <;> simp
  · simp

@[simp] theorem configure_cells (c : Core) (b : BootRead) (m : Maquette) (fromB : Bool) (ra rb : Nat) :
    (configure c b m fromB ra rb).cells = c.cells := by simp [configure]
@[simp] theorem watchdogAtRun_cells (c : Core) : (watchdogAtRun c).cells = c.cells := by simp [watchdogAtRun]
@[simp] theorem burnsAtRun_cells (c : Core) : (burnsAtRun c).cells = c.cells := (rfl)
@[simp] theorem recordsAtRun_cells (c : Core) : (recordsAtRun c).cells = c.cells := by simp [recordsAtRun]
@[simp] theorem safeHoldEntry_cells (c : Core) (b : BootRead) (ra rb : Nat) :
    (safeHoldEntry c b ra rb).cells = c.cells := by simp [safeHoldEntry]
@[simp] theorem atUs_cells (c : Core) (us : Nat) : (atUs c us).cells = c.cells := (rfl)

@[simp] theorem keyStarting_cells (c : Core) (key : BitVec 16) (us : Nat) : (keyStarting c key us).cells = c.cells := by
  unfold keyStarting
  split <;> simp

@[simp] theorem dormantNotice_cells (c : Core) : (dormantNotice c).cells = c.cells := (rfl)

end Sys2Proof.Machine
end


section
/-! PROOFS. Functions of CORE that may take a reset, which cuts the NVM's work short, or that complete an operation of the NVM:
the cells stay in canonical form. -/

namespace Sys2Proof.Machine

@[simp] theorem resetEntry_wf {c : Core} (kind : ResetKind) (bit : Nat) (code : BitVec 16) (h : Memory.wf c.cells = true) :
    Memory.wf (resetEntry c kind bit code).cells = true := resetEntry_nvm_wf c kind bit code h

@[simp ↓] theorem wf_ite (p : Prop) [Decidable p] (m n : List Host.Cell) :
    Memory.wf (if p then m else n) = true ↔ (p → Memory.wf m = true) ∧ (¬ p → Memory.wf n = true) := by
  split <;> simp [*]

theorem wf_foldl {α : Type} {f : Core → α → Core}
    (h : ∀ c x, Memory.wf c.cells = true → Memory.wf (f c x).cells = true) (l : List α) {c : Core}
    (hc : Memory.wf c.cells = true) : Memory.wf (l.foldl f c).cells = true := by
  induction l generalizing c with
  | nil => exact hc
  | cons x l ih => exact ih (h c x hc)

/-! ### Reactions -/

@[simp] theorem classAction_wf {c : Core} (cls : FCls) (cause ph : Nat) (code : BitVec 16) (h : Memory.wf c.cells = true) :
    Memory.wf (classAction c cls cause ph code).cells = true := by
  cases cls with
  | a => simpa [classAction] using h
  | b => exact h
  | c => exact h
  | d => exact resetEntry_wf .fault 4 code h

@[simp] theorem faultWith_wf {c : Core} (code : BitVec 16) (inst : BitVec 8) (row : FCls) (p : ProbeSt) (probe : Bool)
    (cause ph : Nat) (h : Memory.wf c.cells = true) :
    Memory.wf (faultWith c code inst row p probe cause ph).cells = true := by
  simp [faultWith, h]
@[simp] theorem fault_wf {c : Core} (code : BitVec 16) (inst : BitVec 8) (h : Memory.wf c.cells = true) :
    Memory.wf (fault c code inst).cells = true := by simp [fault, h]
@[simp] theorem faultLasting_wf {c : Core} (code : BitVec 16) (inst : BitVec 8) (h : Memory.wf c.cells = true) :
    Memory.wf (faultLasting c code inst).cells = true := by simp [faultLasting, h]

/-! ### Loop -/

@[simp] theorem backstopDue_wf {c : Core} (d : Nat) (h : Memory.wf c.cells = true) :
    Memory.wf (backstopDue c d).cells = true := by simp [backstopDue, h]
@[simp] theorem overrun_wf {c : Core} (d : Nat) (h : Memory.wf c.cells = true) :
    Memory.wf (overrun c d).cells = true := by simp [overrun, h]

@[simp] theorem loopSample_wf {c : Core} (d : Fin 8) (ph : Nat) (smp : LoopSample) (h : Memory.wf c.cells = true) :
    Memory.wf (loopSample c d ph smp).cells = true := by
  unfold loopSample
  dsimp only
  repeat' split
  all_goals simp [h]

@[simp] theorem loopIllegal_wf {c : Core} (d : Nat) (h : Memory.wf c.cells = true) :
    Memory.wf (loopIllegal c d).cells = true := by simp [loopIllegal, h]
@[simp] theorem runStep_wf {c : Core} (r : LoopRun) (pc cyc : Nat) (h : Memory.wf c.cells = true) :
    Memory.wf (runStep c r pc cyc).cells = true := by simp [runStep, h]
@[simp] theorem writeDest_wf {c : Core} (r : LoopRun) (k : BitVec 6) (v : Word) (cyc : Nat) (h : Memory.wf c.cells = true) :
    Memory.wf (writeDest c r k v cyc).cells = true := by simp [writeDest, h]

theorem inHead_wf {c : Core} {f : LoopRun → Core} (p : Word → Bool) (h : Memory.wf c.cells = true)
    (hf : ∀ r, Memory.wf (f r).cells = true) : Memory.wf (inHead c p f).cells = true := by
  unfold inHead
  split
  · split
    · exact hf _
    · exact h
  · exact h

@[simp] theorem unary_wf {c : Core} (p : Word → Bool) (dest a : BitVec 6) (cyc : Nat) (f : Word → Word)
    (h : Memory.wf c.cells = true) : Memory.wf (unary c p dest a cyc f).cells = true := by
  refine inHead_wf p h fun r => ?_
  split <;> simp [h]

@[simp] theorem binary_wf {c : Core} (op dest a b : BitVec 6) (cyc : Nat) (f : Word → Word → Word)
    (h : Memory.wf c.cells = true) : Memory.wf (binary c op dest a b cyc f).cells = true := by
  refine inHead_wf _ h fun r => ?_
  split <;> simp [h]

/-! ### Stage -/

@[simp] theorem leftovers_wf {c : Core} (ds : List Nat) (h : Memory.wf c.cells = true) :
    Memory.wf (leftovers c ds).cells = true := by
  refine wf_foldl (fun _ _ hc => ?_) _ ?_ <;> simp [*]

@[simp] theorem sampleOuter_wf {c : Core} (n : Fin 4) (smp : LoopSample) (h : Memory.wf c.cells = true) :
    Memory.wf (sampleOuter c n smp).cells = true := by
  refine wf_foldl (fun _ _ hc => ?_) _ ?_ <;> simp [*]

@[simp] theorem samplePhase_wf {c : Core} (n : Fin 4) (smp : LoopSample) (h : Memory.wf c.cells = true) :
    Memory.wf (samplePhase c n smp).cells = true := by simp [samplePhase, h]

@[simp] theorem periodStart_wf {c : Core} (n : Fin 4) (smp : LoopSample) (h : Memory.wf c.cells = true) :
    Memory.wf (periodStart c n smp).cells = true := by
  unfold periodStart
  refine samplePhase_wf _ _ ?_
  split
  · refine sampleOuter_wf _ _ ?_
    simp [h]
  · simp [h]

@[simp] theorem phaseFault_wf {c : Core} (code : BitVec 16) (n : Nat) (h : Memory.wf c.cells = true) :
    Memory.wf (phaseFault c code n).cells = true := by simp [phaseFault, h]
@[simp] theorem closeFactor_wf {c : Core} (h : Memory.wf c.cells = true) :
    Memory.wf (closeFactor c).cells = true := by simp [closeFactor, h]

/-! ### Ledger -/

@[simp] theorem sysClosure_wf {c : Core} (h : Memory.wf c.cells = true) : Memory.wf (sysClosure c).cells = true := by
  unfold sysClosure
  dsimp only
  repeat' split
  all_goals simp [h, cells_foldl]

@[simp] theorem inputClosure_wf {c : Core} (h : Memory.wf c.cells = true) : Memory.wf (inputClosure c).cells = true := by
  refine wf_foldl (fun _ _ hc => ?_) _ ?_ <;> simp [*]

@[simp] theorem pulseClose_wf {c : Core} (h : Memory.wf c.cells = true) : Memory.wf (pulseClose c).cells = true := by
  unfold pulseClose
  exact wf_foldl (fun _ _ hc => by simp [hc]) _ h

@[simp] theorem closeLedger_wf {c : Core} (h : Memory.wf c.cells = true) : Memory.wf (closeLedger c).cells = true := by
  unfold closeLedger
  dsimp only
  rw [closeFrames_cells, closeMarks_cells, modeBook_cells]
  exact closeFactor_wf (pulseClose_wf (inputClosure_wf (sysClosure_wf h)))

@[simp] theorem gridClose_wf {c : Core} (h : Memory.wf c.cells = true) :
    Memory.wf (gridClose c).cells = true := by simp [gridClose, h]

/-! ### Cells -/

@[simp] theorem cellFault_wf {c : Core} (code : BitVec 16) (inst : Nat) (cells : List Nat) (h : Memory.wf c.cells = true) :
    Memory.wf (cellFault c code inst cells).cells = true := by simp [cellFault, h]
@[simp] theorem wireFault_wf {c : Core} (j : Nat) (h : Memory.wf c.cells = true) :
    Memory.wf (wireFault c j).cells = true := by simp [wireFault, h]
@[simp] theorem channelFault_wf {c : Core} (k : Nat) (h : Memory.wf c.cells = true) :
    Memory.wf (channelFault c k).cells = true := by simp [channelFault, h]
@[simp] theorem declareWire_wf {c : Core} (j : Nat) (h : Memory.wf c.cells = true) :
    Memory.wf (declareWire c j).cells = true := by simp [declareWire, h]
@[simp] theorem declareChannel_wf {c : Core} (k : Nat) (h : Memory.wf c.cells = true) :
    Memory.wf (declareChannel c k).cells = true := by simp [declareChannel, h]

@[simp] theorem cellsAlone_wf {c : Core} (h : Memory.wf c.cells = true) : Memory.wf (cellsAlone c).cells = true := by
  unfold cellsAlone
  split
  · exact h
  · exact wf_foldl (fun _ k hc => channelFault_wf k hc) _
      (wf_foldl (fun _ j hc => wireFault_wf j hc) _ h)

@[simp] theorem declareStack_wf {c : Core} (h : Memory.wf c.cells = true) :
    Memory.wf (declareStack c).cells = true := by simp [declareStack, h]

@[simp] theorem declareTest_wf {c : Core} (t : TestRes) (h : Memory.wf c.cells = true) :
    Memory.wf (declareTest c t).cells = true := by
  cases t with
  | pass => exact h
  | wire j => exact declareWire_wf j h
  | channels ks => exact wf_foldl (fun _ k hc => declareChannel_wf k hc) ks h
  | stack => exact declareStack_wf h

@[simp] theorem overvoltage_wf {c : Core} (h : Memory.wf c.cells = true) :
    Memory.wf (overvoltage c).cells = true := by simp [overvoltage, h]
@[simp] theorem judgeCell_wf {c : Core} (k : Nat) (h : Memory.wf c.cells = true) :
    Memory.wf (judgeCell c k).cells = true := by simp [judgeCell, h]
@[simp] theorem realCell_wf {c : Core} (k : Nat) (h : Memory.wf c.cells = true) :
    Memory.wf (realCell c k).cells = true := by simp [realCell, h]

@[simp] theorem twinPassed_wf {c : Core} (j : Nat) (h : Memory.wf c.cells = true) :
    Memory.wf (twinPassed c j).cells = true := by
  refine wf_foldl (fun _ _ hc => ?_) _ ?_ <;> simp [*]

/-! ### Charger -/

@[simp] theorem refusePack_wf {c : Core} (h : Memory.wf c.cells = true) :
    Memory.wf (refusePack c).cells = true := by simp [refusePack, h]
@[simp] theorem cycleStart_wf {c : Core} (h : Memory.wf c.cells = true) :
    Memory.wf (cycleStart c).cells = true := by simp [cycleStart, h]
@[simp] theorem reevaluate_wf {c : Core} (h : Memory.wf c.cells = true) :
    Memory.wf (reevaluate c).cells = true := by simp [reevaluate, h]

@[simp] theorem chargeDecision_wf {c : Core} (h : Memory.wf c.cells = true) : Memory.wf (chargeDecision c).cells = true := by
  unfold chargeDecision
  split <;> simp [h]

@[simp] theorem inputBecomesActive_wf {c : Core} (h : Memory.wf c.cells = true) :
    Memory.wf (inputBecomesActive c).cells = true := by simp [inputBecomesActive, h]
@[simp] theorem chargeRestart_wf {c : Core} (h : Memory.wf c.cells = true) :
    Memory.wf (chargeRestart c).cells = true := by simp [chargeRestart, h]

@[simp] theorem phaseStep_wf {c : Core} (h : Memory.wf c.cells = true) : Memory.wf (phaseStep c).cells = true := by
  unfold phaseStep
  repeat' split
  all_goals simp [h]

/-! ### Path -/

@[simp] theorem becameActive_wf {c : Core} (h : Memory.wf c.cells = true) :
    Memory.wf (becameActive c).cells = true := by simp [becameActive, h]

/-! ### LoadSwitch -/

@[simp] theorem lswFault_wf {c : Core} (row n : Nat) (h : Memory.wf c.cells = true) :
    Memory.wf (lswFault c row n).cells = true := by simp [lswFault, h]
@[simp] theorem lswTrip_wf {c : Core} (n : Nat) (thermal : Bool) (h : Memory.wf c.cells = true) :
    Memory.wf (lswTrip c n thermal).cells = true := by simp [lswTrip, h]

@[simp] theorem lswGateStep_wf {c : Core} (bad : BitVec 8) (h : Memory.wf c.cells = true) :
    Memory.wf (lswGateStep bad c).cells = true := by
  refine wf_foldl (fun _ _ hc => ?_) _ ?_ <;> simp [*]

/-! ### Vault -/

@[simp] theorem auditChecks_wf {c : Core} (bad : List Nat) (h : Memory.wf c.cells = true) :
    Memory.wf (auditChecks c bad).cells = true := by
  unfold auditChecks
  dsimp only
  repeat' split
  all_goals simp [h, cells_foldl]

@[simp] theorem leadAudit_wf {c : Core} (bad : List Nat) (h : Memory.wf c.cells = true) :
    Memory.wf (leadAudit c bad).cells = true := by simp [leadAudit, h]

/-! ### Plinth -/

@[simp] theorem isolatePort_wf {c : Core} (p : Nat) (h : Memory.wf c.cells = true) :
    Memory.wf (isolatePort c p).cells = true := by simp [isolatePort, h]

@[simp] theorem confineOnce_wf {c : Core} (p : Nat) (h : Memory.wf c.cells = true) :
    Memory.wf (confineOnce c p).cells = true := by
  unfold confineOnce
  dsimp only
  repeat' split
  all_goals simp [h]

@[simp] theorem tecStep_wf {c : Core} (p : Nat) (d : Int) (h : Memory.wf c.cells = true) :
    Memory.wf (tecStep c p d).cells = true :=
  confineOnce_wf p (confineOnce_wf p (confineOnce_wf p h))

@[simp] theorem broadcastTec_wf {c : Core} (p : Nat) (bad : Bool) (h : Memory.wf c.cells = true) :
    Memory.wf (broadcastTec c p bad).cells = true := by simp [broadcastTec, h]
@[simp] theorem sendBroadcast_wf {c : Core} (p slot : Nat) (m : PlbMsg) (q : BitVec 4) (rep bad : Bool)
    (h : Memory.wf c.cells = true) :
    Memory.wf (sendBroadcast c p slot m q rep bad).cells = true := by
  simp [sendBroadcast, h]
@[simp] theorem sendUnicast_wf {c : Core} (p slot : Nat) (m : PlbMsg) (bad : Bool) (h : Memory.wf c.cells = true) :
    Memory.wf (sendUnicast c p slot m bad).cells = true := by simp [sendUnicast, h]
@[simp] theorem sendAll_wf {c : Core} (p slot : Nat) (m : PlbMsg) (bad : Bool) (h : Memory.wf c.cells = true) :
    Memory.wf (sendAll c p slot m bad).cells = true := by simp [sendAll, h]
@[simp] theorem sendPair_wf {c : Core} (p slot : Nat) (m : PlbMsg) (bad1 bad2 : Bool) (h : Memory.wf c.cells = true) :
    Memory.wf (sendPair c p slot m bad1 bad2).cells = true := by simp [sendPair, h]

@[simp] theorem pickSlot_wf {c : Core} (p slot : Nat) (bad : Bool) (h : Memory.wf c.cells = true) :
    Memory.wf (pickSlot c p slot bad).cells = true := by
  unfold pickSlot
  dsimp only
  repeat' split
  all_goals simp [h]

@[simp] theorem slotStart_wf {c : Core} (p slot : Nat) (bad repBad : Bool) (h : Memory.wf c.cells = true) :
    Memory.wf (slotStart c p slot bad repBad).cells = true := by
  unfold slotStart
  dsimp only
  repeat' split
  all_goals simp [h]

@[simp] theorem missed_wf {c : Core} (p a : Nat) (corrupted : Bool) (h : Memory.wf c.cells = true) :
    Memory.wf (missed c p a corrupted).cells = true := by
  unfold missed
  dsimp only
  repeat' split
  all_goals simp [h]

/-! ### Twin -/

@[simp] theorem attachStep_wf {c : Core} (m : IdentMsg) (h : Memory.wf c.cells = true) :
    Memory.wf (attachStep c m).cells = true := by
  unfold attachStep
  split <;> simp [h]

@[simp] theorem attachTry_wf {c : Core} (m : IdentMsg) (h : Memory.wf c.cells = true) :
    Memory.wf (attachTry c m).cells = true := by simp [attachTry, h]
@[simp] theorem pathCheck_wf {c : Core} (h : HeartbeatMsg) (hk : Memory.wf c.cells = true) :
    Memory.wf (pathCheck c h).cells = true := by simp [pathCheck, hk]
@[simp] theorem echoCheck_wf {c : Core} (h : HeartbeatMsg) (hk : Memory.wf c.cells = true) :
    Memory.wf (echoCheck c h).cells = true := by simp [echoCheck, hk]
@[simp] theorem mirrorCheck_wf {c : Core} (agree leadFailed : Bool) (h : Memory.wf c.cells = true) :
    Memory.wf (mirrorCheck c agree leadFailed).cells = true := by simp [mirrorCheck, h]

/-! ### Orders -/

@[simp] theorem command_wf {c : Core} (k : Nat) (v : BitVec 32) (h : Memory.wf c.cells = true) :
    Memory.wf (command c k v).cells = true := by
  unfold command
  split <;> simp [h]

@[simp] theorem runCommands_wf {c : Core} (l : List Arrived) (h : Memory.wf c.cells = true) :
    Memory.wf (runCommands c l).cells = true := by
  refine wf_foldl (fun _ _ hc => ?_) _ ?_ <;> simp [*]

/-! ### Records -/

@[simp] theorem nvmDone_wf {c : Core} (o : NvmOp) (h : Memory.wf c.cells = true) : Memory.wf (nvmDone c o).cells = true := by
  cases o with
  | erase a => exact nvmErase_wf _ a h
  | program a d => exact nvmProgram_wf d _ a h
  | openSector i => simpa [nvmDone] using h
  | logRecord => simpa [nvmDone] using h

@[simp] theorem nvmFailed_wf {c : Core} (o : NvmOp) (h : Memory.wf c.cells = true) :
    Memory.wf (nvmFailed c o).cells = true := by
  unfold nvmFailed
  refine fault_wf _ _ ?_
  dsimp only
  split
  · rw [cells_mk]
    generalize (List.range 4096).map (Config.tornByte c.free) = bs
    exact nvmProgram_wf bs _ _ h
  · exact nvmProgram_wf _ _ _ h
  · exact h
  · split <;> exact h

/-! ### Thermal -/

@[simp] theorem sensorFault_wf {c : Core} (code : BitVec 16) (i : Nat) (h : Memory.wf c.cells = true) :
    Memory.wf (sensorFault c code i).cells = true := by simp [sensorFault, h]

@[simp] theorem acceptReading_wf {c : Core} (i : Nat) (r : SensorReading) (h : Memory.wf c.cells = true) :
    Memory.wf (acceptReading c i r).cells = true := by
  unfold acceptReading
  dsimp only
  repeat' split
  all_goals simp [h]

/-! ### Faults -/

@[simp] theorem isolateRaised_wf {c : Core} (code : BitVec 16) (inst : BitVec 8) (h : Memory.wf c.cells = true) :
    Memory.wf (isolateRaised c code inst).cells = true := by simp [isolateRaised, h]

@[simp] theorem classResult_wf {c : Core} (code : BitVec 16) (inst : BitVec 8) (cls : FCls) (lasting : Bool)
    (h : Memory.wf c.cells = true) :
    Memory.wf (classResult c code inst cls lasting).cells = true := by
  unfold classResult
  split <;> simp [h]

@[simp] theorem rotOut_wf {c : Core} (x : Nat × BitVec 8) (h : Memory.wf c.cells = true) :
    Memory.wf (rotOut c x).cells = true := by
  unfold rotOut
  split <;> simp [h]

@[simp] theorem copyGone_wf {c : Core} (h : Memory.wf c.cells = true) :
    Memory.wf (copyGone c).cells = true := by simp [copyGone, h]

@[simp] theorem lastingAct_wf {c : Core} (code : BitVec 16) (inst : BitVec 8) (h : Memory.wf c.cells = true) :
    Memory.wf (lastingAct c code inst).cells = true := by
  unfold lastingAct
  dsimp only
  repeat' split
  all_goals simp [h, cells_foldl]

@[simp] theorem classify_wf {c : Core} (code : BitVec 16) (inst : BitVec 8) (lasting : Bool) (st : ProbeSt)
    (h : Memory.wf c.cells = true) :
    Memory.wf (classify c code inst lasting st).cells = true := by
  simp [classify, h]

@[simp] theorem probeEnded_wf {c : Core} (code : BitVec 16) (inst : BitVec 8) (pass : Bool) (sec : Nat)
    (h : Memory.wf c.cells = true) : Memory.wf (probeEnded c code inst pass sec).1.cells = true := by
  unfold probeEnded
  split
  · simp [h]
  · split
    · simp [h]
    · split <;> simp [h]

@[simp] theorem alsoEnded_wf {c : Core} (pass lasting : Bool) (sec : Nat) (x : BitVec 16 × BitVec 8)
    (h : Memory.wf c.cells = true) :
    Memory.wf (alsoEnded pass lasting sec c x).cells = true := by
  simp [alsoEnded, h]
@[simp] theorem notRun_wf {c : Core} (x : BitVec 16 × BitVec 8) (h : Memory.wf c.cells = true) :
    Memory.wf (notRun c x).cells = true := by simp [notRun, h]

@[simp] theorem noProbeStep_wf {c : Core} (h : Memory.wf c.cells = true) : Memory.wf (noProbeStep c).cells = true := by
  refine wf_foldl (fun _ _ hc => ?_) _ ?_ <;> simp [*]

@[simp] theorem rotationFails_wf {c : Core} (item : Nat) (inst : BitVec 8) (h : Memory.wf c.cells = true) :
    Memory.wf (rotationFails c item inst).cells = true := by simp [rotationFails, h]
@[simp] theorem memoryError_wf {c : Core} (bank : BitVec 8) (h : Memory.wf c.cells = true) :
    Memory.wf (memoryError c bank).cells = true := by simp [memoryError, h]

/-! ### Grid -/

@[simp] theorem modeStep_wf {c : Core} (iPackAvg : Int) (h : Memory.wf c.cells = true) :
    Memory.wf (modeStep c iPackAvg).cells = true := by simp [modeStep, h]

/-! ### Lifecycle -/

@[simp] theorem pinReset_wf {c : Core} (h : Memory.wf c.cells = true) : Memory.wf (pinReset c).cells = true := by
  unfold pinReset
  split
  · exact resetEntry_wf .pin 1 0 h
  · exact h

@[simp] theorem offCore_wf {c : Core} (h : Memory.wf c.cells = true) : Memory.wf (offCore c).cells = true := nvmCut_wf c h

@[simp] theorem startBlocks_wf {c : Core} (h : Memory.wf c.cells = true) :
    Memory.wf (startBlocks c).cells = true := by simp [startBlocks, h]

@[simp] theorem watchdogExpire_wf {c : Core} (bit : Nat) (h : Memory.wf c.cells = true) :
    Memory.wf (watchdogExpire c bit).cells = true := resetEntry_wf .watchdog bit 0 h

@[simp] theorem keyRunning_wf {c : Core} (key : BitVec 16) (us : Nat) (h : Memory.wf c.cells = true) :
    Memory.wf (keyRunning c key us).cells = true := by
  unfold keyRunning
  split <;> simp [h]

@[simp] theorem dormantEnter_wf {c : Core} (h : Memory.wf c.cells = true) :
    Memory.wf (dormantEnter c).cells = true := by simp [dormantEnter, h]
@[simp] theorem wakeEnter_wf {c : Core} (iPack : Int) (vsys : Nat) (h : Memory.wf c.cells = true) :
    Memory.wf (wakeEnter c iPack vsys).cells = true := by simp [wakeEnter, h]

end Sys2Proof.Machine
end


section
/-! PROOFS. Every command leaves the cells of the NVM in canonical form (O48). -/

namespace Sys2Proof.Machine

/-- The next state of the answer, where there is one, lists its NVM bytes in canonical form. -/
def Lands (r : Res) : Prop := ∀ t, r = .next t → Memory.wf t.core.cells = true

@[simp] theorem afterReset_cells (c d : Core) : (afterReset c d).cells = d.cells := by
  unfold afterReset
  split <;> rfl

@[simp] theorem lands_next (t : State) : Lands (.next t) ↔ Memory.wf t.core.cells = true :=
  ⟨fun h => h t rfl, fun h _ ht => by cases ht; exact h⟩

@[simp ↓] theorem lands_ite (p : Prop) [Decidable p] (r r' : Res) : Lands (if p then r else r') ↔ (p → Lands r) ∧
    (¬ p → Lands r') := by
  split <;> simp [*]

section
variable {s : State} {f : Core → Core}

@[simp] theorem lands_onCore : Lands (onCore s f) ↔ Memory.wf (f s.core).cells = true := by
  simp [onCore]

@[simp] theorem lands_onCoreIf {p : Core → Bool} : Lands (onCoreIf s p f) ↔
    (p s.core = true → Memory.wf (f s.core).cells = true) ∧ (¬ p s.core = true → Memory.wf s.core.cells = true) := by
  simp [onCoreIf]

@[simp] theorem lands_onRun : Lands (onRun s f) ↔
    (inRun s.core = true → Memory.wf (f s.core).cells = true) ∧ (¬ inRun s.core = true → Memory.wf s.core.cells = true) :=
  lands_onCoreIf

end

section
variable {s : State} (h : Memory.wf s.core.cells = true)
include h

theorem lands_onTwin {f : Core → Core} (hf : Memory.wf (f s.core).cells = true) : Lands (onTwin s f) := by
  simp [onTwin, h, hf]

theorem lands_onGrid {e : GridEvent} {f : Core → Core}
    (hf : ∀ c, Memory.wf c.cells = true → Memory.wf (f c).cells = true) : Lands (onGrid s e f) := by
  unfold onGrid
  split
  · split
    · rename_i l now _
      have hc : Memory.wf (afterReset s.core (f { s.core with life := l })).cells = true := by
        simpa using hf { s.core with life := l } h
      rw [lands_next]
      dsimp only
      split
      · simpa using hc
      · exact hc
    · exact (lands_next s).2 h
  · exact (lands_next s).2 h

theorem lands_onResponse {p : Fin 4} {fr : Frame} {type : Byte} {len : Nat} {any : Bool} {act : Core → Nat → Core}
    (ha : ∀ c a, Memory.wf c.cells = true → Memory.wf (act c a).cells = true) : Lands (onResponse s p fr type len any act) := by
  simp only [onResponse, lands_onRun]
  refine ⟨fun _ => ?_, fun _ => h⟩
  split
  · exact h
  · split
    · exact missed_wf _ _ _ h
    · split
      · refine ha _ _ ?_
        simp [h]
      · simp [h]

@[simp] theorem lands_arrive (m : Master) (k : Nat) (v : BitVec 32) : Lands (arrive m k v s) := by
  simp [arrive, h]

@[simp] theorem lands_transact (f : WinFrame) : Lands (transact f s) := by
  rw [transact, lands_next]
  split <;> simp [h]

end

section
variable {s : State} (h : Memory.wf s.core.cells = true)
include h

@[simp] theorem execDecryptCommand_lands (v : BitVec 32) : Lands (execDecryptCommand v s) := by simp [execDecryptCommand, h]
@[simp] theorem execStagingBegin_lands (len : BitVec 32) : Lands (execStagingBegin len s) := by simp [execStagingBegin, h]
@[simp] theorem execStagingData_lands (addr : Nat) (data : List Byte) :
    Lands (execStagingData addr data s) := by simp [execStagingData, h]
@[simp] theorem execStagingEnd_lands : Lands (execStagingEnd s) := by simp [execStagingEnd, h]
@[simp] theorem execStagingAbort_lands : Lands (execStagingAbort s) := by simp [execStagingAbort, h]
@[simp] theorem execProvisioningOrder_lands (cmd : BitVec 32) (hashes : Vector (BitVec 256) 4) :
    Lands (execProvisioningOrder cmd hashes s) := by simp [execProvisioningOrder, h]
@[simp] theorem execAccsel_lands (v : BitVec 32) : Lands (execAccsel v s) := by simp [execAccsel, h]

end

/-! ### What each of a list of steps keeps -/

theorem inState_wf {c : Core} (st : Life) (fs : List (Core → Core))
    (h : ∀ f ∈ fs, ∀ d : Core, Memory.wf d.cells = true → Memory.wf (f d).cells = true)
    (hc : Memory.wf c.cells = true) : Memory.wf (inState st fs c).cells = true :=
  inState_induct (P := fun d => Memory.wf d.cells = true) st fs h hc

@[simp] theorem orderMerge_wf {c : Core} (h : Memory.wf c.cells = true) : Memory.wf (orderMerge c).cells = true := by
  refine runCommands_wf _ ?_
  simpa [cells_foldl] using h

/-! ### The merge tick -/

section
variable {s : State} (h : Memory.wf s.core.cells = true)
include h

theorem after_wf {r : Res} (hr : Lands r) : Memory.wf (after r s).core.cells = true := by
  cases r with
  | next t => exact hr t rfl
  | fault e => exact h
  | refused e => exact h

theorem stagingWord_wf (v : BitVec 32) (arg : Option (BitVec 32)) : Memory.wf (stagingWord s v arg).core.cells = true := by
  unfold stagingWord
  generalize v.toNat % 16 = n
  match n, arg with
  | 1, some len => exact after_wf h (execStagingBegin_lands h len)
  | 2, none => exact after_wf h (execStagingEnd_lands h)
  | 3, none => exact after_wf h (execStagingAbort_lands h)
  | 0, _ | 1, none | 2, some _ | 3, some _ | _ + 4, _ => exact h

theorem stagingChunk_wf (l : List (Nat × BitVec 32)) : Memory.wf (stagingChunk s l).core.cells = true := by
  unfold stagingChunk
  split
  · exact h
  · exact after_wf h (execStagingData_lands h _ _)

theorem provisionWrite_wf (l : List (Nat × BitVec 32)) : Memory.wf (provisionWrite s l).core.cells = true := by
  unfold provisionWrite
  split
  · split
    · exact after_wf h (execProvisioningOrder_lands h _ _)
    · exact h
  · exact h

theorem orderWord_wf (a : Nat) (v : BitVec 32) (arg : Option (BitVec 32)) :
    Memory.wf (orderWord s a v arg).core.cells = true := by
  unfold orderWord
  split
  · exact h
  · split
    · exact h
    · exact after_wf h (execAccsel_lands h _)
    · exact after_wf h (execDecryptCommand_lands h _)
    · exact stagingWord_wf h v arg
    · exact h

omit h in
theorem orderWords_wf (l : List (Nat × BitVec 32)) : ∀ s : State, Memory.wf s.core.cells = true →
    Memory.wf (orderWords s l).core.cells = true := by
  induction l with
  | nil => exact fun _ h => h
  | cons x l ih => exact fun _ h => ih _ (orderWord_wf h _ _ _)

theorem takeWrite_wf : Memory.wf (takeWrite s).core.cells = true := by
  unfold takeWrite
  split
  · exact h
  · dsimp only
    split
    · rwa [cells_foldl fun _ _ => by simp]
    · refine provisionWrite_wf ?_ _
      have hwords := fun w => orderWords_wf (writeWords w) { s with win := { s.win with pend := none } } h
      split
      · split
        · exact stagingChunk_wf (hwords _) _
        · exact hwords _
      · exact hwords _

end

theorem runSteps_wf (pc : BitVec 32) (bad : BitVec 8) (before : Core) : ∀ f ∈ runSteps pc bad before, ∀ c : Core,
    Memory.wf c.cells = true → Memory.wf (f c).cells = true := by
  intro f hf c h
  simp only [runSteps, List.cons_append, List.nil_append, List.mem_cons, List.not_mem_nil, or_false] at hf
  rcases hf with rfl | rfl | rfl | rfl | rfl | rfl | rfl | rfl | rfl | rfl | rfl | rfl | rfl | rfl | rfl | rfl | rfl | rfl | rfl |
    rfl | rfl | rfl | rfl | rfl <;> simp [h]

theorem Ticked.wf {s t : State} {c : Core} (h : Ticked s c t) (hc : Memory.wf c.cells = true) :
    Memory.wf t.core.cells = true := by
  rcases h.core with h | h
  · rwa [h]
  · rwa [h, settle_cells]

theorem execMergeTick_lands (pc : BitVec 32) (tw : BitVec 4) (bad : BitVec 8) (s : State) (h : Memory.wf s.core.cells = true) :
    Lands (execMergeTick pc tw bad s) := by
  let u : State := { s with core := { s.core with pins := { s.core.pins with twShed := tw } } }
  rw [execMergeTick, lands_next]
  dsimp only
  rw [afterReset_cells]
  split
  · refine (tickRun_ticked pc bad u).wf (inState_wf _ _ (runSteps_wf pc bad _) (takeWrite_wf ?_))
    simpa [State.runTick, u] using h
  · refine (tickDormant_ticked pc u).wf (inState_wf _ _ (by simp +contextual) (takeWrite_wf ?_))
    simpa [State.dormantTick, u] using h
  · refine (tickSafeHold_ticked pc u).wf (inState_wf _ _ (by simp +contextual) (takeWrite_wf ?_))
    simpa [State.safeHoldTick, u] using h
  · exact h

/-! ### Start, Boot and Reset -/

section
variable {s : State} (h : Memory.wf s.core.cells = true)
include h

theorem execRunEntry_lands (b : BootRead) : Lands (execRunEntry b s) := by
  simp only [execRunEntry, lands_ite]
  refine ⟨fun _ => ?_, fun _ => (lands_next s).2 h⟩
  split
  · rw [lands_next, publish_cells]
    dsimp only
    rw [afterReset_cells]
    exact inState_wf _ _ (by simp +contextual [cells_foldl]) (by simp [h])
  · exact (lands_next s).2 h

theorem execSafeHoldEntry_lands (b : BootRead) : Lands (execSafeHoldEntry b s) := by
  simp only [execSafeHoldEntry, lands_ite]
  refine ⟨fun _ => ?_, fun _ => (lands_next s).2 h⟩
  split <;> simp [h]

end

@[simp] theorem leaveReset_cells (s : State) (c : Core) (high : Bool) : (leaveReset s c high).core.cells = c.cells := by
  unfold leaveReset
  split <;> rfl

@[simp] theorem newPort_cells (s : State) (c : Core) : (newPort s c).core.cells = c.cells := (rfl)

@[simp] theorem bootStart_cells (c : Core) (high : Bool) : (bootStart c high).cells = c.cells := (rfl)

/-! ### The commands -/

section
variable {s : State} (h : Memory.wf s.core.cells = true)
include h

theorem execConversionWindowEnd_lands (cells : List Nat) (stack : Nat) (d : BitVec 16) :
    Lands (execConversionWindowEnd cells stack d s) := by
  have hcells := cellsAlone_wf h
  simp only [execConversionWindowEnd, lands_onRun]
  refine ⟨fun _ => ?_, fun _ => h⟩
  simp only [cells_ite, cells_mk, nvm_cells_eq, balanceStep_cells, chooseDiag_cells, ite_self]
  refine overvoltage_wf ?_
  simp [hcells]

omit h in
/-- A judged test is declared. -/
theorem declared_wf {c : Core} (cel : CelG) (t : TestRes) (h : Memory.wf c.cells = true) :
    Memory.wf (declareTest { c with cel := cel } t).cells = true := declareTest_wf t h

theorem execDiagnosticWindowEnd_lands (cells : List Nat) (stack : Nat) : Lands (execDiagnosticWindowEnd cells stack s) := by
  simp only [execDiagnosticWindowEnd, lands_onRun]
  refine ⟨fun _ => ?_, fun _ => h⟩
  rw [cells_mk, nvm_cells_eq]
  split
  · split
    · exact twinPassed_wf _ (declared_wf _ _ h)
    · exact declared_wf _ _ h
  · exact wf_foldl (fun _ k hc => realCell_wf k hc) _ (declared_wf _ _ h)
  · split
    · exact declared_wf _ _ h
    · rw [classified_cells]
      exact declared_wf _ _ h
  · rw [classified_cells]
    exact declared_wf _ _ h
  · split
    · exact h
    · split
      · exact declared_wf _ _ h
      · split
        · exact declared_wf _ _ h
        · split
          · exact realCell_wf _ (declared_wf _ _ h)
          · exact declared_wf _ _ h

theorem execPrechargeEnd_lands (bootOk : BitVec 8) : Lands (execPrechargeEnd bootOk s) := by
  simp only [execPrechargeEnd, lands_onRun]
  refine ⟨fun _ => ?_, fun _ => h⟩
  split
  · exact h
  · simp only [cells_ite, calibrateNext_cells, ite_self]
    exact wf_foldl (fun _ n hc => phaseFault_wf _ n hc) _ h

theorem execLdi_lands (dest : BitVec 6) (imm : BitVec 16) : Lands (execLdi dest imm s) := by
  simp only [execLdi, lands_onRun]
  exact ⟨fun _ => inHead_wf _ h fun _ => by simp [h], fun _ => h⟩

theorem execLdc_lands (dest : BitVec 6) (idx : BitVec 12) : Lands (execLdc dest idx s) := by
  simp only [execLdc, lands_onRun]
  exact ⟨fun _ => inHead_wf _ h fun _ => by simp [h], fun _ => h⟩

theorem execBlt_lands (a b : BitVec 6) (skip : BitVec 8) : Lands (execBlt a b skip s) := by
  simp only [execBlt, lands_onRun]
  exact ⟨fun _ => inHead_wf _ h fun _ => by split <;> simp [h], fun _ => h⟩

theorem execOut_lands (a : BitVec 6) : Lands (execOut a s) := by
  simp only [execOut, lands_onRun]
  exact ⟨fun _ => inHead_wf _ h fun _ => by split <;> simp [h], fun _ => h⟩

theorem execProbeResult_lands (code : BitVec 16) (inst : BitVec 8) (pass : Bool) (sec : Nat) :
    Lands (execProbeResult code inst pass sec s) := by
  simp only [execProbeResult, lands_onCoreIf]
  exact ⟨fun _ => wf_foldl (fun _ x hc => alsoEnded_wf _ _ _ x hc) _ (by simp [h]), fun _ => h⟩

theorem execProbeTimeout_lands (code : BitVec 16) (inst : BitVec 8) : Lands (execProbeTimeout code inst s) := by
  simp only [execProbeTimeout, lands_onCoreIf]
  exact ⟨fun _ => wf_foldl (fun _ x hc => notRun_wf x hc) _ (by simp [h]), fun _ => h⟩

theorem execOrder_lands (p : Fin 4) (f : Frame) : Lands (execOrder p f s) :=
  lands_onResponse h fun c a hc => by
    dsimp only
    repeat' split
    all_goals simp [hc]

theorem execControl_lands (hdr : LinkHdr) (m : ControlMsg) : Lands (execControl hdr m s) := by
  refine lands_onTwin h ?_
  simp only [receive, cells_ite, wf_ite]
  refine ⟨fun _ => h, fun _ => ⟨fun _ => by simp [h], fun _ => ?_⟩⟩
  repeat' split
  all_goals simp [h]

theorem execControlEffective_lands : Lands (execControlEffective s) := by
  refine lands_onTwin h ?_
  dsimp only
  repeat' split
  all_goals simp [h]

theorem execHeartbeat_lands (crcOk agree : Bool) (m : HeartbeatMsg) : Lands (execHeartbeat crcOk agree m s) := by
  refine lands_onTwin h ?_
  dsimp only
  split
  · exact h
  · rw [cells_ite, wf_ite]
    refine ⟨fun _ => ?_, fun _ => by simp [h]⟩
    rw [shareStep_cells]
    refine echoCheck_wf m (pathCheck_wf m (mirrorCheck_wf _ _ ?_))
    simp [h]

end

section
variable {s : State} (h : Memory.wf s.core.cells = true)
include h

/-! #### Loop -/

@[simp] theorem execIllegalInstruction_lands : Lands (execIllegalInstruction s) := by
  simp only [execIllegalInstruction, lands_onRun]
  repeat' split
  all_goals simp [h]

@[simp] theorem execLoopOverrun_lands (d : Fin 8) (cycles : Nat) : Lands (execLoopOverrun d cycles s) := by
  simp only [execLoopOverrun, lands_onRun]
  repeat' split
  all_goals simp [h]

/-! #### Path -/

@[simp] theorem execFastInputOvervoltageTrip_lands : Lands (execFastInputOvervoltageTrip s) := by
  simp only [execFastInputOvervoltageTrip, lands_onRun]
  repeat' split
  all_goals simp [h]

@[simp] theorem execPairConfirmedOff_lands : Lands (execPairConfirmedOff s) := by
  simp only [execPairConfirmedOff, lands_onCore]
  repeat' split
  all_goals simp [h]

@[simp] theorem execVcinDrainEnd_lands : Lands (execVcinDrainEnd s) := by
  simp only [execVcinDrainEnd, lands_onRun]
  repeat' split
  all_goals simp [h]

@[simp] theorem execPairConfirmedOn_lands : Lands (execPairConfirmedOn s) := by
  simp only [execPairConfirmedOn, lands_onRun]
  repeat' split
  all_goals simp [h]

@[simp] theorem execTransferComplete_lands : Lands (execTransferComplete s) := by
  simp only [execTransferComplete, lands_onRun]
  repeat' split
  all_goals simp [h]

@[simp] theorem execTransferBoundExpiry_lands : Lands (execTransferBoundExpiry s) := by
  simp only [execTransferBoundExpiry, lands_onRun]
  repeat' split
  all_goals simp [h]

@[simp] theorem execPairNotConfirmedOff_lands : Lands (execPairNotConfirmedOff s) := by
  simp only [execPairNotConfirmedOff, lands_onRun]
  repeat' split
  all_goals simp [h]

@[simp] theorem execReverseCurrentTrip_lands : Lands (execReverseCurrentTrip s) := by
  simp only [execReverseCurrentTrip, lands_onRun]
  repeat' split
  all_goals simp [h]

@[simp] theorem execExportVcinReached_lands : Lands (execExportVcinReached s) := by
  simp only [execExportVcinReached, lands_onRun]
  repeat' split
  all_goals simp [h]

/-! #### LoadSwitch -/

@[simp] theorem execChannelStartStagger_lands : Lands (execChannelStartStagger s) := by
  simp only [execChannelStartStagger, lands_onRun]
  repeat' split
  all_goals simp [h]

@[simp] theorem execOffStateTest_lands (ch : Fin 8) (outMv : Nat) : Lands (execOffStateTest ch outMv s) := by
  simp only [execOffStateTest, lands_onCoreIf]
  repeat' split
  all_goals simp [h]

/-! #### Pd -/

@[simp] theorem execPdAccept_lands (port : PdId) : Lands (execPdAccept port s) := by
  simp only [execPdAccept, onPd, lands_onCoreIf]
  repeat' split
  all_goals simp [h]

@[simp] theorem execPsRdy_lands (port : PdId) : Lands (execPsRdy port s) := by
  simp only [execPsRdy, onPd, lands_onCoreIf]
  repeat' split
  all_goals simp [h]

@[simp] theorem execExportPairConfirmedOn_lands : Lands (execExportPairConfirmedOn s) := by
  simp only [execExportPairConfirmedOn, lands_onRun]
  repeat' split
  all_goals simp [h]

@[simp] theorem execExportPairNotConfirmedOn_lands : Lands (execExportPairNotConfirmedOn s) := by
  simp only [execExportPairNotConfirmedOn, lands_onRun]
  repeat' split
  all_goals simp [h]

@[simp] theorem execPdRequest_lands (port : PdId) (pos maxI10 : Nat) : Lands (execPdRequest port pos maxI10 s) := by
  simp only [execPdRequest, onPd, lands_onCoreIf]
  repeat' split
  all_goals simp [h]

@[simp] theorem execVbusTransitionComplete_lands (port : PdId) : Lands (execVbusTransitionComplete port s) := by
  simp only [execVbusTransitionComplete, lands_onCoreIf]
  repeat' split
  all_goals simp [h]

/-! #### Vault -/

@[simp] theorem execVaultAudit_lands (badCopies : List Nat) (copyLost : Bool) :
    Lands (execVaultAudit badCopies copyLost s) := lands_onGrid h fun c hc => by simp [hc]

@[simp] theorem execRequestWaitLimit_lands (acct : Nat) (col : Column) : Lands (execRequestWaitLimit acct col s) := by
  simp only [execRequestWaitLimit, lands_onRun]
  repeat' split
  all_goals simp [h]

/-! #### Plinth -/

@[simp] theorem execPlinthCycleStart_lands : Lands (execPlinthCycleStart s) := lands_onGrid h fun c hc => by simp [hc]
@[simp] theorem execRequest_lands (p : Fin 4) (f : Frame) :
    Lands (execRequest p f s) := lands_onResponse h fun c a hc => by simp [hc]
@[simp] theorem execReturnReq_lands (p : Fin 4) (f : Frame) :
    Lands (execReturnReq p f s) := lands_onResponse h fun c a hc => by simp [hc]
@[simp] theorem execBurstReq_lands (p : Fin 4) (f : Frame) :
    Lands (execBurstReq p f s) := lands_onResponse h fun c a hc => by simp [hc]
@[simp] theorem execRelease_lands (p : Fin 4) (f : Frame) :
    Lands (execRelease p f s) := lands_onResponse h fun c a hc => by simp [hc]

@[simp] theorem execEnrol_lands (p : Fin 4) (f : Frame) : Lands (execEnrol p f s) := by
  unfold execEnrol
  exact lands_onResponse h fun c a hc => by simp [hc]

@[simp] theorem execStatus_lands (p : Fin 4) (f : Frame) :
    Lands (execStatus p f s) := lands_onResponse h fun c a hc => by simp [hc]

/-! #### Records -/

@[simp] theorem execLogScanEnd_lands : Lands (execLogScanEnd s) := by
  simp only [execLogScanEnd, lands_onCoreIf]
  repeat' split
  all_goals simp [h]

@[simp] theorem execNvmOperationComplete_lands (ok : Bool) : Lands (execNvmOperationComplete ok s) := by
  simp only [execNvmOperationComplete, lands_onCoreIf]
  repeat' split
  all_goals simp [h]

/-! #### Thermal -/

@[simp] theorem execSensorSample_lands (i : Fin 11) (r : SensorReading) : Lands (execSensorSample i r s) := by
  simp only [execSensorSample, lands_onCoreIf]
  repeat' split
  all_goals simp [h]

/-! #### Faults -/

@[simp] theorem execRotationItem_lands (item : Fin 10) (inst : BitVec 8) (pass : Bool) (scrub : Option (BitVec 8)) :
    Lands (execRotationItem item inst pass scrub s) := by
  simp only [execRotationItem, lands_onCoreIf]
  repeat' split
  all_goals simp [h]

@[simp] theorem execRecordCoalesceExpiry_lands (code : BitVec 16) (inst : BitVec 8) :
    Lands (execRecordCoalesceExpiry code inst s) := by
  simp only [execRecordCoalesceExpiry, lands_onCore]
  repeat' split
  all_goals simp [h]

/-! #### Window -/

@[simp] theorem execNewmapAcknowledge_lands (mask : BitVec 64) : Lands (execNewmapAcknowledge mask s) := by
  simp only [execNewmapAcknowledge, lands_next]
  repeat' split
  all_goals simp [h]

/-! #### Grid -/

@[simp] theorem execModeDecision_lands (iPackAvg : Int) :
    Lands (execModeDecision iPackAvg s) := lands_onGrid h fun c hc => by simp [hc]
@[simp] theorem execLedgerClose_lands (memoryOk : Bool) :
    Lands (execLedgerClose memoryOk s) := lands_onGrid h fun c hc => by simp [hc]

end

/-- Every command keeps the bytes canonical.  Those not named are compositions of functions that do. -/
theorem exec_lands (i : Instr) {s : State} (h : Memory.wf s.core.cells = true) : Lands (exec i s) := by
  cases i with
  | runEntry b => exact execRunEntry_lands h b
  | safeHoldEntry b => exact execSafeHoldEntry_lands h b
  | mergeTick pc tw bad => exact execMergeTick_lands pc tw bad s h
  | order p f => exact execOrder_lands h p f
  | conversionWindowEnd cells stack switchDiffers => exact execConversionWindowEnd_lands h cells stack switchDiffers
  | diagnosticWindowEnd cells stack => exact execDiagnosticWindowEnd_lands h cells stack
  | prechargeEnd bootOk => exact execPrechargeEnd_lands h bootOk
  | ldi dest imm => exact execLdi_lands h dest imm
  | ldc dest idx => exact execLdc_lands h dest idx
  | blt a b skip => exact execBlt_lands h a b skip
  | out a => exact execOut_lands h a
  | probeResult code inst pass klnSec => exact execProbeResult_lands h code inst pass klnSec
  | probeTimeout code inst => exact execProbeTimeout_lands h code inst
  | heartbeat crcOk agree m => exact execHeartbeat_lands h crcOk agree m
  | control hdr m => exact execControl_lands h hdr m
  | controlEffective => exact execControlEffective_lands h
  | _ =>
    dsimp only [exec]
    simp [execStartSourceQualifies, execVauxLoss, execRstNAsserted, execResetRelease, execMoscLoss, execKlnLoss,
      execPwmPllLossOfLock, execSystemPllLossOfLock, execLockstepMismatch, execWatchdogKeyWrite, execWatchdogPeriodBoundary,
      execWatchdogBootTimeout, execWatchdogWake, execDormantEntry, execDormantWake, execDormantBackstop,
      execBackstopWakeTimeout, execWakePllLock, execPllLockTimeout, execDormantReentry, execOtpBurnComplete,
      execPollSlotStart, execResponseMiss, execCollisionReinvite, execRestrictedRecallRepeat, execShedMinimumExpiry,
      execShedLineReadbackMismatch, execShedLineUncommanded, execLeaseEnd, execLoweringTimeout, execGrantUndeliveredTimeout,
      execDeficitCarryExpiry, execDischargeOverrun, execBurstWindowEnd, execBurstPauseEnd, execThrottleGraceEnd,
      execEnforcementOverdraw, execEnforcementRelease, execInputPriorityOrder, execSysFloorOrder,
      execMainInputCurrentLimitOrder, execChargeCurrentCeilingOrder, execChargeVoltageCeilingOrder, execChargeInhibitOrder,
      execLoadSwitchOrder, execPdSourceEnableOrder, execTokenPoolCapOrder, execShedOrder, execDormantInhibitOrder,
      execMainExportOrder, execResetOrder, execResetOrderExecute, execRestartOrder, execDormantRequestOrder,
      execRoleHandoverOrder, execPlannedDetachOrder, execReattachOrder, execOwnerHandoverOrder, execClearSupervisorOrders,
      execSnapshotRead, execIdentity, execOrderWrite, execW1cAcknowledgeWrite, execDecryptComplete, execMainQualified,
      execMainDisqualified, execPdInputQualified, execPdInputDisqualified, execRequalificationDelayEnd,
      execBatfetLinearEntry, execBatfetFullyOn, execSysCollapse, execCollapseRecovery, execBatfetUndervoltageOpening,
      execBatfetNotOff, execBatfetDropFault, execLinearDissipationFault, execVcpUndervoltage, execExportFloorTimeout,
      execSafeHoldMainQualified, execSafeHoldMainLost, execSafeHoldBatfetTrip, execTwPresNChange, execChargeEvaluation,
      execChargeTimerExpiry, execRestPatternEdge, execHeaterTimeLimit, execPackCurrentAboveShare, execOcvCorrection,
      execSwitchingPeriodStart, execBootstrapRefresh, execPhaseOvercurrent, execStageOvercurrent, execChiselOffStep2,
      execChiselOffComplete, execReadBackWindowEnd, execCalibrationRunEnd, execMov, execAdd, execSub, execMul, execMin,
      execMax, execAsr, execLedgerSample, execMissingSample, execCheckpointDue, execProbeStart, execHoldOffExpiry,
      execRotationPeriodEnd, execCcAttach, execCcDetach, execDrpToggle, execSourceCapabilities, execEprKeepalive,
      execSourceTransitionDelayEnd, execHardReset, execVbusDischargeComplete, execErrorRecoveryEnd, execSourceRecoveryEnd,
      execSinktxngWaitEnd, execVconnSwap, execPrSwap, execDrSwap, execFrSwap, execGetSinkCap, execGetSourceCap,
      execDiscoverIdentity, execDiscoverSvids, execDiscoverModes, execEnterMode, execExitMode, execUnstructuredVdm,
      execBist, execCableIdentityReply, execCableDiscoveryTimeout, execMoistureMeasurement, execCorrosionTime,
      execVbusOvervoltage, execCcSbuOvervoltage, execCcSbuOvervoltageRecovery, execVconnTrip, execBmcReadbackMismatch,
      execCurrentLimitTimeout, execShortCircuitTrip, execThermalTrip, execRetryDelayEnd, execTripFreeTime,
      execLswinUndervoltage, execLswinRecovery, execOnStateOpenLoad, execMissingFreeWheelPath, execMinimumOffTimeEnd,
      execKilnGuardTrip, execKilnGuardRelease, execHeartbeatLoss, execLinkTrained, execIdent, execIdentRepeat, execCells,
      execLedger, execPooldata, execMirror, execPolicy, execOrders, execNak, execFencingDelayEnd, execFencingGapSample,
      execContestSlot, execTwTripNAsserted, execTripReadbackMismatch, execAttachTimeout, execPromotionComplete,
      execShareRampEnd, execShareError, execTwRefclkLoss, execEpochFuseProgrammed, execEraseCreditAccrual,
      execPatinaRecordDue, execRstNReleased, execMoscRestored, execShedLineUncommandedCleared, execChannelCooled,
      execVauxSourceChange, execTwTripNReleased, onPd, onTwin, receive, cells_foldl, h]

theorem step_wf {s t : State} (h : step s = .next t) (hs : s.nvmOk = true) : t.nvmOk = true := by
  rcases step_next_cases h with ⟨-, rfl⟩ | ⟨i, r, -, he⟩
  · exact hs
  · exact exec_lands i (s := { s with pending := r }) hs t he

end Sys2Proof.Machine

open Sys2Proof Sys2Proof.Machine

/-- Settles O48: every command lands in a state whose NVM bytes are canonical (`exec_lands`). -/
theorem nvmStaysCanonical : Obligations.NvmStaysCanonical := fun _ _ hs h => step_wf h hs
end

section
/-! PROOFS. The log and the NVM at work (chapters 03 and 20): what the NVM's next operation leaves as it is, what a completed
and a failed operation change, and what a fault leaves of the owner handover. -/

namespace Sys2Proof.Machine

/-! ### What the NVM's next operation leaves -/

/-- What the beginning of an NVM operation leaves: where the log stands, the contents of the NVM, and the faults. -/
structure LogPart where
  scan : Bool
  head : Option Nat
  start : Nat
  num : Nat
  cells : List Host.Cell
  sectors : List (Nat × LogSector)
  flt : FltG

def Core.logPart (c : Core) : LogPart :=
  ⟨c.own.scan, c.own.head, c.own.start, c.own.num, c.nvm.cells, c.nvm.sectors, c.flt⟩

section
variable (c : Core)

theorem logBegin_logPart (n : Nat) : ∀ c : Core, (logBegin n c).logPart = c.logPart := by
  induction n with
  | zero => exact fun _ => rfl
  | succ n ih =>
    intro c
    unfold logBegin
    split
    · rfl
    · exact ih (dropRecord c)
    · unfold freshRecord
      split <;> rfl
    · rfl

theorem nvmKick_logPart : (nvmKick c).logPart = c.logPart := by
  unfold nvmKick
  split
  · rfl
  · dsimp only
    generalize hd : (if inRun c = true then logBegin (c.own.q.length + 1) c else c) = d
    have hpart : d.logPart = c.logPart := by
      rw [← hd]
      split
      · exact logBegin_logPart _ c
      · rfl
    repeat' split
    all_goals exact hpart

theorem handoverFuse_logPart : (handoverFuse c).logPart = c.logPart := by
  unfold handoverFuse
  dsimp only
  split <;> rfl

theorem recordDone_logPart (r : QRec) : (recordDone c r).logPart = c.logPart := by
  unfold recordDone
  split
  · dsimp only
    split <;> rfl
  · rfl
  · rfl

end

/-- The faults stand as they were. -/
theorem latched_of_logPart {c d : Core} {code : BitVec 16} {inst : BitVec 8} (h : d.logPart = c.logPart)
    (hl : latched c code inst) : latched d code inst := by
  have hflt : d.flt = c.flt := congrArg LogPart.flt h
  unfold latched faultActive at hl ⊢
  rwa [hflt]

/-! ### The log scan (R518, R522, R523) -/

/-- The core once the scan has found its head sector, or none. -/
def scanEnded (c : Core) (head : Option Nat) : Core :=
  match head with
  | some h => scanFound c h
  | none => scanFresh c

/-- A good header is looked for in the log region alone. -/
def scanHead (c : Core) : Option Nat := headOf (c.nvm.sectors.filter fun x => decide (x.1 < logSectors c))

theorem scanEnded_kept (c : Core) (head : Option Nat) : (scanEnded c head).kept = c.kept := by
  cases head <;> rfl

/-- The scan ends with its head, and the records of this start are numbered from 0 (R518, R523). -/
theorem scanEnded_logPart (c : Core) (head : Option Nat) : (scanEnded c head).logPart =
    { c.logPart with scan := false, head := head, start := (scanEnded c head).own.start, num := 0 } := by
  cases head <;> rfl

theorem exec_logScanEnd {s : State} (hrun : s.core.life.st = .run) (hscan : s.core.own.scan = true) :
    exec .logScanEnd s = .next { s with core := nvmKick (scanRef (scanEnded s.core (scanHead s.core))) } := by
  show execLogScanEnd s = _
  unfold execLogScanEnd
  refine onCoreIf_of_kept (by simp [inRun, hrun, hscan]) rfl ?_
  rw [nvmKick_kept, scanRef_kept, scanEnded_kept]

/-- The start count of a scan that found its head lies beyond the head's own (R518). -/
theorem scanFound_start (c : Core) (h : Nat) : (sectorOf c h).start < (scanFound c h).own.start :=
  Nat.lt_succ_of_le (Nat.le_max_left _ _)

/-! ### The end of an NVM operation (R94, R517, Table 20-7) -/

/-- What follows an operation that ended: the fuse where it is due, the next operation, and the attention of an NVM that is
free (R85, R94, Table 19-6). -/
def operationEnded (c : Core) : Core :=
  let c := nvmKick (handoverFuse c)
  if stagingReady c then attend c 3 else c

theorem operationEnded_logPart (c : Core) : (operationEnded c).logPart = c.logPart := by
  unfold operationEnded
  dsimp only
  split
  · exact (nvmKick_logPart _).trans (handoverFuse_logPart c)
  · exact (nvmKick_logPart _).trans (handoverFuse_logPart c)

theorem operationEnded_kept (c : Core) : (operationEnded c).kept = c.kept := by
  unfold operationEnded
  dsimp only
  split
  · exact (nvmKick_kept _).trans (handoverFuse_kept c)
  · exact (nvmKick_kept _).trans (handoverFuse_kept c)

/-- The NVM with its operation taken off. -/
def Core.opTaken (c : Core) : Core := { c with nvm := { c.nvm with op := none } }

section
variable {s : State} {o : NvmOp}

theorem clocked_eq_true {c : Core} (h : nvmClocked c) : (c.life.st != .dormant || c.life.entering) = true := by
  simpa [nvmClocked] using h

/-- A command whose function, where its condition holds, gives the state's own core. -/
theorem onCoreIf_self {p : Core → Bool} {f : Core → Core} (h : p s.core = true → f s.core = s.core) :
    onCoreIf s p f = .next s := by
  cases hp : p s.core with
  | false => exact onCoreIf_neg s p f hp
  | true => exact onCoreIf_of_kept hp (h hp) rfl

theorem exec_nvmOperationComplete_done (hc : nvmClocked s.core) (ho : s.core.nvm.op = some o) :
    exec (.nvmOperationComplete true) s = .next { s with core := operationEnded (nvmDone s.core.opTaken o) } := by
  show execNvmOperationComplete _ s = _
  unfold execNvmOperationComplete
  refine onCoreIf_of_kept (clocked_eq_true hc) (by simp only [ho]; rfl) ?_
  rw [operationEnded_kept, nvmDone_kept]
  rfl

theorem exec_nvmOperationComplete_failed (hc : nvmClocked s.core) (ho : s.core.nvm.op = some o)
    (hk : (nvmFailed s.core.opTaken o).kept = s.core.kept) :
    exec (.nvmOperationComplete false) s = .next { s with core := operationEnded (nvmFailed s.core.opTaken o) } := by
  show execNvmOperationComplete _ s = _
  unfold execNvmOperationComplete
  refine onCoreIf_of_kept (clocked_eq_true hc) (by simp only [ho]; rfl) ?_
  rw [operationEnded_kept, hk]

theorem exec_nvmOperationComplete_idle (ho : s.core.nvm.op = none) (ok : Bool) :
    exec (.nvmOperationComplete ok) s = .next s := by
  show execNvmOperationComplete ok s = _
  unfold execNvmOperationComplete
  exact onCoreIf_self fun _ => by simp only [ho]

theorem exec_nvmOperationComplete_unclocked (hst : s.core.life.st = .dormant) (he : s.core.life.entering = false) (ok : Bool) :
    exec (.nvmOperationComplete ok) s = .next s := by
  show execNvmOperationComplete ok s = _
  unfold execNvmOperationComplete
  exact onCoreIf_neg s _ _ (by simp [hst, he])

end

/-- Bytes of a failed staging operation, in no stated condition (Table 20-7). -/
def bytesTorn (c : Core) (a n : Nat) : Core :=
  { c with
    free := c.free + 1
    nvm := { c.nvm with cells := nvmProgram c.nvm.cells a ((List.range n).map (Config.tornByte c.free)) } }

theorem bytesTorn_leaves (c : Core) (a n : Nat) : (bytesTorn c a n).mq = c.mq ∧ (bytesTorn c a n).kept = c.kept :=
  ⟨rfl, rfl⟩

/-- A failed operation latches 0x1A01 and leaves what is kept (Table 20-7). -/
theorem nvmFailed_stands {c : Core} (o : NvmOp) (hn : noResetRaised c) :
    (nvmFailed c o).kept = c.kept ∧ latched (nvmFailed c o) 0x1A01 0 := by
  have hfault : ∀ d : Core, d.mq = c.mq → d.kept = c.kept →
      (fault d 0x1A01 0).kept = c.kept ∧ latched (fault d 0x1A01 0) 0x1A01 0 := fun d hmq hk => by
    have hnd : noResetRaised d := by
      unfold noResetRaised Core.maq at hn ⊢
      rwa [hmq]
    obtain ⟨hkept, hlatched, -⟩ := fault_stands (code := 0x1A01) 0 hnd (by decide)
    exact ⟨hkept.trans hk, hlatched⟩
  cases o with
  | erase a =>
    have hfail : nvmFailed c (.erase a) = fault (bytesTorn c a 4096) 0x1A01 0 := by simp only [nvmFailed, bytesTorn]
    rw [hfail]
    exact hfault (bytesTorn c a 4096) (bytesTorn_leaves c a _).1 (bytesTorn_leaves c a _).2
  | program a d => exact hfault (bytesTorn c a d.length) rfl rfl
  | openSector i => exact hfault (updSector (countErase c) i fun y => { y with bad := true, good := false }) rfl rfl
  | logRecord =>
    cases hh : c.own.head with
    | none => simpa only [nvmFailed, hh] using hfault c rfl rfl
    | some h => simpa only [nvmFailed, hh] using hfault (updSector c h fun y => { y with bad := true }) rfl rfl

/-! ### A record written (R517, Table 20-3) -/

/-- The record that the oldest queued one becomes in sector `x`. -/
def Core.written (c : Core) (x : LogSector) (r : QRec) : LogRec :=
  { type := r.type, start := c.own.start, num := c.own.num, epoch := c.otp.epoch, key := r.type.key
    body := r.body, off := x.free, cp := r.cp, pat := r.pat, info := r.info }

/-- The sector with that record at its end. -/
def Core.grown (c : Core) (r : QRec) (y : LogSector) (x : LogSector) : LogSector :=
  { x with recs := x.recs ++ [c.written y r], free := x.free + r.type.size }

theorem recordWritten_logPart {c : Core} {h : Nat} {r : QRec} {q : List QRec} (hh : c.own.head = some h)
    (hq : c.own.q = r :: q) : (recordWritten c).logPart = { c.logPart with
      num := c.own.num + 1, sectors := kupd {} h (c.grown r (sectorOf c h)) c.nvm.sectors } := by
  unfold recordWritten
  simp only [hh, hq]
  rw [recordDone_logPart]
  rfl

theorem written_sectors (c d : Core) {h : Nat} {f : LogSector → LogSector} (hd : d.nvm.sectors = kupd {} h f c.nvm.sectors) :
    sectorOf d h = f (sectorOf c h) ∧ ∀ j, j ≠ h → sectorOf d j = sectorOf c j := by
  simp only [sectorOf, hd]
  exact ⟨kget_kupd_self _ _ _ _, fun j hj => kget_kupd_ne _ _ _ _ _ hj⟩

/-! ### The epoch fuse (Table 20-6 step 4, Table 20-7) -/

/-- What a fault leaves of an owner handover: its step, whether owner records are disabled, and the fuses. -/
def Core.handover (c : Core) : Nat × Bool × OtpG := (c.own.step, c.own.disabled, c.otp)

theorem queueRec_handover (c : Core) (r : QRec) : (queueRec c r).handover = c.handover := by
  unfold queueRec
  dsimp only
  generalize (if c.nvm.op == some .logRecord then c.own.q.take 1 else []) = busy
  repeat' split
  all_goals rfl

theorem latchRecord_handover (c : Core) (code : BitVec 16) (inst : BitVec 8) :
    (latchRecord c code inst).handover = c.handover := by
  have hfree : ∀ i, (queueFree c .fault i).handover = c.handover := fun _ => queueRec_handover _ _
  unfold latchRecord
  split
  · rfl
  · dsimp only
    split <;> exact hfree _

theorem exportEnd_handover (c : Core) (hr : Bool) : (exportEnd c hr).handover = c.handover := by
  obtain ⟨b, path, gdr, pd, plb, vlt, he, -⟩ := exportEnd_eq c hr
  rw [he]
  rfl

theorem classAction_handover (c : Core) (cls : FCls) (cause ph : Nat) (code : BitVec 16) (h : cls ≠ .d) :
    (classAction c cls cause ph code).handover = c.handover := by
  cases cls with
  | d => exact absurd rfl h
  | b => rfl
  | c => rfl
  | a =>
    have hexport := exportEnd_handover (noteChisel c.gdr (chiselAll c cause ph) code) true
    rw [noteChisel_eq] at hexport
    rw [classAction, noteChisel_eq]
    exact hexport

theorem faultWith_handover (c : Core) (code : BitVec 16) (inst : BitVec 8) (row : FCls) (p : ProbeSt) (probe : Bool)
    (cause ph : Nat) (h : classInForce c code row ≠ .d) :
    (faultWith c code inst row p probe cause ph).handover = c.handover := by
  have hlatch : (latchRecord (latchPut c code inst (classInForce c code row) p) code inst).handover = c.handover := by
    rw [latchRecord_handover, latchPut_eq]
    rfl
  have hprobe : ∀ d : Core, (if probe = true then queueProbe d code inst else d).handover = d.handover := fun d => by
    split
    · rw [queueProbe_eq]
      rfl
    · rfl
  have hraised : ∀ (d : Core) (k : FCls), (raisedC d code row k).handover = d.handover := fun d k => by
    unfold raisedC
    split <;> rfl
  have hexport : ∀ d : Core, (exportFault d code).handover = d.handover := fun d => by
    unfold exportFault
    split
    · exact exportEnd_handover d true
    · rfl
  have hinst : ∀ b d : Core, (noteInst b d inst).handover = d.handover := fun b d => by
    unfold noteInst
    split <;> rfl
  unfold faultWith
  dsimp only
  rw [hinst, hexport, hraised, classAction_handover _ _ _ _ _ h, hprobe, hlatch]

theorem fault_handover {c : Core} {code : BitVec 16} (inst : BitVec 8) (hn : noResetRaised c)
    (hrow : (rowClass code).getD .b ≠ .d) : (fault c code inst).handover = c.handover :=
  faultWith_handover _ _ _ _ _ _ _ _ (classInForce_ne_d code hn hrow)

/-- An epoch fuse that is not confirmed: owner records are disabled, and only a Follow goes on to close with its Lead (R530,
Table 20-7). -/
def Core.fuseUnconfirmed (c : Core) : Core :=
  { c with own := { c.own with
    disabled := true, step := if c.twn.role == .follow then 6 else 0
    q := c.own.q.map fun r => { r with nextEpoch := false } } }

section
variable {s : State} (hstep : s.core.own.step = 4)
include hstep

theorem exec_epochFuseProgrammed_confirmed : exec (.epochFuseProgrammed true) s = .next { s with core := { s.core with
    otp := if s.core.otp.epoch = 2047 then { s.core.otp with retired := true }
      else { s.core.otp with epoch := s.core.otp.epoch + 1 }
    own := { s.core.own with step := 5 } } } := by
  show execEpochFuseProgrammed true s = _
  unfold execEpochFuseProgrammed
  exact onCoreIf_of_kept (by simp [hstep]) (if_pos rfl) rfl

/-- A fuse that is not confirmed latches 0x1A03 beside what it does to the handover (Table 20-7 row 3). -/
theorem exec_epochFuseProgrammed_unconfirmed (hn : noResetRaised s.core) :
    ∃ t, exec (.epochFuseProgrammed false) s = .next t ∧ t.core.handover = s.core.fuseUnconfirmed.handover ∧
      latched t.core 0x1A03 0 := by
  have hnd : noResetRaised s.core.fuseUnconfirmed := hn
  obtain ⟨hkept, hlatched, -⟩ := fault_stands (code := 0x1A03) 0 hnd (by decide)
  refine ⟨{ s with core := fault s.core.fuseUnconfirmed 0x1A03 0 }, ?_, fault_handover (code := 0x1A03) 0 hnd (by decide),
    hlatched⟩
  show execEpochFuseProgrammed false s = _
  unfold execEpochFuseProgrammed
  exact onCoreIf_of_kept (by simp [hstep]) (by simp only [Bool.false_eq_true, if_false, Core.fuseUnconfirmed]) hkept

end

/-! ### The erase credit and the hourly records (R521, R527) -/

theorem exec_eraseCreditAccrual {s : State} (h : s.core.life.st = .run ∨ s.core.life.st = .dormant) :
    exec .eraseCreditAccrual s = .next { s with core := { s.core with
      own := { s.core.own with credit := min 24 (s.core.own.credit + 1) } } } := by
  show execEraseCreditAccrual s = _
  unfold execEraseCreditAccrual
  exact onCoreIf_of_kept (by simpa [inRun] using h) rfl rfl

/-- What is being written and what waits behind it are the whole queue. -/
theorem busy_append_rest (b : Bool) (q : List QRec) :
    (if b then q.take 1 else []) ++ q.drop (if b then q.take 1 else []).length = q := by
  cases b with
  | false => rfl
  | true => cases q <;> rfl

/-- A record that replaces none stands at the end of the queue, or the queue is as it was (R521). -/
theorem queueRec_q (c : Core) (r : QRec) (hp : r.periodic = false) :
    (queueRec c r).own.q = c.own.q ∨ (queueRec c r).own.q = c.own.q ++ [r] := by
  unfold queueRec
  simp only [hp, Bool.false_eq_true, if_false, busy_append_rest]
  repeat' split
  all_goals simp

/-- The same: the queue goes on from what it was. -/
theorem queueRec_prefix (c : Core) (r : QRec) (hp : r.periodic = false) : c.own.q <+: (queueRec c r).own.q := by
  rcases queueRec_q c r hp with h | h
  · exact h ▸ List.prefix_rfl
  · exact h ▸ List.prefix_append _ _

/-- A mandatory record that no owner key seals is queued where there is room, outside Safe Hold and without a key block
fault (R521). -/
theorem queueRec_appends {c : Core} {r : QRec} (hp : r.periodic = false) (hsafe : inSafeHold c = false)
    (hm : r.type.mandatory = true) (hkey : r.type.key ≠ 1) (hfault : c.own.keyFault = false)
    (hroom : queueUse c.own.q + r.type.size ≤ 16384) : (queueRec c r).own.q = c.own.q ++ [r] := by
  have hkey' : (r.type.key == 1) = false := beq_eq_false_iff_ne.2 hkey
  unfold queueRec
  simp only [hp, hsafe, hm, hkey', hfault, Bool.true_or, Bool.not_true, Bool.false_and, Bool.false_eq_true, if_false,
    busy_append_rest, if_neg (Nat.not_lt.2 hroom)]

theorem queuePatina_eq (c : Core) : queuePatina c = { c with own := (queuePatina c).own, free := c.free + 1 } := by
  unfold queuePatina
  exact queueRec_eq _ _

theorem queuePatina_prefix (c : Core) : c.own.q <+: (queuePatina c).own.q :=
  queueRec_prefix { c with free := c.free + 1 } _ rfl

theorem queueFree_prefix (c : Core) (t : RecType) (i : RecInfo) : c.own.q <+: (queueFree c t i).own.q :=
  queueRec_prefix { c with free := c.free + 1 } _ rfl

theorem queueRec_appends_patina {c : Core} {r : QRec} (hr : r.type = .patina) (hp : r.periodic = false)
    (hrun : c.life.st = .run) (hfault : c.own.keyFault = false) (hroom : queueUse c.own.q + 96 ≤ 16384) :
    (queueRec c r).own.q = c.own.q ++ [r] :=
  queueRec_appends hp (by simp [inSafeHold, hrun]) (by rw [hr]; rfl) (by rw [hr]; decide) hfault (by rw [hr]; exact hroom)

/-- In Run a Patina record finds its place where the queue has room for it (R521, R527). -/
theorem queuePatina_appends {c : Core} (hrun : c.life.st = .run) (hfault : c.own.keyFault = false)
    (hroom : queueUse c.own.q + 96 ≤ 16384) : ∃ r : QRec, r.type = .patina ∧ (queuePatina c).own.q = c.own.q ++ [r] :=
  ⟨_, rfl, queueRec_appends_patina (c := { c with free := c.free + 1 }) rfl rfl hrun hfault hroom⟩

theorem exec_patinaRecordDue {s : State} (hrun : s.core.life.st = .run) :
    exec .patinaRecordDue s = .next { s with core := queueFree (queuePatina s.core) .usage } := by
  show execPatinaRecordDue s = _
  refine onRun_of_ne s _ hrun ?_
  rw [queueFree_eq, queuePatina_eq]
  simp [hrun]

end Sys2Proof.Machine

open Sys2Proof Sys2Proof.Machine

/-- Settles O49: each command leaves of the log what its own lemma says, and the operation that begins next leaves that part
alone (`operationEnded_logPart`); a fault latches and leaves the handover (`faultWith_handover`). -/
theorem logAndNvmWorkIsCarriedOut : Obligations.LogAndNvmWorkIsCarriedOut := by
  unfold Obligations.LogAndNvmWorkIsCarriedOut
  intro s
  refine ⟨fun hrun hscan => ?_, exec_nvmOperationComplete_unclocked, fun a hc ho => ?_, fun a d hc ho hok => ?_,
    fun h r q hc ho hh hq => ?_, fun o hc ho hn => ?_, fun ho => exec_nvmOperationComplete_idle ho true,
    fun hstep => ⟨?_, fun hn => ?_⟩, exec_eraseCreditAccrual, fun hrun => ?_⟩
  · have hpart := (nvmKick_logPart (scanRef (scanEnded s.core (scanHead s.core)))).trans (scanEnded_logPart s.core _)
    have hhead := congrArg LogPart.head hpart
    have hstart := congrArg LogPart.start hpart
    refine ⟨_, exec_logScanEnd hrun hscan, congrArg LogPart.scan hpart, congrArg LogPart.num hpart, hhead, fun hnone => ?_,
      fun h hsome => ?_, congrArg LogPart.cells hpart, congrArg LogPart.sectors hpart⟩
    · have hnohead : scanHead s.core = none := hhead.symm.trans hnone
      exact hstart.trans (by rw [hnohead]; rfl)
    · have hfound : scanHead s.core = some h := hhead.symm.trans hsome
      exact (scanFound_start s.core h).trans_eq (by rw [hfound] at hstart ⊢; exact hstart.symm)
  · have hpart := operationEnded_logPart (nvmDone s.core.opTaken (.erase a))
    have hcells : _ = nvmErase s.core.nvm.cells a := congrArg LogPart.cells hpart
    refine ⟨_, exec_nvmOperationComplete_done hc ho, congrArg LogPart.sectors hpart, fun x hlo hhi => ?_, fun x hx => ?_⟩
    · exact (congrArg (nvmByte · x) hcells).trans (by rw [nvmByte_nvmErase, if_pos ⟨hlo, hhi⟩])
    · exact (congrArg (nvmByte · x) hcells).trans (by rw [nvmByte_nvmErase, if_neg (by omega)])
  · have hpart := operationEnded_logPart (nvmDone s.core.opTaken (.program a d))
    have hcells : _ = nvmProgram s.core.nvm.cells a d := congrArg LogPart.cells hpart
    refine ⟨_, exec_nvmOperationComplete_done hc ho, congrArg LogPart.sectors hpart, fun k hk => ?_, fun x hx => ?_⟩
    · exact (congrArg (nvmByte · (a + k)) hcells).trans (by
        rw [nvmByte_nvmProgram _ _ _ _ hok, if_pos (by omega), Nat.add_sub_cancel_left])
    · exact (congrArg (nvmByte · x) hcells).trans (by rw [nvmByte_nvmProgram _ _ _ _ hok, if_neg (by omega)])
  · have hpart := (operationEnded_logPart _).trans (recordWritten_logPart (c := s.core.opTaken) hh hq)
    obtain ⟨hsame, hother⟩ := written_sectors s.core (operationEnded (nvmDone s.core.opTaken .logRecord))
      (congrArg LogPart.sectors hpart)
    exact ⟨_, _, exec_nvmOperationComplete_done hc ho, congrArg LogPart.cells hpart, congrArg LogSector.recs hsame, rfl, rfl,
      rfl, rfl, rfl, hother, congrArg LogPart.num hpart⟩
  · obtain ⟨hkept, hlatched⟩ := nvmFailed_stands (c := s.core.opTaken) o hn
    exact ⟨_, exec_nvmOperationComplete_failed hc ho hkept, latched_of_logPart (operationEnded_logPart _) hlatched⟩
  · exact ⟨_, exec_epochFuseProgrammed_confirmed hstep, rfl, fun h => if_neg h, fun h => if_pos h⟩
  · obtain ⟨t, hexec, hhand, hlatched⟩ := exec_epochFuseProgrammed_unconfirmed hstep hn
    refine ⟨t, hexec, congrArg (·.2.1) hhand, (congrArg Prod.fst hhand).trans ?_, congrArg (·.2.2) hhand, hlatched⟩
    simp [Core.handover, Core.fuseUnconfirmed]
  · refine ⟨_, exec_patinaRecordDue hrun, ?_, (queuePatina_prefix s.core).trans (queueFree_prefix _ .usage .none_),
      fun hfault hroom => ?_⟩
    · rw [queueFree_eq, queuePatina_eq]
    · obtain ⟨r, hr, hq⟩ := queuePatina_appends hrun hfault hroom
      obtain ⟨x, hx⟩ := queueFree_prefix (queuePatina s.core) .usage .none_
      refine ⟨r, ?_, hr⟩
      show r ∈ (queueFree (queuePatina s.core) .usage .none_).own.q.drop _
      simp [← hx, hq]
end

section
/-! PROOFS. Staging, decryption, provisioning and burns (chapters 03 and 20): what each command of them leaves, in Run and for
a burn in any state. -/

namespace Sys2Proof.Machine

section
variable {c : Core} {s : State}

/-- Outside Dormant nothing wakes. -/
theorem wakeBegin_of_ne (wd : Bool) (h : c.life.st ≠ .dormant) : wakeBegin c wd = c := by
  simp [wakeBegin, h]

theorem inSafeHold_of_run (h : c.life.st = .run) : inSafeHold c = false := by simp [inSafeHold, h]

theorem mayStage_of_run (h : c.life.st = .run) : mayStage c = true := by simp [mayStage, inRun, h]

end

/-! ### Staging (R91–R96, R554, R555) -/

/-- What the log leaves of staging: its session, and the operations that wait. -/
def Core.staging (c : Core) : MqsG × List NvmOp := (c.mqs, c.nvm.queue)

theorem logBegin_staging (n : Nat) : ∀ c : Core, (logBegin n c).staging = c.staging := by
  induction n with
  | zero => exact fun _ => rfl
  | succ n ih =>
    intro c
    unfold logBegin
    split
    · rfl
    · exact ih (dropRecord c)
    · unfold freshRecord
      split <;> rfl
    · rfl

/-- The next operation leaves the session, and of those that wait it takes the first at most. -/
theorem nvmKick_staging (c : Core) : (nvmKick c).mqs = c.mqs ∧
    ∀ o ∈ c.nvm.queue, (nvmKick c).nvm.op = some o ∨ o ∈ (nvmKick c).nvm.queue := by
  unfold nvmKick
  split
  · exact ⟨rfl, fun o ho => .inr ho⟩
  · dsimp only
    generalize hd : (if inRun c = true then logBegin (c.own.q.length + 1) c else c) = d
    have hpart : d.staging = c.staging := by
      rw [← hd]
      split
      · exact logBegin_staging _ c
      · rfl
    have hmqs : d.mqs = c.mqs := congrArg Prod.fst hpart
    have hqueue : d.nvm.queue = c.nvm.queue := congrArg Prod.snd hpart
    split
    · exact ⟨hmqs, fun o ho => .inr (hqueue ▸ ho)⟩
    · rw [← hqueue]
      split
      · exact ⟨hmqs, fun o ho => .inr ho⟩
      · rename_i hq
        refine ⟨hmqs, fun o ho => ?_⟩
        rcases List.mem_cons.1 (hq ▸ ho) with rfl | ho
        · exact .inl rfl
        · exact .inr ho

/-- The sectors of a copy that a length covers, to be erased (R92). -/
def stagingErases (b : Bool) (len : BitVec 32) : List NvmOp :=
  (List.range (ceilDiv (Nat.min len.toNat 262144) 4096)).map fun i => NvmOp.erase (copyBase b + 4096 * i)

/-- The core with the session that BEGIN opens, the erasures it asks for waiting (R92, R554). -/
def Core.stagingBegun (c : Core) (len : BitVec 32) : Core :=
  { c with
    nvm := { c.nvm with queue := c.nvm.queue ++ stagingErases (stagingTarget c c.mqs.firstDigest.isSome) len }
    mqs := { c.mqs with
      open_ := true, second := c.mqs.firstDigest.isSome, targetB := stagingTarget c c.mqs.firstDigest.isSome
      len := len.toNat, buf := []
      res1 := if c.mqs.firstDigest.isSome then c.mqs.res1 else 0, res2 := 0 } }

/-- The core with a chunk received, its programming waiting (R93, R94). -/
def Core.chunkTaken (c : Core) (data : List Byte) : Core :=
  { c with
    nvm := { c.nvm with queue := c.nvm.queue ++ [.program (copyBase c.mqs.targetB + c.mqs.buf.length) data] }
    mqs := { c.mqs with buf := c.mqs.buf ++ data } }

/-- The digest that END keeps: of a first pass that passed (R93). -/
def passDigest (c : Core) : Option (BitVec 256) :=
  if passResult c = 15 && !c.mqs.second then some (imageDigest c.mqs.buf) else none

theorem passDigest_eq (c : Core) :
    (c.mqs.second = false → passDigest c = if passResult c = 15 then some (imageDigest c.mqs.buf) else none) ∧
      (c.mqs.second = true → passDigest c = none) := by
  constructor <;> intro h <;> simp [passDigest, h]

/-- The core with no NVM operation waiting (R96). -/
def Core.unqueued (c : Core) : Core := { c with nvm := { c.nvm with queue := [] } }

section
variable {s : State} (hrun : s.core.life.st = .run)
include hrun

/-- The target of a pass in Run: the copy not in use, then the other (R92). -/
theorem stagingTarget_run (second : Bool) :
    stagingTarget s.core second = if second then s.core.mqs.fromB else !s.core.mqs.fromB := by
  cases second <;> simp [stagingTarget, inSafeHold_of_run hrun]

/-- BEGIN in Run without a session opens one, with the cells as they were (R92, R554). -/
theorem exec_stagingBegin (len : BitVec 32) (hopen : s.core.mqs.open_ = false) :
    exec (.stagingBegin len) s = .next { s with core := nvmKick (s.core.stagingBegun len) } := by
  show execStagingBegin len s = _
  simp only [execStagingBegin, mayStage_of_run hrun, hopen, Bool.not_true, Bool.or_false, Bool.false_eq_true, if_false]
  rfl

/-- A chunk in its place is programmed, at once or behind the log (R93, R94). -/
theorem exec_stagingData_ok {addr : Nat} {data : List Byte} (hok : chunkOk s.core addr data.length = true) :
    exec (.stagingData addr data) s = .next { s with core := nvmKick (s.core.chunkTaken data) } := by
  show execStagingData addr data s = _
  simp only [execStagingData, mayStage_of_run hrun, hok, Bool.not_true, Bool.false_eq_true, if_false, if_true]
  rfl

theorem exec_stagingData_discarded {addr : Nat} {data : List Byte} (hok : chunkOk s.core addr data.length = false) :
    exec (.stagingData addr data) s = .next { s with core := { s.core with
      mqs := { s.core.mqs with discarded := s.core.mqs.discarded + 1 } } } := by
  show execStagingData addr data s = _
  simp only [execStagingData, mayStage_of_run hrun, hok, Bool.not_true, Bool.false_eq_true, if_false]

variable (hopen : s.core.mqs.open_ = true)
include hopen

theorem exec_stagingEnd :
    exec .stagingEnd s = .next { s with core := endPass s.core (passResult s.core) (passDigest s.core) } := by
  show execStagingEnd s = _
  simp only [execStagingEnd, mayStage_of_run hrun, Bool.not_true, Bool.false_eq_true, if_false]
  exact onCoreIf_of_kept hopen rfl rfl

theorem exec_stagingAbort : exec .stagingAbort s = .next { s with core := endPass s.core.unqueued 14 none } := by
  show execStagingAbort s = _
  simp only [execStagingAbort, mayStage_of_run hrun, Bool.not_true, Bool.false_eq_true, if_false]
  exact onCoreIf_of_kept hopen rfl rfl

end

/-- The end of a pass is seen by the host (R93, R96, Table 19-6). -/
theorem endPass_attnNew (c : Core) (r : Nat) (digest : Option (BitVec 256)) :
    (endPass c r digest).ord.attnNew.getLsbD 3 = true :=
  (getLsbD_putBit c.ord.attnNew 3 true 3 (by decide)).trans (if_pos rfl)

/-- The result stands as the pass's own. -/
theorem endPass_result (c : Core) (r : Nat) (digest : Option (BitVec 256)) :
    (c.mqs.second = false → (endPass c r digest).mqs.res1 = r) ∧
      (c.mqs.second = true → (endPass c r digest).mqs.res2 = r ∧ (endPass c r digest).mqs.res1 = c.mqs.res1) :=
  ⟨fun h => if_neg (by simp [h]), fun h => ⟨if_pos h, if_pos h⟩⟩

/-! ### Provisioning and burns (R83–R85, R556) -/

section
variable {s : State} {cmd : BitVec 32} (hs : Vector (BitVec 256) 4) (hkey : cmd.toNat / 16777216 = 0xC5)
  (hslot : cmd.toNat % 16 ≠ 0)
include hkey hslot

theorem exec_provisioningOrder_run (hrun : s.core.life.st = .run) : exec (.provisioningOrder cmd hs) s =
    .next { s with core := { s.core with mqs := { s.core.mqs with provRes := 2 } } } := by
  show execProvisioningOrder cmd hs s = _
  unfold execProvisioningOrder
  refine onCore_of_kept ?_ rfl
  simp [hrun, hkey, hslot, inSafeHold, wakeBegin]

/-- In Safe Hold, with every slot blank, the burn of what the order names begins (R83, R556). -/
theorem exec_provisioningOrder_safeHold (hsafe : s.core.life.st = .safeHold) (hprov : s.core.otp.provisioned = false)
    (hburn : s.core.otp.burnProv = none) (hblank : ∀ x ∈ s.core.otp.slots.toList, x = none) :
    exec (.provisioningOrder cmd hs) s = .next { s with core := { s.core with otp := { s.core.otp with
      burnProv := some (vmap (fun k x => if cmd.getLsbD k then some x else none) hs, cmd.getLsbD 4, cmd.getLsbD 5) } } } := by
  have hnone : s.core.otp.slots.toList.any Option.isSome = false := by
    rw [List.any_eq_false]
    intro x hx
    simp [hblank x hx]
  show execProvisioningOrder cmd hs s = _
  unfold execProvisioningOrder
  refine onCore_of_kept ?_ rfl
  simp only [hsafe, hkey, hprov, hburn, hnone, inSafeHold]
  simp [hslot]

end

theorem exec_otpBurnComplete_provisioned {s : State} (hburn : s.core.otp.burnProv.isSome = true) (ok : Bool) :
    exec (.otpBurnComplete ok) s = .next { s with core := provisioned s.core ok } := by
  show execOtpBurnComplete ok s = _
  unfold execOtpBurnComplete
  exact onCore_of_kept (if_pos hburn) (provisioned_kept _ _)

/-- Outside step 3 of a handover no fuse of it is due. -/
theorem handoverFuse_of_ne {c : Core} (h : c.own.step ≠ 3) : handoverFuse c = c := by
  simp [handoverFuse, h]

/-- Revocation and roll-back fuses that read back stand blown (R84, R85). -/
theorem exec_otpBurnComplete_fuses {s : State} (hburn : s.core.otp.burnProv = none) (hstep : s.core.own.step ≠ 3) :
    exec (.otpBurnComplete true) s = .next { s with core := { s.core with
      free := s.core.free + 2
      otp := { s.core.otp with
        revoked := s.core.otp.revoked ||| s.core.otp.burnRevoke
        rollback := s.core.otp.burnTo.getD s.core.otp.rollback, burnRevoke := 0, burnTo := none } } } := by
  show execOtpBurnComplete true s = _
  unfold execOtpBurnComplete
  refine onCore_of_kept ?_ rfl
  simp only [hburn, Option.isSome_none, Bool.false_eq_true, if_false, if_true]
  exact handoverFuse_of_ne hstep

/-- A provisioning burn that reads back (R83, R556). -/
theorem provisioned_otp {c : Core} {h : Vector (Option (BitVec 256)) 4} {w l : Bool}
    (hburn : c.otp.burnProv = some (h, w, l)) : (provisioned c true).otp = { c.otp with
      slots := vmap (fun k x => (vget h k none).or x) c.otp.slots, wdtHw := c.otp.wdtHw || w
      testLock := c.otp.testLock || l, provisioned := true, burnProv := none } := by
  simp [provisioned, hburn]

/-- However it reads back, the block is provisioned and the result posted (R83, R556). -/
theorem provisioned_ends {c : Core} {x : Vector (Option (BitVec 256)) 4 × Bool × Bool} (hburn : c.otp.burnProv = some x)
    (ok : Bool) : (provisioned c ok).otp.provisioned = true ∧ (provisioned c ok).otp.burnProv = none ∧
      (provisioned c ok).mqs.provRes = if ok then 1 else 4 := by
  obtain ⟨h, w, l⟩ := x
  unfold provisioned
  rw [hburn]
  exact ⟨rfl, rfl, rfl⟩

/-! ### Decryption (R524, R531, R548) -/

section
variable {s : State} (hrun : s.core.life.st = .run)
include hrun

theorem exec_accsel (v : BitVec 32) : exec (.accsel v) s = .next { s with core := { s.core with
    vlt := { s.core.vlt with dselPend := some (v.toNat % 8192) } } } := by
  show execAccsel v s = _
  unfold execAccsel
  rw [inSafeHold_of_run hrun, if_neg Bool.false_ne_true]
  exact onCoreIf_of_kept (by simp [portOpen, inRun, hrun]) (wakeBegin_of_ne false (by simp [hrun])) rfl

/-- Outside a handover, and with its key, a decrypt command is taken up (R524, R531). -/
theorem exec_decryptCommand (v : BitVec 32) (hstep : s.core.own.step = 0) (hkey : s.core.own.keyFault = false) :
    exec (.decryptCommand v) s = .next { s with core := { s.core with own := { s.core.own with
      dOff := v.toNat % 268435456, dPart := v.toNat / 268435456 % 8, dWin := [], dType := 0, dLen := 0, dStat := 1 } } } := by
  show execDecryptCommand v s = _
  unfold execDecryptCommand
  rw [inSafeHold_of_run hrun, if_neg Bool.false_ne_true]
  refine onCoreIf_of_kept (by simp [inRun, hrun]) ?_ rfl
  dsimp only
  rw [wakeBegin_of_ne false (by simp [hrun])]
  simp [handingOver, hstep, hkey]

theorem exec_decryptComplete (hstat : s.core.own.dStat = 1) (hscan : s.core.own.scan = false) (hstep : s.core.own.step = 0) :
    exec .decryptComplete s = .next { s with core := { s.core with own := { s.core.own with
      dStat := (decryptResult s.core).1, dType := (decryptResult s.core).2.1, dLen := (decryptResult s.core).2.2.1
      dWin := (decryptResult s.core).2.2.2 } } } := by
  show execDecryptComplete s = _
  unfold execDecryptComplete
  exact onCoreIf_of_kept (by simp [inRun, hrun, hstat, hscan]) (if_neg (by simp [handingOver, hstep])) rfl

end

theorem decryptResult_none {c : Core} (h : recordAt c c.own.dOff = none) : decryptResult c = (3, 0, 0, []) := by
  simp only [decryptResult, h]

/-- Of the record asked for, its type and length are told in every case, and its bytes only with status 2, which no torn record
and none of another epoch's owner gets (R524). -/
theorem decryptResult_some {c : Core} {r : LogRec} (h : recordAt c c.own.dOff = some r) :
    (decryptResult c).2.1 = r.type.code ∧ (decryptResult c).2.2.1 = r.type.len ∧
      ((decryptResult c).1 ≠ 2 → (decryptResult c).2.2.2 = []) ∧
      ((decryptResult c).1 = 2 → r.torn = false ∧ (r.key = 1 → r.epoch = c.otp.epoch) ∧
        (decryptResult c).2.2.2 = (r.body.drop (128 * c.own.dPart)).take 128) := by
  simp only [decryptResult, h]
  split
  · simp
  · split
    · simp
    · split
      · simp
      · split
        · simp
        · rename_i hepoch htorn _
          exact ⟨rfl, rfl, fun h => absurd rfl h, fun _ => ⟨by simpa using htorn, by simpa using hepoch, rfl⟩⟩

end Sys2Proof.Machine

open Sys2Proof Sys2Proof.Machine

/-- Settles O50: each command answers in Run as its own lemma says, and a burn in any state (`provisioned_otp`,
`exec_otpBurnComplete_fuses`). -/
theorem stagingAndDecryptionAnswer : Obligations.StagingAndDecryptionAnswer := by
  unfold Obligations.StagingAndDecryptionAnswer
  intro s hrun
  refine ⟨fun len hopen => ?_, fun addr data => ⟨fun hok => ?_, exec_stagingData_discarded hrun⟩, fun hopen => ?_,
    fun hopen => ?_,
    fun cmd hs hkey hslot => ⟨exec_provisioningOrder_run hs hkey hslot hrun, fun u hsafe hprov hburn hblank => ?_⟩,
    fun v => ⟨exec_accsel hrun v, exec_decryptCommand hrun v⟩, fun hstat hscan hstep => ?_,
    fun u => ⟨fun hburn hstep => ?_, fun h w l hburn => ⟨?_, ?_⟩⟩⟩
  · have hmqs := (nvmKick_staging (s.core.stagingBegun len)).1
    have hpart := nvmKick_logPart (s.core.stagingBegun len)
    exact ⟨_, exec_stagingBegin hrun len hopen, congrArg LogPart.cells hpart, congrArg MqsG.open_ hmqs,
      congrArg MqsG.len hmqs, congrArg MqsG.buf hmqs, congrArg MqsG.second hmqs,
      (congrArg MqsG.targetB hmqs).trans (stagingTarget_run hrun _), rfl⟩
  · obtain ⟨hmqs, hqueue⟩ := nvmKick_staging (s.core.chunkTaken data)
    exact ⟨_, exec_stagingData_ok hrun hok, congrArg MqsG.buf hmqs, (congrArg MqsG.discarded hmqs :),
      hqueue _ (List.mem_append_right _ (List.mem_singleton_self _))⟩
  · obtain ⟨hfirst, hsecond⟩ := endPass_result s.core (passResult s.core) (passDigest s.core)
    obtain ⟨hone, htwo⟩ := passDigest_eq s.core
    exact ⟨_, exec_stagingEnd hrun hopen, rfl, rfl, fun h => ⟨hfirst h, hone h⟩,
      fun h => ⟨(hsecond h).1, (hsecond h).2, htwo h⟩, endPass_attnNew _ _ _, rfl, rfl⟩
  · obtain ⟨hfirst, hsecond⟩ := endPass_result s.core.unqueued 14 none
    exact ⟨_, exec_stagingAbort hrun hopen, rfl, rfl, hfirst, fun h => (hsecond h).1, rfl, endPass_attnNew _ _ _⟩
  · exact ⟨_, _, exec_provisioningOrder_safeHold hs hkey hslot hsafe hprov hburn hblank, rfl,
      fun k => getElem_vmap _ hs k.val k.isLt⟩
  · refine ⟨_, exec_decryptComplete hrun hstat hscan hstep, rfl, fun hnone => ?_, fun r hsome => decryptResult_some hsome⟩
    rw [decryptResult_none hnone]
    exact ⟨rfl, rfl⟩
  · exact ⟨_, exec_otpBurnComplete_fuses hburn hstep, rfl⟩
  · obtain ⟨hprov, hnone, hres⟩ := provisioned_ends hburn true
    have hotp := provisioned_otp hburn
    refine ⟨_, exec_otpBurnComplete_provisioned (by rw [hburn]; rfl) true, hprov, hnone, hres, congrArg OtpG.wdtHw hotp,
      congrArg OtpG.testLock hotp, fun k hk => ?_⟩
    have hslots : (provisioned u.core true).otp.slots[k] = (vget h k.val none).or u.core.otp.slots[k] := by
      rw [hotp]
      exact getElem_vmap _ _ k.val k.isLt
    exact hslots.trans (by rw [hk, vget_fin, Option.or_none])
  · exact ⟨_, exec_otpBurnComplete_provisioned (by rw [hburn]; rfl) false, provisioned_ends hburn false⟩
end

section
/-! PROOFS. Resets and what they capture, the start from Off, and the watchdog (chapter 04). -/

namespace Sys2Proof.Machine

/-! ### A command that takes Reset -/

section
variable {c d : Core} {s : State} {bit us : Nat}

/-- What `afterReset` lets stand after a reset is what the reset itself left (R105, R126). -/
theorem ResetTaken.afterReset (h : ResetTaken c d bit) (hc : c.life.st ≠ .reset) : ResetTaken c (afterReset c d) bit := by
  have hd : (d.life.st == Life.reset && c.life.st != Life.reset) = true := by simp [h.st, hc]
  rw [Machine.afterReset, if_pos hd]
  exact { st := rfl, cause := h.cause, image := rfl, latches := fun l hl => by simpa using hl
          cleared := ⟨rfl, rfl, rfl, rfl, rfl, rfl, rfl, rfl, rfl, rfl, rfl⟩
          mode := rfl, nvm := ⟨rfl, rfl⟩, kept := h.kept, idle := h.idle, pins := ⟨rfl, rfl⟩ }

/-- The watchdog that expires at a reading of the timebase is a reset of kind Watchdog (R126). -/
theorem watchdogExpire_taken (ho : c.life.st ≠ .off) (hr : c.life.st ≠ .reset) :
    ResetTaken c (afterReset c (watchdogExpire (atUs c us) 3)) 3 := by
  have h : ResetTaken (atUs c us) (watchdogExpire (atUs c us) 3) 3 := resetEntry_taken _ .watchdog 3 0 ho hr
  exact ResetTaken.afterReset { h with } hr

/-! ### What a reset captures -/

theorem afterReset_cap (c d : Core) : (afterReset c d).wdg.cap = d.wdg.cap := by
  unfold afterReset
  split <;> rfl

/-- A reset out of Run takes the capture of its kind (R127, R128). -/
theorem resetEntry_cap (hrun : c.life.st = .run) (kind : ResetKind) (bit : Nat) (code : BitVec 16) :
    (resetEntry c kind bit code).wdg.cap = if kind.capture = 0 then c.wdg.cap else takeCapture c kind.capture code := by
  simp only [resetEntry, hrun]

theorem takeCapture_held (h : c.wdg.cap.valid = true) (kind : Nat) (code : BitVec 16) :
    takeCapture c kind code = { c.wdg.cap with lost := min 255 (c.wdg.cap.lost + 1) } := by
  rw [takeCapture, if_pos h, Capture.lose, satNat, Nat.min_comm]
  rfl

theorem takeCapture_free (h : c.wdg.cap.valid = false) (kind : Nat) (code : BitVec 16) :
    takeCapture c kind code = frozenCapture c kind code := by
  simp [takeCapture, h]

/-- A lockstep mismatch in Run captures with kind 2 and its code (R291, Table 04-7). -/
theorem exec_lockstepMismatch_run (hrun : s.core.life.st = .run) :
    ∃ t, exec .lockstepMismatch s = .next t ∧ t.core.wdg.cap = takeCapture s.core 2 0x1801 := by
  have hexec : exec .lockstepMismatch s = onCore s fun c => resetEntry c .fault 4 0x1801 := by
    show execLockstepMismatch s = _
    rw [execLockstepMismatch, onCoreIf_pos _ _ _ (by simp [monitored, inRun, hrun])]
  exact ⟨_, hexec, (afterReset_cap _ _).trans (resetEntry_cap hrun .fault 4 0x1801)⟩

/-- Loss of MOSC in Run captures with kind 3 (R36, Table 04-7). -/
theorem exec_moscLoss_run (hrun : s.core.life.st = .run) :
    ∃ t, exec .moscLoss s = .next t ∧ t.core.wdg.cap = takeCapture s.core 3 0 := by
  have hexec : exec .moscLoss s = onCore s fun c => resetEntry { c with life := { c.life with mosc := false } } .clock 5 0 := by
    show execMoscLoss s = _
    rw [execMoscLoss, onCoreIf_pos _ _ _ (by simp [hrun])]
  exact ⟨_, hexec, (afterReset_cap _ _).trans
    (resetEntry_cap (c := { s.core with life := { s.core.life with mosc := false } }) hrun .clock 5 0)⟩

/-- RST_N in Run captures nothing (Table 04-3). -/
theorem exec_rstNAsserted_run (hrun : s.core.life.st = .run) :
    ∃ t, exec .rstNAsserted s = .next t ∧ t.core.wdg.cap = s.core.wdg.cap :=
  ⟨_, rfl, (afterReset_cap _ _).trans
    (resetEntry_cap (c := { s.core with pins := { s.core.pins with rstN := true } }) hrun .pin 1 0)⟩

end

/-! ### The start from Off -/

/-- The controller as a qualified start source finds it (R97, R107). -/
def Core.supplied (c : Core) (vmain vpack vsys : Nat) : Core :=
  { c with
    life := { rstCause := 1, rstLatest := 1, powerOn := true }
    pins := { c.pins with vaux := vauxSelect vmain vpack vsys } }

theorem startSource_iff (c : Core) (vmain vpack vsys : Nat) : startSource c vmain vpack vsys = true ↔
    16000 ≤ vmain ∨ 18000 ≤ vpack ∨ (c.pins.twPres = true ∧ 18000 ≤ vsys) := by
  simp [startSource, or_assoc]

section
variable {s : State} {vmain vpack vsys : Nat} (tm : Bool)

theorem exec_startSourceQualifies (hoff : s.core.life.st = .off) (h : startSource s.core vmain vpack vsys = true) :
    exec (.startSourceQualifies vmain vpack vsys tm) s =
      .next (newPort s (pinReset (bootStart (s.core.supplied vmain vpack vsys) tm))) := by
  show execStartSourceQualifies vmain vpack vsys tm s = _
  rw [execStartSourceQualifies, if_pos (by simp [hoff, h])]
  rfl

theorem exec_startSourceQualifies_none (h : startSource s.core vmain vpack vsys = false) :
    exec (.startSourceQualifies vmain vpack vsys tm) s = .next s := by
  show execStartSourceQualifies vmain vpack vsys tm s = _
  rw [execStartSourceQualifies, if_neg (by simp [h])]

end

theorem pinReset_released {c : Core} (h : c.pins.rstN = false) : pinReset c = c := by
  simp [pinReset, h]

/-- Boot under RST_N asserted gives way to Reset (R61). -/
theorem pinReset_bootStart (c : Core) (tm : Bool) (h : c.pins.rstN = true) : (pinReset (bootStart c tm)).life.st = .reset := by
  rw [pinReset, if_pos (show (bootStart c tm).pins.rstN = true from h)]
  exact (resetEntry_taken (bootStart c tm) .pin 1 0 (by simp [bootStart]) (by simp [bootStart])).st

/-! ### Keys -/

section
variable {c : Core} {key : BitVec 16} {i : Nat}

/-- A key with the constant of a task is that task's: the constants differ (Table 04-6). -/
theorem taskOf_of_getElem? (h : taskKeys[i]? = some (key.toNat / 256)) : taskOf key = some i := by
  obtain ⟨hi, hkey⟩ := List.getElem?_eq_some_iff.1 h
  have hidx : taskKeys.findIdx (· == taskKeys[i]) = i := List.Nodup.idxOf_getElem (by decide) i hi
  simp only [taskOf, ← hkey, hidx, if_pos hi]

theorem taskOf_of_not_mem (h : key.toNat / 256 ∉ taskKeys) : taskOf key = none := by
  have hidx : taskKeys.findIdx (· == key.toNat / 256) = taskKeys.length := List.idxOf_eq_length h
  simp [taskOf, hidx]

/-- The number of the period before is another, also in its low byte. -/
theorem toNat_pred_mod_ne {n : BitVec 32} (_ : n ≠ 0) : (n - 1).toNat % 256 ≠ n.toNat % 256 := by
  bv_omega

variable (us : Nat)

theorem keyRunning_first (hi : taskOf key = some i) (hn : key.toNat % 256 = c.wdg.num.toNat % 256)
    (hm : c.wdg.missing.getLsbD i = true) : keyRunning c key us = { c with wdg := checkIn c.wdg i us } := by
  simp [keyRunning, hi, hn, hm]

theorem keyRunning_again (hi : taskOf key = some i) (hn : key.toNat % 256 = c.wdg.num.toNat % 256)
    (hm : c.wdg.missing.getLsbD i = false) : keyRunning c key us = c := by
  simp [keyRunning, hi, hn, hm]

/-- A key with the number of the period before is late, and stands for nothing (R121). -/
theorem keyRunning_late (hi : taskOf key = some i) (h0 : c.wdg.num ≠ 0)
    (hn : key.toNat % 256 = (c.wdg.num - 1).toNat % 256) : keyRunning c key us = c := by
  simp only [keyRunning, hi]
  rw [if_neg (hn.trans_ne (toNat_pred_mod_ne h0)), if_pos (by simp [hn, show ¬ c.wdg.num = 0#32 from h0])]

/-- A key of no task, or of neither this period nor the one before, makes the watchdog expire (R121). -/
theorem keyRunning_wrong (h : taskOf key = none ∨ key.toNat % 256 ≠ c.wdg.num.toNat % 256 ∧
    (c.wdg.num ≠ 0 → key.toNat % 256 ≠ (c.wdg.num - 1).toNat % 256)) : keyRunning c key us = watchdogExpire c 3 := by
  unfold keyRunning
  cases hi : taskOf key with
  | none => rfl
  | some i =>
    obtain ⟨hnow, hbefore⟩ := h.resolve_left (by simp [hi])
    dsimp only
    rw [if_neg hnow, if_neg (by simpa using hbefore)]

/-- The watchdog that a key starts: period 0 with its task checked in (R123). -/
def WdgG.started (w : WdgG) (period i us : Nat) : WdgG :=
  checkIn { w with run := true, period := period, num := 0, missing := 0x3F } i us

theorem keyStarting_starts (hi : taskOf key = some i) (hn : key.toNat % 256 = 0) (hrun : c.life.st = .run)
    (hs : c.maq.wdog.start = true) : keyStarting c key us = { c with wdg := c.wdg.started c.maq.wdog.period i us } := by
  simp only [keyStarting, hi]
  rw [if_pos (by simp [hn, inRun, hrun, hs])]
  rfl

theorem keyStarting_ignored (h : taskOf key = none ∨ key.toNat % 256 ≠ 0 ∨ c.maq.wdog.start = false) :
    keyStarting c key us = c := by
  unfold keyStarting
  cases hi : taskOf key with
  | none => rfl
  | some i =>
    dsimp only
    rw [if_neg]
    rcases h.resolve_left (by simp [hi]) with hn | hs
    · simp [hn]
    · simp [hs]

end

/-! ### The commands of the watchdog -/

section
variable {s : State} {d : Core} {key : BitVec 16} (us : Nat)

/-- A key to the running watchdog, whatever it does (R121). -/
theorem exec_watchdogKeyWrite_running (hst : monitored s.core = true) (hrun : s.core.wdg.run = true) :
    exec (.watchdogKeyWrite key us) s =
      .next { s with core := afterReset s.core (keyRunning (atUs s.core us) key us) } := by
  show execWatchdogKeyWrite key us s = _
  rw [execWatchdogKeyWrite, onCoreIf_pos _ _ _ hst, onCore_next]
  exact congrArg (fun d => Host.Outcome.next { s with core := afterReset s.core d }) (if_pos hrun)

/-- A key while the watchdog is off (R123). -/
theorem exec_watchdogKeyWrite_off (hst : monitored s.core = true) (hrun : s.core.wdg.run = false) :
    exec (.watchdogKeyWrite key us) s =
      .next { s with core := afterReset s.core (keyStarting (atUs s.core us) key us) } := by
  show execWatchdogKeyWrite key us s = _
  rw [execWatchdogKeyWrite, onCoreIf_pos _ _ _ hst, onCore_next]
  have hoff : ¬ (atUs s.core us).wdg.run = true := Bool.not_eq_true _ ▸ hrun
  exact congrArg (fun d => Host.Outcome.next { s with core := afterReset s.core d }) (if_neg hoff)

/-- A key taken without a reset. -/
theorem exec_watchdogKeyWrite_takes (hst : monitored s.core = true) (hrun : s.core.wdg.run = true)
    (hd : keyRunning (atUs s.core us) key us = d) (hlife : d.life.st = s.core.life.st) :
    exec (.watchdogKeyWrite key us) s = .next { s with core := d } := by
  rw [exec_watchdogKeyWrite_running us hst hrun, hd, afterReset_of_st_eq hlife]

theorem exec_watchdogKeyWrite_starts (hst : monitored s.core = true) (hrun : s.core.wdg.run = false)
    (hd : keyStarting (atUs s.core us) key us = d) (hlife : d.life.st = s.core.life.st) :
    exec (.watchdogKeyWrite key us) s = .next { s with core := d } := by
  rw [exec_watchdogKeyWrite_off us hst hrun, hd, afterReset_of_st_eq hlife]

/-- The next period begins (R120). -/
def Core.nextPeriod (c : Core) : Core := { c with wdg := { c.wdg with num := c.wdg.num + 1, missing := 0x3F } }

theorem exec_watchdogPeriodBoundary (hrun : s.core.wdg.run = true) (hboot : s.core.wdg.bootTmo = false) :
    exec (.watchdogPeriodBoundary us) s = .next { s with
      core := afterReset s.core
        (if s.core.wdg.missing != 0 then watchdogExpire (atUs s.core us) 3 else (atUs s.core us).nextPeriod) } := by
  show execWatchdogPeriodBoundary us s = _
  rw [execWatchdogPeriodBoundary, onCoreIf_pos _ _ _ (by simp [hrun, hboot])]
  rfl

end

end Sys2Proof.Machine

open Sys2Proof Sys2Proof.Machine

/-- Settles O7: a source leads to Boot as `bootStart` begins it, which RST_N asserted turns into Reset. -/
theorem startSourceBeginsBoot : Obligations.StartSourceBeginsBoot := by
  intro vmain vpack vsys tm s hoff
  refine ⟨fun h hrst => ?_, fun h hrst => ?_, fun hmain hpack hsys => ?_⟩
  · have hboot : pinReset (bootStart (s.core.supplied vmain vpack vsys) tm) = _ := pinReset_released hrst
    obtain ⟨-, -, -, hvaux⟩ := vauxSelect_spec vmain vpack vsys
    refine ⟨_, exec_startSourceQualifies tm hoff ((startSource_iff _ _ _ _).2 h), ?_⟩
    rw [hboot]
    exact ⟨bootBegun_bootStart tm ⟨rfl, rfl, rfl, rfl⟩, rfl, hvaux, rfl⟩
  · exact ⟨_, exec_startSourceQualifies tm hoff ((startSource_iff _ _ _ _).2 h), pinReset_bootStart _ tm hrst, rfl⟩
  · refine exec_startSourceQualifies_none tm (Bool.eq_false_iff.2 fun h => ?_)
    rcases (startSource_iff _ _ _ _).1 h with h | h | ⟨hpres, h⟩
    · omega
    · omega
    · rcases hsys with hsys | hsys
      · exact absurd (hpres.symm.trans hsys) (by decide)
      · omega

/-- Settles O10: both resets take `takeCapture`, which loses into a held capture and freezes the shadow without one. -/
theorem captureIsTakenOnce : Obligations.CaptureIsTakenOnce := by
  intro s hrun
  obtain ⟨t, hlock, hcap⟩ := exec_lockstepMismatch_run hrun
  obtain ⟨u, hmosc, hclock⟩ := exec_moscLoss_run hrun
  refine ⟨fun hv => ?_, fun hv => ?_, exec_rstNAsserted_run hrun⟩
  · rw [takeCapture_held hv] at hcap hclock
    exact ⟨⟨t, hlock, hcap⟩, ⟨u, hmosc, hclock⟩⟩
  · rw [takeCapture_free hv] at hcap hclock
    refine ⟨⟨t, hlock, ?_⟩, ⟨u, hmosc, ?_⟩⟩
    · rw [hcap]
      exact ⟨rfl, rfl, rfl, rfl, rfl, hrun, rfl⟩
    · rw [hclock]
      exact ⟨rfl, rfl, rfl, rfl⟩

/-- Settles O14: each write is the case of `keyRunning` that R121 gives it. -/
theorem watchdogTakesKeys : Obligations.WatchdogTakesKeys := by
  intro i key us s hst hrun
  have hmon : monitored s.core = true := by
    rcases hst with h | h | h <;> simp [monitored, inRun, inSafeHold, h]
  refine ⟨fun hkey => ⟨fun hn => ⟨fun hm => ?_, fun hm => ?_⟩, fun h0 hn => ?_⟩, fun hwrong => ?_⟩
  · exact exec_watchdogKeyWrite_takes us hmon hrun (keyRunning_first us (taskOf_of_getElem? hkey) hn hm) rfl
  · exact exec_watchdogKeyWrite_takes us hmon hrun (keyRunning_again us (taskOf_of_getElem? hkey) hn hm) rfl
  · exact exec_watchdogKeyWrite_takes us hmon hrun (keyRunning_late us (taskOf_of_getElem? hkey) h0 hn) rfl
  · refine ⟨_, exec_watchdogKeyWrite_running us hmon hrun, ?_⟩
    have hexpire : keyRunning (atUs s.core us) key us = _ := keyRunning_wrong us (hwrong.imp_left taskOf_of_not_mem)
    rw [hexpire]
    refine watchdogExpire_taken ?_ ?_ <;> rcases hst with h | h | h <;> simp [h]

/-- Settles O15: a key while the watchdog is off is a case of `keyStarting`; the mask decides at the end of a period. -/
theorem watchdogStartsAndCountsPeriods : Obligations.WatchdogStartsAndCountsPeriods := by
  intro us s
  refine ⟨fun i key hst hrun => ?_, fun hoff hreset hrun hboot => ?_⟩
  · have hmon : monitored s.core = true := by simp [monitored, inRun, hst]
    refine ⟨fun hkey hn hs => ?_, fun h => ?_⟩
    · exact exec_watchdogKeyWrite_starts us hmon hrun (keyStarting_starts us (taskOf_of_getElem? hkey) hn hst hs) rfl
    · exact exec_watchdogKeyWrite_starts us hmon hrun (keyStarting_ignored us (h.imp_left taskOf_of_not_mem)) rfl
  · rw [exec_watchdogPeriodBoundary us hrun hboot]
    refine ⟨fun hm => ⟨_, rfl, ?_⟩, fun hm => ?_⟩
    · rw [if_pos (by simpa using hm)]
      exact watchdogExpire_taken hoff hreset
    · rw [if_neg (by simp [hm]), afterReset_of_st_eq]
      · rfl
      · rfl
end

section
/-! PROOFS. Orders on their way to the merge tick (chapter 18). -/

namespace Sys2Proof.Machine

/-- The controller with one order more that waits (R480). -/
def Core.arrives (c : Core) (a : Arrived) : Core := { c with ord := { c.ord with arrived := c.ord.arrived ++ [a] } }

theorem wakeBegin_arrives (c : Core) (a : Arrived) :
    wakeBegin (c.arrives a) false = { c.arrives a with life := (wakeBegin c false).life } := by
  by_cases h : c.life.st = .dormant <;> simp [wakeBegin, Core.arrives, h]

section
variable {s : State} {m : Master} {k : Nat} {v : BitVec 32}

/-- An order where orders are taken waits behind those before it, and the host's wakes Dormant (R480, Table 04-5). -/
theorem arrive_queued (h : takesOrders s.core k = true) : arrive m k v s = .next (s.queued m k v) := by
  rw [arrive, if_pos h]
  cases m with
  | supervisor => exact onCore_of_st_eq s _ rfl
  | host =>
    refine (onCore_of_st_eq s (fun c => wakeBegin (c.arrives { m := .host, slot := k, v := v }) false)
      (congrArg Kept.st (wakeBegin_kept _ _))).trans ?_
    rw [wakeBegin_arrives]
    rfl

/-- The host's order that Safe Hold refuses leaves REFUSED and its attention cause (R110, R498). -/
theorem arrive_refused (hsafe : s.core.life.st = .safeHold) (hk : k ≠ 23) :
    arrive .host k v s = .next (portNote { s with win := { s.win with status := 0 } } 2) := by
  have hrefuse : refusePort { s with win := { s.win with status := 0 } } =
      portNote { s with win := { s.win with status := 0 } } 2 := by
    rw [refusePort, if_pos (by simp [portOpen, inSafeHold, hsafe]), wakeBegin_of_ne false (by simp [hsafe])]
  rw [arrive, if_neg (by simp [takesOrders, hsafe, hk]), if_pos (by simp [inSafeHold, hsafe]), hrefuse]

/-- Boot and Reset take no order. -/
theorem arrive_stays (h : s.core.life.st = .boot ∨ s.core.life.st = .reset) : arrive m k v s = .next s := by
  rw [arrive, if_neg, if_neg] <;> rcases h with h | h <;> simp [takesOrders, inSafeHold, h]

end

end Sys2Proof.Machine

open Sys2Proof Sys2Proof.Machine

/-- Settles O27: every order command is `arrive` with its slot, which queues where orders are taken. -/
theorem ordersWaitForTheMerge : Obligations.OrdersWaitForTheMerge := by
  intro m v s
  refine ⟨fun hst => ?_, fun hsafe => ⟨arrive_queued (by simp [takesOrders, hsafe]), ?_⟩, arrive_stays⟩
  · have hq : ∀ (m : Master) (k : Nat), arrive m k v s = .next (s.queued m k v) := fun m k =>
      arrive_queued (by rcases hst with h | h <;> simp [takesOrders, h])
    exact ⟨hq m 0, hq m 1, hq m 2, hq m 3, hq m 4, hq m 5, fun ch => hq m (6 + ch.val), hq m 14, hq m 15, hq m 16,
      fun p => hq m (17 + p.val), hq m 21, hq .host 22, hq .host 23, hq m 24, hq .host 25, hq .host 26, hq .host 27,
      hq .host 28, hq .host 29, hq .host 30⟩
  · exact ⟨_, arrive_refused hsafe (by decide), portNote_status_self _ _ (by decide), rfl, rfl, portNote_attnNew _ _⟩
end

section
/-! PROOFS. The entry into Dormant (chapter 04): what its ledger close leaves, and what the entry itself sets. -/

namespace Sys2Proof.Machine

/-! ### What the ledger close leaves -/

/-- The watchdog and the thermal state, which only a reset clears. -/
def Core.guards (c : Core) : WdgG × ThmG := (c.wdg, c.thm)

/-- Unless the image raises a fault to class D, `d` has the lifecycle, the watchdog and the thermal state of `c`. -/
def Spares (c d : Core) : Prop := ¬ c.kept.raises → d.kept = c.kept ∧ d.guards = c.guards

section
variable {c d e : Core}

theorem Spares.refl (c : Core) : Spares c c := fun _ => ⟨rfl, rfl⟩

theorem Spares.trans (h : Spares c d) (h' : Spares d e) : Spares c e := fun hn =>
  have ⟨hk, hg⟩ := h hn
  have ⟨hk', hg'⟩ := h' (hk ▸ hn)
  ⟨hk'.trans hk, hg'.trans hg⟩

theorem spares_of_eq (hk : d.kept = c.kept) (hg : d.guards = c.guards) : Spares c d := fun _ => ⟨hk, hg⟩

theorem spares_foldl {α : Type} {f : Core → α → Core} (h : ∀ c x, Spares c (f c x)) (l : List α) (c : Core) :
    Spares c (l.foldl f c) := by
  induction l generalizing c with
  | nil => exact .refl c
  | cons x l ih => exact (h c x).trans (ih _)

end

section
variable (c : Core)

theorem exportEnd_guards (hr : Bool) : (exportEnd c hr).guards = c.guards := by
  obtain ⟨b, path, gdr, pd, plb, vlt, he, -⟩ := exportEnd_eq c hr
  rw [he]
  rfl

theorem classAction_guards (cls : FCls) (cause ph : Nat) (code : BitVec 16) (h : cls ≠ .d) :
    (classAction c cls cause ph code).guards = c.guards := by
  cases cls with
  | d => exact absurd rfl h
  | b => rfl
  | c => rfl
  | a =>
    refine (exportEnd_guards (noteChisel c.gdr (chiselAll c cause ph) code) true).trans ?_
    rw [noteChisel_eq]
    rfl

/-- A fault below class D touches neither the watchdog nor the thermal state (R284). -/
theorem faultWith_guards (code : BitVec 16) (inst : BitVec 8) (row : FCls) (p : ProbeSt) (probe : Bool) (cause ph : Nat)
    (h : classInForce c code row ≠ .d) : (faultWith c code inst row p probe cause ph).guards = c.guards := by
  have hlatch : (latchRecord (latchPut c code inst (classInForce c code row) p) code inst).guards = c.guards := by
    obtain ⟨o, n, q, e⟩ := latchRecord_eq (latchPut c code inst (classInForce c code row) p) code inst
    rw [e, latchPut_eq]
    rfl
  have hprobe : ∀ d : Core, (if probe = true then queueProbe d code inst else d).guards = d.guards := fun d => by
    rw [queueProbe_eq]
    split <;> rfl
  have hraised : ∀ (d : Core) (k : FCls), (raisedC d code row k).guards = d.guards := fun d k => by
    unfold raisedC
    split <;> rfl
  have hexport : ∀ d : Core, (exportFault d code).guards = d.guards := fun d => by
    unfold exportFault
    split
    · exact exportEnd_guards d true
    · rfl
  have hinst : ∀ b d : Core, (noteInst b d inst).guards = d.guards := fun b d => by
    unfold noteInst
    split <;> rfl
  unfold faultWith
  dsimp only
  rw [hinst, hexport, hraised, classAction_guards _ _ _ _ _ h, hprobe, hlatch]

theorem spares_faultWith (code : BitVec 16) (inst : BitVec 8) {row : FCls} (p : ProbeSt) (probe : Bool) (cause ph : Nat)
    (hrow : row ≠ .d) : Spares c (faultWith c code inst row p probe cause ph) := fun hn =>
  ⟨faultWith_kept _ _ _ _ _ _ _ hn hrow, faultWith_guards c code inst row p probe cause ph (classInForce_ne code hn hrow)⟩

theorem spares_fault {code : BitVec 16} (inst : BitVec 8) (hrow : (rowClass code).getD .b ≠ .d) :
    Spares c (fault c code inst) := spares_faultWith c code inst .pending true 3 0 hrow

theorem spares_queueProbe (code : BitVec 16) (inst : BitVec 8) : Spares c (queueProbe c code inst) :=
  spares_of_eq (queueProbe_kept _ _ _) (by rw [queueProbe_eq]; rfl)

theorem spares_sysClosure : Spares c (sysClosure c) := by
  unfold sysClosure
  split
  · exact spares_of_eq rfl rfl
  · rename_i v0 _
    have hbook : Spares c (bookDerived (bookInjected c) v0) := by
      refine spares_of_eq (by simp) ?_
      unfold bookDerived bookInjected
      repeat' split
      all_goals rfl
    have hmarks : ∀ g : LdgG, Spares c { bookDerived (bookInjected c) v0 with ldg := g } := fun _ =>
      hbook.trans (spares_of_eq rfl rfl)
    dsimp only
    split
    · exact ((hmarks _).trans (spares_faultWith _ 0x0801 0 .pending false 3 0 (by decide))).trans
        (spares_foldl (fun d k => spares_queueProbe d 0x0801 (BitVec.ofNat 8 k)) closureChans _)
    · exact hmarks _

theorem spares_inputClosure : Spares c (inputClosure c) := by
  unfold inputClosure
  dsimp only
  refine .trans ?_ (spares_foldl (fun d i => .trans ?_ (spares_fault _ _ (by decide))) _ _)
  · exact spares_of_eq rfl rfl
  · exact spares_of_eq rfl rfl

theorem spares_pulseClose : Spares c (pulseClose c) := by
  unfold pulseClose
  dsimp only
  have hbad : ∀ (d : Core) (n : Nat), Spares d (fault (chiselPhase d n 4) 0x0804 (BitVec.ofNat 8 (n + 1))) := fun d n =>
    .trans (d := chiselPhase d n 4) (spares_of_eq rfl rfl) (spares_fault _ _ (by decide))
  generalize List.filter _ (List.range 4) = bad
  refine (spares_foldl hbad bad c).trans ?_
  exact spares_of_eq rfl rfl

theorem spares_closeFactor : Spares c (closeFactor c) := by
  unfold closeFactor
  dsimp only
  split
  · exact spares_of_eq rfl rfl
  · split
    · exact spares_of_eq rfl rfl
    · refine .trans ?_ (spares_fault _ 0 (by decide))
      exact spares_of_eq rfl rfl

theorem spares_closeMarks : Spares c (closeMarks c) := spares_of_eq rfl rfl

theorem spares_modeBook : Spares c (modeBook c) := spares_of_eq rfl rfl

theorem spares_closeFrames (net : List Int) : Spares c (closeFrames c net) := by
  refine spares_of_eq (closeFrames_kept c net) ?_
  unfold closeFrames twSend
  dsimp only
  split <;> rfl

/-- A ledger close moves neither the lifecycle nor the watchdog nor the thermal state (R263–R269). -/
theorem spares_closeLedger : Spares c (closeLedger c) := by
  unfold closeLedger
  dsimp only
  refine .trans ?_ (spares_closeFrames _ _)
  refine .trans ?_ (spares_closeMarks _)
  refine .trans ?_ (spares_modeBook _)
  refine .trans ?_ (spares_closeFactor _)
  refine .trans ?_ (spares_pulseClose _)
  refine .trans ?_ (spares_inputClosure _)
  refine .trans ?_ (spares_sysClosure _)
  exact spares_of_eq rfl rfl

/-! ### What the checkpoint and the NVM leave -/

theorem logBegin_guards (n : Nat) : ∀ c : Core, (logBegin n c).guards = c.guards := by
  induction n with
  | zero => exact fun _ => rfl
  | succ n ih =>
    intro c
    unfold logBegin
    split
    · rfl
    · exact ih (dropRecord c)
    · unfold freshRecord
      split <;> rfl
    · rfl

theorem nvmKick_guards : (nvmKick c).guards = c.guards := by
  unfold nvmKick
  split
  · rfl
  · dsimp only
    generalize hd : (if inRun c = true then logBegin (c.own.q.length + 1) c else c) = d
    have hguards : d.guards = c.guards := by
      rw [← hd]
      split
      · exact logBegin_guards _ c
      · rfl
    repeat' split
    all_goals exact hguards

theorem queueCheckpoint_guards (periodic nextEpoch : Bool) : (queueCheckpoint c periodic nextEpoch).guards = c.guards := by
  rw [queueCheckpoint, queueValues, queueRec_eq]
  rfl

/-- The controller that enters Dormant, its close and its checkpoint behind it (R113). -/
def Core.closedForDormant (c : Core) : Core :=
  nvmKick (queueCheckpoint (noteClose (closeLedger c)) false c.own.afterClosing)

theorem noteClose_guards : (noteClose c).guards = c.guards := rfl

theorem spares_closedForDormant : Spares c c.closedForDormant := by
  refine (spares_closeLedger c).trans (spares_of_eq (by simp [Core.closedForDormant]) ?_)
  rw [Core.closedForDormant, nvmKick_guards, queueCheckpoint_guards, noteClose_guards]

end

/-! ### What the entry sets -/

/-- What holds of every changed entry holds of the changed table. -/
theorem forall_mem_vmap {α β : Type} {n : Nat} {f : Nat → α → β} {p : β → Prop} (h : ∀ i x, p (f i x)) (v : Vector α n) :
    ∀ y ∈ (vmap f v).toList, p y := by
  intro y hy
  obtain ⟨i, hi, rfl⟩ := List.mem_iff_getElem.1 hy
  have hn : i < n := by simpa using hi
  simpa using h i v[i]

/-- The BATFET turned on moves nothing beside itself. -/
theorem batfetFull_leaves (c : Core) : (batfetFull c).path.inputs = c.path.inputs ∧ (batfetFull c).life = c.life ∧
    (batfetFull c).plb = c.plb ∧ (batfetFull c).guards = c.guards := by
  unfold batfetFull
  split <;> exact ⟨rfl, rfl, rfl, rfl⟩

/-- What the entry into Dormant makes of the controller (R113, R114). -/
structure EntersDormant (c d : Core) : Prop where
  st : d.life.st = .dormant
  mode : d.life.mode = .none
  tick : d.life.dormTick = some c.life.tick
  pwmLock : d.life.pwmLock = false
  sysLock : d.life.sysLock = false
  stage : d.gdr.st = .stopped
  phases : ∀ p ∈ d.gdr.ph.toList, p.st = .off
  inputs : ∀ x ∈ d.path.inputs.toList, x.pair = false
  shed : ∀ g ∈ d.plb.p.toList, g.shed = false
  notice : d.plb.dormNotice = true
  due : d.life.due = []
  guards : d.guards = c.guards

theorem dormantEnter_enters {c : Core} (hrun : c.life.st = .run) (hn : noResetRaised c) :
    EntersDormant c (dormantEnter c) := by
  obtain ⟨hclose, -⟩ := spares_closeLedger c (not_raises_of_noResetRaised hn)
  obtain ⟨hkept, hguards⟩ := spares_closedForDormant c (not_raises_of_noResetRaised hn)
  have hst : (closeLedger c).life.st = .run := (st_of_kept hclose).trans hrun
  have hclosed : nvmKick (queueCheckpoint (noteClose (closeLedger c)) false c.own.afterClosing) = c.closedForDormant := rfl
  rw [dormantEnter, if_neg (by simp [inRun, hst]), hclosed]
  generalize c.closedForDormant = d at hkept hguards
  obtain ⟨hinputs, hlife, hplb, hsame⟩ := batfetFull_leaves (allPairsOff (dormantNotice d))
  exact
    { st := rfl, mode := rfl, pwmLock := rfl, sysLock := rfl, stage := rfl, due := rfl
      tick := congrArg some ((congrArg LifeG.tick hlife).trans (congrArg Kept.tick hkept))
      phases := forall_mem_vmap (p := fun p : PhaseG => p.st = .off) (fun _ _ => rfl) _
      inputs := by
        show ∀ x ∈ (batfetFull (allPairsOff (dormantNotice d))).path.inputs.toList, x.pair = false
        rw [hinputs]
        exact forall_mem_vmap (p := fun x : InputG => x.pair = false) (fun _ _ => rfl) _
      shed := forall_mem_vmap (p := fun g : PlbPort => g.shed = false) (fun _ _ => rfl) _
      notice := congrArg PlbG.dormNotice hplb
      guards := hsame.trans hguards }

/-! ### The commands -/

section
variable {i : Instr} {s : State}

/-- Where Dormant may be entered, each of its two commands enters it on its own further condition (R112, R117). -/
theorem exec_dormant_enters (hi : (i = .dormantEntry ∧ (s.core.maq.path.tIdle ≠ 0 ∨ s.core.life.dormReq = true)) ∨
    (i = .dormantReentry ∧ s.core.life.wakeWd = true ∧ s.core.wdg.missing = 0)) (hm : dormantMay s.core = true) :
    exec i s = onCore s dormantEnter := by
  rcases hi with ⟨rfl, hidle⟩ | ⟨rfl, hwake, hmask⟩
  · show execDormantEntry s = _
    rw [execDormantEntry, onCoreIf_pos _ _ _ (by simpa [hm] using hidle)]
  · show execDormantReentry s = _
    rw [execDormantReentry, onCoreIf_pos _ _ _ (by simp [hm, hwake, hmask])]

theorem exec_dormant_stays (hi : i = .dormantEntry ∨ i = .dormantReentry) (hm : dormantMay s.core = false) :
    exec i s = .next s := by
  rcases hi with rfl | rfl
  · show execDormantEntry s = _
    rw [execDormantEntry, onCoreIf_neg _ _ _ (by simp [hm])]
  · show execDormantReentry s = _
    rw [execDormantReentry, onCoreIf_neg _ _ _ (by simp [hm])]

end

theorem not_dormantMay {c : Core} (h : merged c 21 ≠ 0 ∨ c.life.st ≠ .run) : dormantMay c = false := by
  rcases h with h | h <;> simp [dormantMay, inRun, h]

theorem run_of_dormantMay {c : Core} (h : dormantMay c = true) : c.life.st = .run := by
  by_contra hst
  exact absurd (h.symm.trans (not_dormantMay (.inr hst))) (by decide)

end Sys2Proof.Machine

open Sys2Proof Sys2Proof.Machine

/-- Settles O16: the ledger close of the entry takes no reset (`spares_closeLedger`), so that `dormantEnter` sets what R113
gives; without `dormantMay` neither command acts. -/
theorem dormantIsEntered : Obligations.DormantIsEntered := by
  intro i s hi
  refine ⟨fun hm hn => ?_, fun h => exec_dormant_stays (hi.imp And.left And.left) (not_dormantMay h)⟩
  have h := dormantEnter_enters (run_of_dormantMay hm) hn
  have hexec := (exec_dormant_enters hi hm).trans (onCore_of_ne s dormantEnter (by simp [h.st]))
  generalize dormantEnter s.core = d at h hexec
  exact ⟨_, hexec, h.st, h.mode, h.tick, h.pwmLock, h.sysLock, h.stage, h.phases, h.inputs, h.shed, h.notice, h.due,
    congrArg Prod.fst h.guards, congrArg Prod.snd h.guards, rfl, rfl, rfl⟩
end

section
/-! PROOFS. The parts of the power path: its inputs and pairs, the parked stage, and what the loss of an input, a turn-on that
waits and the end of exporting leave (chapter 05). -/

namespace Sys2Proof.Machine

/-! ### Inputs -/

theorem inpIx_lt (i : Inp) : inpIx i < 3 := by cases i <;> decide

theorem inpIx_inj : ∀ {i j : Inp}, inpIx i = inpIx j → i = j
  | .main, .main, _ | .pda, .pda, _ | .pdb, .pdb, _ => rfl
  | .main, .pda, h | .main, .pdb, h | .pda, .main, h | .pda, .pdb, h | .pdb, .main, h | .pdb, .pda, h => absurd h (by decide)

section
variable (p : PathG) (f : InputG → InputG) {i j : Inp}

@[simp] theorem updInp_inp_self (i : Inp) : (p.updInp i f).inp i = f (p.inp i) := vget_vupd_self _ _ _ _ (inpIx_lt i)

@[simp] theorem updInp_xfer (i : Inp) : (p.updInp i f).xfer = p.xfer := rfl
@[simp] theorem updInp_export (i : Inp) : (p.updInp i f).export_ = p.export_ := rfl

theorem updInp_inp_ne (h : j ≠ i) : (p.updInp i f).inp j = p.inp j := vget_vupd_ne _ _ _ _ _ fun e => h (inpIx_inj e)

end

/-- An input gains nothing from `x` to `y`: its requalification delay stands, and neither its qualification nor its pair comes
on. -/
structure InputG.Falls (x y : InputG) : Prop where
  trq : y.trq = x.trq
  qual : x.qual = false → y.qual = false
  pair : x.pair = false → y.pair = false

theorem InputG.Falls.refl (x : InputG) : x.Falls x := ⟨rfl, id, id⟩

theorem InputG.Falls.trans {x y z : InputG} (h : x.Falls y) (h' : y.Falls z) : x.Falls z :=
  ⟨h'.trq.trans h.trq, fun e => h'.qual (h.qual e), fun e => h'.pair (h.pair e)⟩

/-- No input of the path gains anything. -/
def PathG.Falls (p q : PathG) : Prop := ∀ i, (p.inp i).Falls (q.inp i)

section
variable {p q r : PathG}

theorem PathG.Falls.trans (h : p.Falls q) (h' : q.Falls r) : p.Falls r := fun i => (h i).trans (h' i)

theorem PathG.falls_of_inputs (h : q.inputs = p.inputs) : p.Falls q := fun i => by
  rw [PathG.inp, PathG.inp, h]
  exact .refl _

theorem PathG.Falls.refl (p : PathG) : p.Falls p := falls_of_inputs rfl

theorem PathG.falls_updInp (p : PathG) (i : Inp) {f : InputG → InputG} (hf : ∀ x : InputG, x.Falls (f x)) :
    p.Falls (p.updInp i f) := by
  intro j
  by_cases h : j = i
  · subst h
    rw [updInp_inp_self]
    exact hf _
  · rw [updInp_inp_ne _ _ h]
    exact .refl _

/-- An input that is out: disqualified, its pair off and its requalification delay running (R137). -/
structure InputG.Out (x : InputG) : Prop where
  trq : x.trq = true
  qual : x.qual = false
  pair : x.pair = false

/-- An input that is out stays out where it gains nothing. -/
theorem InputG.Out.falls {x y : InputG} (h : x.Out) (hf : x.Falls y) : y.Out :=
  ⟨hf.trq.trans h.trq, hf.qual h.qual, hf.pair h.pair⟩

end

/-! ### Pairs, the BATFET and the parked stage -/

section
variable (c : Core) (i : Inp)

theorem pairOff_path : (pairOff c i).path = { c.path.updInp i fun x => { x with pair := false } with
    offWait := if (c.path.inp i).pair = true then some i else c.path.offWait } := by
  unfold pairOff
  dsimp only
  split <;> rfl

theorem pairOff_inp : (pairOff c i).path.inp i = { c.path.inp i with pair := false } := by
  rw [pairOff_path]
  exact updInp_inp_self _ _ _

theorem pairOff_falls : c.path.Falls (pairOff c i).path := by
  rw [pairOff_path]
  exact PathG.falls_updInp c.path i fun x => ⟨rfl, id, fun _ => rfl⟩

theorem batfetFull_eq : batfetFull c = { c with path := { c.path with batfet := (batfetFull c).path.batfet } } := by
  unfold batfetFull
  split <;> rfl

theorem batfetFull_free {c : Core} (h : c.path.uvOpen = false ∧ c.path.linFault = false ∧ c.path.held = false) :
    batfetFull c = { c with path := { c.path with batfet := .full } } := by
  simp [batfetFull, h]

/-- A BATFET that is fully on stays so. -/
theorem batfetFull_of_full {c : Core} (h : c.path.batfet = .full) : batfetFull c = c := by
  unfold batfetFull
  split
  · rfl
  · rw [← h]

@[simp] theorem stagePark_path : (stagePark c).path = c.path := by rw [stagePark_eq]

/-- A stage that is parked does not switch (R142, R214). -/
theorem stagePark_ne_switching : (stagePark c).gdr.st ≠ .switching := by
  unfold stagePark
  split
  · rename_i h
    simp only [Bool.and_eq_true, beq_iff_eq] at h
    simp [h.2]
  · split
    · simp
    · assumption

theorem stagePark_pairOff : stagePark (pairOff c i) =
    { c with path := (pairOff c i).path, gdr := (stagePark (pairOff c i)).gdr } := by
  obtain ⟨path, gdr, h, -⟩ := stagePark_pairOff_eq c i
  have hpath := congrArg Core.path h
  rw [stagePark_path] at hpath
  rw [hpath, h]

theorem takeDirection_path : (takeDirection c).path = c.path := by
  unfold takeDirection
  split <;> rfl

theorem stageStart_path (full : Bool) : (stageStart c full).path = c.path := by
  unfold stageStart
  split
  · rfl
  · rw [takeDirection_path]
    cases full <;> rfl

theorem calibrateNext_path : (calibrateNext c).path = c.path := by
  unfold calibrateNext
  repeat' split
  all_goals rfl

theorem stageUnpark_path : (stageUnpark c).path = c.path := by
  unfold stageUnpark
  split
  · rfl
  · split
    · rfl
    · exact stageStart_path _ _
    · dsimp only
      split
      · exact stageStart_path _ _
      · split
        · exact stageStart_path _ _
        · split
          · exact calibrateNext_path _
          · rfl

theorem setDirection_path (rev : Bool) : (setDirection c rev).path = c.path := by
  rw [setDirection, takeDirection_path]
  exact stagePark_path c

end

/-! ### No input follows -/

section
variable (c : Core) (i : Inp)

/-- The end of the active input touches the path, the stage and the path-driven mark alone. -/
theorem noInput_eq : noInput c i = { c with
    path := (noInput c i).path, gdr := (stagePark (pairOff c i)).gdr, life := { c.life with pathDriven := true } } := by
  rw [noInput, stagePark_pairOff, batfetFull_eq]

/-- What stands where the active input is gone with none to follow (R138, R149). -/
structure InputEnded (c d : Core) (i : Inp) : Prop where
  active : d.path.active = none
  xfer : d.path.xfer = none
  inputs : d.path.inputs = (pairOff c i).path.inputs
  exports : d.path.export_ = c.path.export_ ∧ d.path.exportWait = c.path.exportWait
  counts : d.path.xferAbt = c.path.xferAbt
  stage : d.gdr.st ≠ .switching
  driven : d.life.pathDriven = true
  same : d.vlt = c.vlt ∧ d.ldg = c.ldg ∧ d.otp = c.otp

theorem noInput_ended : InputEnded c (noInput c i) i := by
  have hpath : (noInput c i).path.inputs = (pairOff c i).path.inputs ∧ (noInput c i).path.export_ = c.path.export_ ∧
      (noInput c i).path.exportWait = c.path.exportWait ∧ (noInput c i).path.xferAbt = c.path.xferAbt := by
    rw [noInput, batfetFull_eq, stagePark_path, pairOff_path]
    exact ⟨rfl, rfl, rfl, rfl⟩
  obtain ⟨hinputs, hexport, hwait, habt⟩ := hpath
  exact
    { active := rfl, xfer := rfl, inputs := hinputs, exports := ⟨hexport, hwait⟩, counts := habt
      stage := by
        rw [noInput_eq]
        exact stagePark_ne_switching _
      driven := rfl
      same := by
        rw [noInput_eq]
        exact ⟨rfl, rfl, rfl⟩ }

theorem InputEnded.inp {c d : Core} {i : Inp} (h : InputEnded c d i) : d.path.inp i = { c.path.inp i with pair := false } := by
  rw [PathG.inp, h.inputs]
  exact pairOff_inp c i

theorem noInput_falls : c.path.Falls (noInput c i).path :=
  (pairOff_falls c i).trans (PathG.falls_of_inputs (noInput_ended c i).inputs)

end

/-! ### Transfers and waiting exports -/

section
variable (c : Core)

theorem beginTransfer_eq (out inc : Inp) (loss : Bool) : beginTransfer c out inc loss =
    { c with path := (beginTransfer c out inc loss).path } := by
  rw [beginTransfer, batfetFull_eq, pairOff_eq]

theorem beginTransfer_path (out inc : Inp) (loss : Bool) :
    (beginTransfer c out inc loss).path.inputs = (pairOff c out).path.inputs ∧
      (beginTransfer c out inc loss).path.export_ = c.path.export_ := by
  rw [beginTransfer, batfetFull_eq, pairOff_path]
  exact ⟨rfl, rfl⟩

theorem beginTransfer_falls (out inc : Inp) (loss : Bool) : c.path.Falls (beginTransfer c out inc loss).path :=
  (pairOff_falls c out).trans (PathG.falls_of_inputs (beginTransfer_path c out inc loss).1)

theorem exportReverse_inputs : (exportReverse c).path.inputs = c.path.inputs := by
  unfold exportReverse
  split
  · rw [stageUnpark_path, setDirection_path]
  · rfl

theorem exportBegin_falls (e : Export) : c.path.Falls (exportBegin c e).path := by
  unfold exportBegin
  split
  · exact PathG.falls_of_inputs rfl
  · have hbegun : ∀ d x : Core, c.path.Falls d.path → x.path.inputs = ((batfetFull d).path.updInp e.port.inp
        fun x => { x with qual := false, pairInClose := true }).inputs → c.path.Falls x.path := fun d x hd hx =>
      (hd.trans (PathG.falls_of_inputs (batfetFull_leaves d).1)).trans
        ((PathG.falls_updInp _ e.port.inp (f := fun x => { x with qual := false, pairInClose := true })
          fun _ => ⟨rfl, fun _ => rfl, id⟩).trans (PathG.falls_of_inputs hx))
    cases c.path.active with
    | none =>
      dsimp only
      split
      · exact hbegun c _ (.refl _) rfl
      · exact hbegun c _ (.refl _) (exportReverse_inputs _)
    | some i =>
      dsimp only
      split
      · exact hbegun (pairOff c i) _ (pairOff_falls c i) rfl
      · exact hbegun (pairOff c i) _ (pairOff_falls c i) (exportReverse_inputs _)

theorem exportWaiting_falls : c.path.Falls (exportWaiting c).path := by
  unfold exportWaiting
  split
  · split
    · exact exportBegin_falls c _
    · exact .refl _
  · exact .refl _

theorem exportWaiting_none {c : Core} (h : c.path.exportWait = none) : exportWaiting c = c := by
  simp [exportWaiting, h]

end

/-! ### An input is lost (R161) -/

/-- The controller with an input disqualified. -/
def Core.unqualified (c : Core) (i : Inp) : Core := { c with path := c.path.updInp i fun x => { x with qual := false } }

section
variable (c : Core) (i : Inp)

theorem unqualified_falls : c.path.Falls (c.unqualified i).path :=
  PathG.falls_updInp c.path i fun _ => ⟨rfl, fun _ => rfl, id⟩

theorem unqualified_selectable : selectable (c.unqualified i) i = false := by
  simp [selectable, Core.unqualified]

theorem unqualified_selectable_ne {j : Inp} (h : j ≠ i) : selectable (c.unqualified i) j = selectable c j := by
  unfold selectable Core.unqualified
  rw [updInp_inp_ne _ _ h]
  rfl

/-- With the active input no longer selectable, the selection transfers, ends without an input, or may not act (R138). -/
theorem selectInput_lost {c : Core} {i : Inp} (ha : c.path.active = some i) (hs : selectable c i = false) :
    selectInput c = c ∨ (∃ b, selectInput c = beginTransfer c i b true) ∨ selectInput c = noInput c i := by
  unfold selectInput
  split
  · exact .inl rfl
  · simp only [ha, hs, Bool.not_false, if_true]
    cases hb : bestInput c with
    | none => exact .inr (.inr rfl)
    | some b => exact .inr (.inl ⟨b, rfl⟩)

/-- With no input selectable and nothing that bars the selection, the active input ends with none to follow (R138). -/
theorem selectInput_none {c : Core} {i : Inp} (ha : c.path.active = some i) (hs : ∀ j, selectable c j = false)
    (hf : pathFree c = true) (hx : c.path.xfer = none) (he : c.path.export_ = none) (ho : c.path.exOff = none) :
    selectInput c = noInput c i := by
  have hbest : bestInput c = none := List.find?_eq_none.2 fun j _ => by simp [hs j]
  simp [selectInput, ha, hs, hf, hx, he, ho, hbest]

theorem inputLost_transfer {x : Xfer} (hx : c.path.xfer = some x) :
    inputLost c i = if x.inc = i then exportWaiting (noInput (c.unqualified i) i) else c.unqualified i := by
  simp only [inputLost, updInp_xfer, hx]
  rfl

theorem inputLost_settled (hx : c.path.xfer = none) :
    inputLost c i = if c.path.active = some i then selectInput (c.unqualified i) else c.unqualified i := by
  simp only [inputLost, updInp_xfer, hx]
  rfl

/-- All that the loss of an input can do (R161, R162). -/
theorem inputLost_cases : inputLost c i = c.unqualified i ∨
    inputLost c i = exportWaiting (noInput (c.unqualified i) i) ∧ c.path.xfer ≠ none ∨
    (∃ b, inputLost c i = beginTransfer (c.unqualified i) i b true) ∨ inputLost c i = noInput (c.unqualified i) i := by
  cases hx : c.path.xfer with
  | some x =>
    rw [inputLost_transfer c i hx]
    split
    · exact .inr (.inl ⟨rfl, nofun⟩)
    · exact .inl rfl
  | none =>
    rw [inputLost_settled c i hx]
    split
    · rename_i ha
      rcases selectInput_lost (c := c.unqualified i) ha (unqualified_selectable c i) with h | h | h
      · exact .inl h
      · exact .inr (.inr (.inl h))
      · exact .inr (.inr (.inr h))
    · exact .inl rfl

theorem inputLost_falls : c.path.Falls (inputLost c i).path := by
  have hu := unqualified_falls c i
  rcases inputLost_cases c i with h | ⟨h, -⟩ | ⟨b, h⟩ | h
  · rwa [h]
  · rw [h]
    exact (hu.trans (noInput_falls _ i)).trans (exportWaiting_falls _)
  · rw [h]
    exact hu.trans (beginTransfer_falls _ i b true)
  · rw [h]
    exact hu.trans (noInput_falls _ i)

/-- With no transfer in progress the loss of an input leaves the latches as they are. -/
theorem inputLost_flt (hx : c.path.xfer = none) : (inputLost c i).flt = c.flt := by
  rcases inputLost_cases c i with h | ⟨-, h⟩ | ⟨b, h⟩ | h
  · rw [h]
    rfl
  · exact absurd hx h
  · rw [h, beginTransfer_eq]
    rfl
  · rw [h, noInput_eq]
    rfl

/-- Where nothing exports and nothing waits to, the loss of an input leaves it so. -/
theorem inputLost_exports (he : c.path.export_ = none) (hw : c.path.exportWait = none) :
    (inputLost c i).path.export_ = none := by
  obtain ⟨hexport, hwait⟩ := (noInput_ended (c.unqualified i) i).exports
  rcases inputLost_cases c i with h | ⟨h, -⟩ | ⟨b, h⟩ | h
  · rw [h]
    exact he
  · rw [h, exportWaiting_none (hwait.trans hw)]
    exact hexport.trans he
  · obtain ⟨-, hexport⟩ := beginTransfer_path (c.unqualified i) i b true
    rw [h]
    exact hexport.trans he
  · rw [h]
    exact hexport.trans he

/-- An input that is neither active nor comes in is disqualified, and nothing else changes. -/
theorem inputLost_idle (hx : c.path.xfer = none) (ha : c.path.active ≠ some i) : inputLost c i = c.unqualified i := by
  rw [inputLost_settled c i hx, if_neg ha]

/-- The loss of the active input where no other is selectable (R138, R161). -/
theorem inputLost_last (ha : c.path.active = some i) (hf : pathFree c = true) (hx : c.path.xfer = none)
    (he : c.path.export_ = none) (ho : c.path.exOff = none) (hs : ∀ j, j ≠ i → selectable c j = false) :
    inputLost c i = noInput (c.unqualified i) i := by
  rw [inputLost_settled c i hx, if_pos ha]
  refine selectInput_none ha (fun j => ?_) hf hx he ho
  by_cases h : j = i
  · rw [h, unqualified_selectable]
  · rw [unqualified_selectable_ne c i h, hs j h]

end

/-! ### The end of exporting (R156) -/

section
variable (c : Core)

theorem dropMedium_acct {a : Nat} (h : 4064 ≤ a) : (dropMedium c).vlt.acct a = c.vlt.acct a := by
  have hbook : ∀ (as : List Nat) (k : Column) (f : ColRec → ColRec) (d : Core), a ∉ as →
      (bookAll d as k f).vlt.acct a = d.vlt.acct a := by
    intro as k f
    induction as with
    | nil => exact fun _ _ => rfl
    | cons b as ih =>
      intro d hm
      obtain ⟨hb, has⟩ := not_or.1 (mt List.mem_cons.2 hm)
      exact (ih _ has).trans (VltG.acct_book_ne _ _ _ _ _ hb)
  have hmem : ∀ d : Core, a ∉ acctsOf d fun a => decide (a < 4064) && acctPort a == 3 := fun d hm => by
    simp only [acctsOf, List.mem_filter, Bool.and_eq_true, decide_eq_true_eq] at hm
    omega
  unfold dropMedium
  split
  · rfl
  · dsimp only
    rw [hbook _ _ _ _ (hmem _), hbook _ _ _ _ (hmem _)]
    rfl

/-- The end of exporting on a Type-C port leaves the records of the internal accounts as they are. -/
theorem pdExportEnd_acct (p : PdId) {a : Nat} (h : 4064 ≤ a) : (pdExportEnd c p).vlt.acct a = c.vlt.acct a := by
  have halt : ∀ d : Core, (altExit d p).vlt.acct a = d.vlt.acct a := fun d => by
    unfold altExit
    split
    · exact dropMedium_acct _ h
    · rfl
  exact halt _

theorem acct_internal (p : ExPort) : 4064 ≤ p.acct := by cases p <;> decide

theorem exportEnd_none {c : Core} (h : c.path.export_ = none) (hr : Bool) :
    exportEnd c hr = { c with path := { c.path with exportWait := none } } := by
  simp [exportEnd, h]

/-- What the end of exporting in progress leaves (R156): its pair is off and waits to be confirmed so, the stage is parked, and
its tokens are in transit. -/
structure ExportEnded (c d : Core) (e : Export) : Prop where
  path : d.path = { (pairOff c e.port.inp).path with export_ := none, exportWait := none, exOff := some e.port }
  stage : d.gdr.st ≠ .switching
  driven : d.life.pathDriven = true
  tokens : (d.vlt.acct e.port.acct).sup = (c.vlt.acct e.port.acct).sup.release

theorem exportEnd_ended {c : Core} {e : Export} (h : c.path.export_ = some e) (hr : Bool) :
    ExportEnded c (exportEnd c hr) e := by
  have hpark := stagePark_pairOff c e.port.inp
  have hswitch := stagePark_ne_switching (pairOff c e.port.inp)
  have htokens : ((c.vlt.book e.port.acct .supply (c.vlt.acct e.port.acct).sup.release).acct e.port.acct).sup =
      (c.vlt.acct e.port.acct).sup.release := VltG.col_book_self c.vlt e.port.acct .supply _
  unfold exportEnd
  simp only [h]
  rw [hpark]
  split
  · split
    · rename_i p _ _
      have hacct := fun d => pdExportEnd_acct d p (acct_internal e.port)
      have hend := fun d => pdExportEnd_eq d p
      exact
        { path := congrArg Core.path (hend _)
          stage := (congrArg (fun d : Core => d.gdr.st) (hend _)).trans_ne hswitch
          driven := congrArg (fun d : Core => d.life.pathDriven) (hend _)
          tokens := (congrArg AcctRec.sup (hacct _)).trans htokens }
    · exact ⟨rfl, hswitch, rfl, htokens⟩
  · exact ⟨rfl, hswitch, rfl, htokens⟩

theorem ExportEnded.pair {c d : Core} {e : Export} (h : ExportEnded c d e) : (d.path.inp e.port.inp).pair = false := by
  rw [h.path]
  show ((pairOff c e.port.inp).path.inp e.port.inp).pair = false
  rw [pairOff_inp]

theorem exportEnd_falls (hr : Bool) : c.path.Falls (exportEnd c hr).path := by
  cases he : c.path.export_ with
  | none =>
    rw [exportEnd_none he]
    exact PathG.falls_of_inputs rfl
  | some e =>
    refine (pairOff_falls c e.port.inp).trans (PathG.falls_of_inputs ?_)
    rw [(exportEnd_ended he hr).path]

theorem exportEnd_waits (hr : Bool) : (exportEnd c hr).path.exportWait = none := by
  cases he : c.path.export_ with
  | none => rw [exportEnd_none he]
  | some e => rw [(exportEnd_ended he hr).path]

end

end Sys2Proof.Machine
end

section
/-! PROOFS. What a fault below class D leaves of the power path (chapters 05 and 11). -/

namespace Sys2Proof.Machine

/-- The path but for what a fault may touch of an idle one: the `exportWait`, the BATFET with its marks, and the Safe Hold
converter. -/
def PathG.feed (p : PathG) : PathG :=
  { p with exportWait := none, batfet := .off, uvOpen := false, linFault := false, shConv := false }

/-- What a fault below class D leaves of the path: no input gains, the marks of the BATFET faults stand, nothing comes to wait
for exporting, and the feed of a path that exports nothing stays. -/
structure PathLeftByFault (c d : Core) : Prop where
  falls : c.path.Falls d.path
  dropFault : d.path.dropFault = c.path.dropFault
  off : c.path.batfet = .off → d.path.batfet = .off
  linFault : c.path.linFault = true → d.path.linFault = true
  waits : c.path.exportWait = none → d.path.exportWait = none
  driven : c.life.pathDriven = true → d.life.pathDriven = true
  feed : c.path.export_ = none → d.path.feed = c.path.feed

section
variable {c d e : Core}

theorem PathLeftByFault.trans (h : PathLeftByFault c d) (h' : PathLeftByFault d e) : PathLeftByFault c e :=
  { falls := h.falls.trans h'.falls
    dropFault := h'.dropFault.trans h.dropFault
    off := fun x => h'.off (h.off x)
    linFault := fun x => h'.linFault (h.linFault x)
    waits := fun x => h'.waits (h.waits x)
    driven := fun x => h'.driven (h.driven x)
    feed := fun x => (h'.feed ((congrArg PathG.export_ (h.feed x)).trans x)).trans (h.feed x) }

theorem pathLeft_of_eq (hp : d.path = c.path) (hd : d.life.pathDriven = c.life.pathDriven) : PathLeftByFault c d :=
  { falls := PathG.falls_of_inputs (congrArg PathG.inputs hp)
    dropFault := congrArg PathG.dropFault hp
    off := (congrArg PathG.batfet hp).trans
    linFault := (congrArg PathG.linFault hp).trans
    waits := (congrArg PathG.exportWait hp).trans
    driven := hd.trans
    feed := fun _ => congrArg PathG.feed hp }

theorem pathLeft_exportEnd (c : Core) (hr : Bool) : PathLeftByFault c (exportEnd c hr) := by
  have hfalls := exportEnd_falls c hr
  have hwait := exportEnd_waits c hr
  cases he : c.path.export_ with
  | none =>
    have hend := exportEnd_none he hr
    rw [hend] at hfalls ⊢
    exact { falls := hfalls, dropFault := rfl, off := id, linFault := id, waits := fun _ => rfl, driven := id
            feed := fun _ => rfl }
  | some e =>
    have hend := exportEnd_ended he hr
    have hpath : (exportEnd c hr).path.dropFault = c.path.dropFault ∧ (exportEnd c hr).path.batfet = c.path.batfet ∧
        (exportEnd c hr).path.linFault = c.path.linFault := by
      rw [hend.path, pairOff_path]
      exact ⟨rfl, rfl, rfl⟩
    obtain ⟨hdrop, hbat, hlin⟩ := hpath
    exact { falls := hfalls, dropFault := hdrop, off := hbat.trans, linFault := hlin.trans, waits := fun _ => hwait
            driven := fun _ => hend.driven, feed := fun h => nomatch he.symm.trans h }

theorem pathLeft_chiselAll (c : Core) (cause ph : Nat) : PathLeftByFault c (chiselAll c cause ph) := by
  cases hs : inSafeHold c with
  | false => exact pathLeft_of_eq (by simp [chiselAll, hs]) rfl
  | true =>
    have hpath : (chiselAll c cause ph).path = { c.path with shConv := false } := by simp [chiselAll, hs]
    refine { falls := PathG.falls_of_inputs ?_, dropFault := ?_, off := ?_, linFault := ?_, waits := ?_, driven := id
             feed := fun _ => by rw [hpath]; rfl }
    all_goals rw [hpath]
    all_goals exact id

theorem pathLeft_classAction (c : Core) (cls : FCls) (cause ph : Nat) (code : BitVec 16) (h : cls ≠ .d) :
    PathLeftByFault c (classAction c cls cause ph code) := by
  cases cls with
  | d => exact absurd rfl h
  | b => exact pathLeft_of_eq rfl rfl
  | c => exact pathLeft_of_eq rfl rfl
  | a =>
    have hnote : PathLeftByFault (chiselAll c cause ph) (noteChisel c.gdr (chiselAll c cause ph) code) := by
      rw [noteChisel_eq]
      exact pathLeft_of_eq rfl rfl
    exact (((pathLeft_chiselAll c cause ph).trans hnote).trans (pathLeft_exportEnd _ true)).trans (pathLeft_of_eq rfl rfl)

theorem pathLeft_raisedC (c : Core) (code : BitVec 16) (row cls : FCls) : PathLeftByFault c (raisedC c code row cls) := by
  unfold raisedC
  split
  · exact { falls := PathG.falls_of_inputs rfl, dropFault := rfl, off := fun _ => rfl, linFault := fun _ => rfl, waits := id
            driven := id, feed := fun _ => rfl }
  · exact pathLeft_of_eq rfl rfl

theorem pathLeft_exportFault (c : Core) (code : BitVec 16) : PathLeftByFault c (exportFault c code) := by
  unfold exportFault
  split
  · exact pathLeft_exportEnd c true
  · exact pathLeft_of_eq rfl rfl

/-- A fault found is its latch, its record and its Probe, and then the reactions of its class (R284). -/
theorem faultWith_reacts (c : Core) (code : BitVec 16) (inst : BitVec 8) (row : FCls) (p : ProbeSt) (probe : Bool)
    (cause ph : Nat) : ∃ o n f, faultWith c code inst row p probe cause ph =
      noteInst { c with own := o, free := n, flt := f }
        (exportFault (raisedC (classAction { c with own := o, free := n, flt := f } (classInForce c code row) cause ph code)
          code row (classInForce c code row)) code) inst := by
  obtain ⟨o, n, q, hrec⟩ := latchRecord_eq (latchPut c code inst (classInForce c code row) p) code inst
  unfold faultWith
  dsimp only
  rw [hrec, latchPut_eq]
  cases probe with
  | false => exact ⟨o, n, _, rfl⟩
  | true =>
    rw [if_pos rfl, queueProbe_eq]
    exact ⟨o, n, _, rfl⟩

theorem pathLeft_faultWith (c : Core) (code : BitVec 16) (inst : BitVec 8) (row : FCls) (p : ProbeSt) (probe : Bool)
    (cause ph : Nat) (h : classInForce c code row ≠ .d) : PathLeftByFault c (faultWith c code inst row p probe cause ph) := by
  obtain ⟨o, n, f, hreact⟩ := faultWith_reacts c code inst row p probe cause ph
  have hinst : ∀ b d : Core, PathLeftByFault d (noteInst b d inst) := fun b d => by
    unfold noteInst
    split <;> exact pathLeft_of_eq rfl rfl
  rw [hreact]
  refine .trans (d := { c with own := o, free := n, flt := f }) (pathLeft_of_eq rfl rfl) ?_
  exact (pathLeft_classAction _ _ cause ph code h).trans
    ((pathLeft_raisedC _ code row _).trans ((pathLeft_exportFault _ code).trans (hinst _ _)))

theorem fault_leavesPath {code : BitVec 16} (inst : BitVec 8) (hn : noResetRaised c) (hrow : (rowClass code).getD .b ≠ .d) :
    PathLeftByFault c (fault c code inst) :=
  pathLeft_faultWith c code inst _ .pending true 3 0 (classInForce_ne_d code hn hrow)

end

end Sys2Proof.Machine
end

section
/-! PROOFS. Inputs that qualify and are lost, and the faults of the power path (chapter 05). -/

namespace Sys2Proof.Machine

/-! ### Inputs that qualify and are lost -/

section
variable {s : State}

theorem exec_mainQualified (h : mayQualify s.core .main = true) :
    exec .mainQualified s = .next (s.withInput .main fun x => { x with qual := true }) := by
  show execMainQualified s = _
  exact onCoreIf_of_kept h rfl rfl

theorem exec_pdInputQualified {p : PdId} (h : mayQualify s.core (pdInp p) = true) :
    exec (.pdInputQualified p) s = .next (s.withInput (pdInp p) fun x => { x with qual := true }) := by
  show execPdInputQualified p s = _
  exact onCoreIf_of_kept h rfl rfl

end

section
variable {s : State} (hrun : s.core.life.st = .run)
include hrun

/-- A command of Run whose function keeps the lifecycle. -/
theorem onRun_of_kept {f : Core → Core} {d : Core} (hf : f s.core = d) (hd : d.kept = s.core.kept) :
    onRun s f = .next { s with core := d } := onCoreIf_of_kept ((inRun_iff _).2 hrun) hf hd

theorem exec_requalificationDelayEnd (i : Inp) :
    exec (.requalificationDelayEnd i) s = .next (s.withInput i fun x => { x with trq := false }) := by
  show execRequalificationDelayEnd i s = _
  exact onRun_of_kept hrun rfl rfl

section
variable (hexport : s.core.path.export_ = none) (hoff : s.core.path.exOff = none)
include hexport hoff

/-- An input that is not exporting is judged, and its loss acts at once (R161). -/
theorem onCoreIf_inputLost (i : Inp) {d : Core} (hd : inputLost s.core i = d) :
    onCoreIf s (fun c => inRun c && !isExportPort c i) (fun c => inputLost c i) = .next { s with core := d } :=
  onCoreIf_of_kept (by simp [inRun, hrun, isExportPort, hexport, hoff]) hd (by rw [← hd, inputLost_kept])

end

/-- The controller as the fast trip finds it: MAIN disqualified, its delay running (R137). -/
def Core.mainTripped (c : Core) : Core :=
  { c with path := c.path.updInp .main fun x => { x with qual := false, trq := true } }

/-- The fast trip of MAIN where nothing exports: its pair is off, and its loss acts at once (R161). -/
theorem exec_fastInputOvervoltageTrip_idle (he : s.core.path.export_ = none) : ∃ t,
    exec .fastInputOvervoltageTrip s = .next t ∧ (t.core.path.inp .main).Out := by
  show ∃ t, execFastInputOvervoltageTrip s = _ ∧ _
  refine ⟨_, onRun_of_kept hrun (d := inputLost (pairOff s.core.mainTripped .main) .main) ?_ ?_,
    InputG.Out.falls ?_ (inputLost_falls _ .main .main)⟩
  · simp only [updInp_export, he]
    rfl
  · rw [inputLost_kept, pairOff_kept]
    rfl
  · rw [pairOff_inp, Core.mainTripped, updInp_inp_self]
    exact ⟨rfl, rfl, rfl⟩

/-- The fast trip of MAIN while a port exports: exporting by MAIN itself ends (R157). -/
theorem exec_fastInputOvervoltageTrip_exporting {e : Export} (he : s.core.path.export_ = some e) : ∃ t,
    exec .fastInputOvervoltageTrip s = .next t ∧ (t.core.path.inp .main).trq = true ∧ (t.core.path.inp .main).qual = false ∧
      (e.port = .main → t.core.path.export_ = none) := by
  have hcmd : exec .fastInputOvervoltageTrip s = execFastInputOvervoltageTrip s := rfl
  have htrip : (s.core.mainTripped.path.inp .main).trq = true ∧ (s.core.mainTripped.path.inp .main).qual = false := by
    rw [Core.mainTripped, updInp_inp_self]
    exact ⟨rfl, rfl⟩
  rw [hcmd]
  by_cases hp : e.port = .main
  · obtain ⟨htrq, hqual, -⟩ := exportEnd_falls s.core.mainTripped true .main
    refine ⟨_, onRun_of_kept hrun (d := exportEnd s.core.mainTripped true) ?_ ?_, htrq.trans htrip.1, hqual htrip.2,
      fun _ => exportEnd_export _ true⟩
    · simp only [updInp_export, he, hp, if_true]
      rfl
    · rw [exportEnd_kept]
      rfl
  · refine ⟨_, onRun_of_kept hrun (d := s.core.mainTripped) ?_ rfl, htrip.1, htrip.2, fun h => absurd h hp⟩
    simp only [updInp_export, he, hp, if_false]
    rfl

end

/-! ### The faults of Table 05-5 -/

theorem pairFault_inp (c : Core) (i : Inp) :
    (pairFault c i).path.inp i = { c.path.inp i with qual := false, trq := true, flt := true } :=
  updInp_inp_self _ _ _

/-- A fault raised by a function that keeps the lifecycle, where the image raises none to class D. -/
theorem fault_onPath {c d : Core} {code : BitVec 16} (inst : BitVec 8) (hd : d.kept = c.kept) (hn : noResetRaised c)
    (hrow : (rowClass code).getD .b ≠ .d) : (fault d code inst).kept = c.kept ∧ latched (fault d code inst) code inst ∧
      PathLeftByFault d (fault d code inst) := by
  have hnd := noResetRaised_of_kept hd hn
  obtain ⟨hkept, hlatch, -⟩ := fault_stands (code := code) inst hnd hrow
  exact ⟨hkept.trans hd, hlatch, fault_leavesPath inst hnd hrow⟩

/-- The stage down and every path gate off and held, the BATFET as the row has it (Table 05-5). -/
structure GatesHeld (d : Core) (b : Batfet) : Prop where
  stage : stageDown d
  held : d.path.held = true
  active : d.path.active = none
  batfet : d.path.batfet = b
  pairs : ∀ x ∈ d.path.inputs.toList, x.pair = false

theorem gatesHeld_pathGatesOff (c : Core) (cause ph : Nat) (b : Batfet) : GatesHeld (pathGatesOff (chiselAll c cause ph) b) b :=
  { stage := stageDown_chiselAll c cause ph, held := rfl, active := rfl, batfet := rfl
    pairs := forall_mem_vmap (p := fun x : InputG => x.pair = false) (fun _ _ => rfl) _ }

/-- The action on the gates clears no latch. -/
theorem latched_pathGatesOff {c : Core} {code : BitVec 16} {inst : BitVec 8} (cause ph : Nat) (b : Batfet)
    (h : latched c code inst) : latched (pathGatesOff (chiselAll c cause ph) b) code inst := h

section
variable {s : State} (hrun : s.core.life.st = .run) (hn : noResetRaised s.core)
include hrun hn

theorem exec_pairNotConfirmedOff {i : Inp} (hw : pairWaiting s.core = some i) : ∃ t, exec .pairNotConfirmedOff s = .next t ∧
    latched t.core 0x0203 (BitVec.ofNat 8 (inpIx i + 1)) ∧ GatesHeld t.core .full := by
  obtain ⟨hkept, hlatch, -⟩ := fault_onPath (c := s.core) (d := pairFault (exportEnd s.core true) i) (code := 0x0203)
    (BitVec.ofNat 8 (inpIx i + 1)) (by simp) hn (by decide)
  show ∃ t, execPairNotConfirmedOff s = _ ∧ _
  refine ⟨_, onRun_of_kept hrun (d := pathGatesOff (chiselAll (fault (pairFault (exportEnd s.core true) i) 0x0203
    (BitVec.ofNat 8 (inpIx i + 1))) 3 0) .full) (by simp only [hw]) ?_, latched_pathGatesOff 3 0 .full hlatch,
    gatesHeld_pathGatesOff _ 3 0 .full⟩
  rw [pathGatesOff_kept, chiselAll_kept, hkept]

/-- The pair of the active input goes off, and its loss acts as any other (Table 05-5 row 1). -/
theorem exec_reverseCurrentTrip {i : Inp} (ha : s.core.path.active = some i) (hx : s.core.path.xfer = none)
    (he : s.core.path.export_ = none) : ∃ t, exec .reverseCurrentTrip s = .next t ∧
      latched t.core 0x0201 (BitVec.ofNat 8 (inpIx i + 1)) ∧ (t.core.path.inp i).Out := by
  obtain ⟨hkept, hlatch, hpath⟩ := fault_onPath (c := s.core) (d := pairFault (pairOff s.core i) i) (code := 0x0201)
    (BitVec.ofNat 8 (inpIx i + 1)) (by simp) hn (by decide)
  have hoff : (pairFault (pairOff s.core i) i).path.xfer = none ∧ (pairFault (pairOff s.core i) i).path.export_ = none := by
    rw [pairFault, pairOff_path]
    exact ⟨hx, he⟩
  have hxfer := (congrArg PathG.xfer (hpath.feed hoff.2)).trans hoff.1
  have hout : ((pairFault (pairOff s.core i) i).path.inp i).Out := by
    rw [pairFault_inp, pairOff_inp]
    exact ⟨rfl, rfl, rfl⟩
  show ∃ t, execReverseCurrentTrip s = _ ∧ _
  refine ⟨_, onRun_of_kept hrun (by simp only [ha]) ((inputLost_kept _ i).trans hkept), ?_,
    (hout.falls (hpath.falls i)).falls (inputLost_falls _ i i)⟩
  unfold latched faultActive
  rw [inputLost_flt _ i hxfer]
  exact hlatch

theorem exec_batfetNotOff (hb : s.core.path.batfet = .off) : ∃ t, exec .batfetNotOff s = .next t ∧ latched t.core 0x0205 0 ∧
    GatesHeld t.core .off := by
  obtain ⟨hkept, hlatch, hpath⟩ := fault_onPath (c := s.core) (code := 0x0205) 0 rfl hn (by decide)
  have hchisel := (pathLeft_chiselAll (fault s.core 0x0205 0) 3 0).off (hpath.off hb)
  show ∃ t, execBatfetNotOff s = _ ∧ _
  exact ⟨_, onCoreIf_of_kept (by simp [stageLive, inRun, hrun, hb]) (congrArg (pathGatesOff _) hchisel) hkept,
    latched_pathGatesOff 3 0 .off hlatch, gatesHeld_pathGatesOff _ 3 0 .off⟩

theorem exec_batfetDropFault (hb : s.core.path.batfet = .full) : ∃ t, exec .batfetDropFault s = .next t ∧
    latched t.core 0x0206 0 ∧ t.core.path.dropFault = true := by
  obtain ⟨hkept, hlatch, hpath⟩ := fault_onPath (c := s.core) (code := 0x0206) 0
    (d := { s.core with path := { s.core.path with dropFault := true } }) rfl hn (by decide)
  show ∃ t, execBatfetDropFault s = _ ∧ _
  exact ⟨_, onCoreIf_of_kept (by simp [inRun, hrun, hb]) rfl hkept, hlatch, hpath.dropFault⟩

theorem exec_linearDissipationFault (hb : s.core.path.batfet = .linear) : ∃ t, exec .linearDissipationFault s = .next t ∧
    latched t.core 0x0207 0 ∧ t.core.path.linFault = true ∧ t.core.path.batfet = .off := by
  obtain ⟨hkept, hlatch, hpath⟩ := fault_onPath (c := s.core) (code := 0x0207) 0
    (d := { s.core with path := { s.core.path with batfet := .off, linFault := true } }) rfl hn (by decide)
  show ∃ t, execLinearDissipationFault s = _ ∧ _
  exact ⟨_, onCoreIf_of_kept (by simp [inRun, hrun, hb]) rfl hkept, hlatch, hpath.linFault rfl, hpath.off rfl⟩

theorem exec_vcpUndervoltage : ∃ t, exec .vcpUndervoltage s = .next t ∧ latched t.core 0x0208 0 ∧ GatesHeld t.core .off := by
  obtain ⟨hkept, hlatch, -⟩ := fault_onPath (c := s.core) (code := 0x0208) 0 rfl hn (by decide)
  show ∃ t, execVcpUndervoltage s = _ ∧ _
  exact ⟨_, onCoreIf_of_kept (by simp [stageLive, inRun, hrun]) rfl hkept, latched_pathGatesOff 3 0 .off hlatch,
    gatesHeld_pathGatesOff _ 3 0 .off⟩

end

end Sys2Proof.Machine

open Sys2Proof Sys2Proof.Machine

/-- Settles O36: the loss of the last input ends as `noInput_ended` says, no loss brings an input back (`inputLost_falls`), and
each fault of the path stands latched with its reaction. -/
theorem inputsAndPathFaults : Obligations.InputsAndPathFaults := by
  unfold Obligations.InputsAndPathFaults
  refine ⟨fun p i s hrun => ⟨exec_mainQualified, exec_pdInputQualified,
      exec_requalificationDelayEnd hrun i, fun hx he ho =>
        ⟨fun ha => ?_, fun ha => ?_, fun ha hf hs => ?_, fun ha hf hs => ?_⟩, ?_⟩,
    fun s hrun hn => ⟨fun i hw => ?_, fun i ha hx he => ?_, fun hb => ?_, exec_batfetDropFault hrun hn,
      exec_linearDissipationFault hrun hn, ?_⟩⟩
  · exact onCoreIf_inputLost hrun he ho .main (inputLost_idle _ _ hx ha)
  · exact onCoreIf_inputLost hrun he ho (pdInp p) (inputLost_idle _ _ hx ha)
  · have hend := noInput_ended (s.core.unqualified .main) .main
    refine ⟨_, onCoreIf_inputLost hrun he ho .main (inputLost_last _ _ ha hf hx he ho hs), hend.active, hend.xfer, ?_, ?_,
      hend.stage, hend.driven, hend.same⟩
    all_goals rw [hend.inp, Core.unqualified, updInp_inp_self]
  · have hend := noInput_ended (s.core.unqualified (pdInp p)) (pdInp p)
    refine ⟨_, onCoreIf_inputLost hrun he ho (pdInp p) (inputLost_last _ _ ha hf hx he ho hs), hend.active, ?_, ?_⟩
    all_goals rw [hend.inp, Core.unqualified, updInp_inp_self]
  · cases he : s.core.path.export_ with
    | none =>
      obtain ⟨t, hexec, hout⟩ := exec_fastInputOvervoltageTrip_idle hrun he
      exact ⟨t, hexec, hout.trq, hout.qual, fun _ => hout.pair, nofun⟩
    | some e =>
      obtain ⟨t, hexec, htrq, hqual, hend⟩ := exec_fastInputOvervoltageTrip_exporting hrun he
      exact ⟨t, hexec, htrq, hqual, nofun, fun e' h => Option.some.inj h ▸ hend⟩
  · obtain ⟨t, hexec, hlatch, hgates⟩ := exec_pairNotConfirmedOff hrun hn hw
    exact ⟨t, hexec, hlatch, hgates.stage, hgates.held, hgates.active, hgates.batfet, hgates.pairs⟩
  · obtain ⟨t, hexec, hlatch, hout⟩ := exec_reverseCurrentTrip hrun hn ha hx he
    exact ⟨t, hexec, hlatch, hout.pair, hout.trq, hout.qual⟩
  · obtain ⟨t, hexec, hlatch, hgates⟩ := exec_batfetNotOff hrun hn hb
    exact ⟨t, hexec, hlatch, hgates.stage, hgates.held, hgates.pairs⟩
  · obtain ⟨t, hexec, hlatch, hgates⟩ := exec_vcpUndervoltage hrun hn
    exact ⟨t, hexec, hlatch, hgates.stage, hgates.held, hgates.batfet, hgates.pairs⟩
end

section
/-! PROOFS. Transfers between inputs and turn-ons (Table 05-2). -/

namespace Sys2Proof.Machine

/-! ### The incoming pair turns on -/

/-- The incoming pair commanded on, with the converter parked (Table 05-2 step 3, R142). -/
def Core.turnsOn (c : Core) (x : Xfer) : Core :=
  { setPair (stagePark c) x.inc true with
    path := { (setPair (stagePark c) x.inc true).path with xfer := some { x with step := .inOn } } }

section
variable {c : Core} {x : Xfer}

theorem incomingOn_drained (h : drained c x.inc = true) : incomingOn c x = c.turnsOn x := by
  rw [incomingOn, if_pos h]
  rfl

theorem incomingOn_undrained (h : drained c x.inc = false) :
    incomingOn c x = { c with path := { c.path with xfer := some { x with step := .drain } } } := by
  simp [incomingOn, h]

end

section
variable (c : Core) (x : Xfer)

@[simp] theorem turnsOn_kept : (c.turnsOn x).kept = c.kept := stagePark_kept c

theorem turnsOn_inp : (c.turnsOn x).path.inp x.inc = { c.path.inp x.inc with pair := true, pairInClose := true } := by
  have hon : (c.turnsOn x).path.inp x.inc = (setPair (stagePark c) x.inc true).path.inp x.inc := rfl
  rw [hon, setPair, updInp_inp_self, stagePark_path]
  rfl

theorem turnsOn_ne_switching : (c.turnsOn x).gdr.st ≠ .switching := stagePark_ne_switching c

theorem turnsOn_active : (c.turnsOn x).path.active = c.path.active := by
  show (stagePark c).path.active = _
  rw [stagePark_path]

end

/-! ### An input becomes active -/

section
variable {c : Core} (hn : noResetRaised c)
include hn

/-- A charge cycle may refuse the pack, which touches the path as any fault does (Table 06-3 row 1). -/
theorem cycleStart_leavesPath : PathLeftByFault c (cycleStart c) := by
  have hrefuse : ∀ d : Core, d.kept = c.kept → d.path = c.path → d.life = c.life → PathLeftByFault c (refusePack d) :=
    fun d hk hp hl => .trans (d := { enterPhase d .none with chg := { (enterPhase d .none).chg with refused := true } })
      (pathLeft_of_eq hp (congrArg LifeG.pathDriven hl)) (fault_leavesPath 0 (noResetRaised_of_kept (c := c) hk hn) (by decide))
  unfold cycleStart
  split
  · exact pathLeft_of_eq rfl rfl
  · split
    · exact pathLeft_of_eq rfl rfl
    · dsimp only
      split
      · exact hrefuse _ rfl rfl rfl
      · exact pathLeft_of_eq rfl rfl

omit hn in
theorem timerFaultEnds_path (c : Core) : (timerFaultEnds c).path = c.path ∧ (timerFaultEnds c).life = c.life := by
  unfold timerFaultEnds
  split <;> exact ⟨rfl, rfl⟩

theorem inputBecomesActive_leavesPath : PathLeftByFault c (inputBecomesActive c) := by
  obtain ⟨hpath, hlife⟩ := timerFaultEnds_path c
  exact (pathLeft_of_eq hpath (congrArg LifeG.pathDriven hlife)).trans
    (cycleStart_leavesPath (noResetRaised_of_kept (timerFaultEnds_kept c) hn))

theorem inputBecomesActive_kept : (inputBecomesActive c).kept = c.kept := by
  refine kept_of_goes (not_raises_of_noResetRaised hn) (cycleStart_goes (b := false) ?_)
  rw [timerFaultEnds_kept]
  exact .refl

/-- An input that becomes active where none was leaves the feed of a path that exports nothing, and the change is path-driven
(R23, R152, R172). -/
theorem becameActive_stands (he : c.path.export_ = none) : (becameActive c).kept = c.kept ∧
    (becameActive c).path.feed = c.path.feed ∧ (becameActive c).life.pathDriven = true := by
  have hstands : ∀ d : Core, d.kept = c.kept → d.path.feed = c.path.feed → d.life.pathDriven = true →
      (inputBecomesActive d).kept = c.kept ∧ (inputBecomesActive d).path.feed = c.path.feed ∧
        (inputBecomesActive d).life.pathDriven = true := fun d hk hf hd => by
    have hnd := noResetRaised_of_kept hk hn
    have hpath := inputBecomesActive_leavesPath hnd
    exact ⟨(inputBecomesActive_kept hnd).trans hk, (hpath.feed ((congrArg PathG.export_ hf).trans he)).trans hf,
      hpath.driven hd⟩
  unfold becameActive
  dsimp only
  split
  · exact hstands _ rfl rfl rfl
  · exact hstands _ rfl rfl rfl

end

/-! ### The steps of a transfer -/

/-- No pair waits to be confirmed off any more (R16). -/
def Core.offConfirmed (c : Core) : Core := { c with path := { c.path with offWait := none } }

/-- The incoming input active, its limit at 0 (Table 05-2 step 4). -/
def Core.ramping (c : Core) (x : Xfer) : Core :=
  { c with path := { c.path with
      active := some x.inc, iLim := 0, limRamp := none, floorSusp := false, xfer := some { x with step := .ramp } } }

/-- The transfer over, at the full limit (Table 05-2 step 5, R183). -/
def Core.transferred (c : Core) (x : Xfer) : Core :=
  { c with
    path := { c.path with
      xfer := none, iLim := inputLimit c x.inc, floorSusp := false
      xferCnt := if x.out.isSome = true then satNat 16 (c.path.xferCnt + 1) else c.path.xferCnt }
    chg := if x.out.isSome = true then { c.chg with iTgt := 0, iShare := 0 } else c.chg }

/-- An incoming input whose limit ramps: it comes after none, after a loss, or by a transfer of choice. -/
def Core.comesIn (c : Core) (x : Xfer) : Core :=
  if x.out.isNone = true then becameActive c else if x.loss = true then timerFaultEnds c else c

/-- The incoming input confirmed on: the feed of the path is the ramping one, and an input where none was is path-driven. -/
theorem unpark_comesIn {c : Core} {x : Xfer} (he : c.path.export_ = none) (hn : x.out = none → noResetRaised c) :
    ((stageUnpark (c.ramping x)).comesIn x).kept = c.kept ∧
      ((stageUnpark (c.ramping x)).comesIn x).path.feed = (c.ramping x).path.feed ∧
      (x.out = none → ((stageUnpark (c.ramping x)).comesIn x).life.pathDriven = true) := by
  have hpath := stageUnpark_path (c.ramping x)
  have hkept : (stageUnpark (c.ramping x)).kept = c.kept := stageUnpark_kept _
  generalize stageUnpark (c.ramping x) = d at hpath hkept
  have hfeed := congrArg PathG.feed hpath
  unfold Core.comesIn
  split
  · rename_i hnone
    have hout := Option.isNone_iff_eq_none.1 hnone
    obtain ⟨hk, hf, hd⟩ := becameActive_stands (noResetRaised_of_kept hkept (hn hout)) ((congrArg PathG.export_ hpath).trans he)
    exact ⟨hk.trans hkept, hf.trans hfeed, fun _ => hd⟩
  · rename_i hsome
    have hout : x.out ≠ none := fun h => hsome (by rw [h]; rfl)
    split
    · exact ⟨(timerFaultEnds_kept d).trans hkept, (congrArg PathG.feed (timerFaultEnds_path d).1).trans hfeed,
        fun h => absurd h hout⟩
    · exact ⟨hkept, hfeed, fun h => absurd h hout⟩

/-- A transfer given up, before its fault is found: counted, its input disqualified and its pair off (R144). -/
def Core.givenUp (c : Core) (i : Inp) : Core :=
  noInput (pairFault { c with path := { c.path with xferAbt := satNat 16 (c.path.xferAbt + 1) } } i) i

section
variable (c : Core) (i : Inp)

theorem givenUp_kept : (c.givenUp i).kept = c.kept := noInput_kept _ i

theorem givenUp_ended : InputEnded
    (pairFault { c with path := { c.path with xferAbt := satNat 16 (c.path.xferAbt + 1) } } i) (c.givenUp i) i :=
  noInput_ended _ i

theorem givenUp_count : (c.givenUp i).path.xferAbt = satNat 16 (c.path.xferAbt + 1) := (givenUp_ended c i).counts

theorem givenUp_out : ((c.givenUp i).path.inp i).Out := by
  rw [(givenUp_ended c i).inp, pairFault_inp]
  exact ⟨rfl, rfl, rfl⟩

end

theorem satNat_16 (v : Nat) : satNat 16 v = min 65535 v := Nat.min_comm v 65535

section
variable {x : Xfer} {s : State} (hrun : s.core.life.st = .run) (hx : s.core.path.xfer = some x)
include hrun hx

/-- With the outgoing pair confirmed off the transfer goes on (Table 05-2 step 3). -/
theorem exec_pairConfirmedOff_transfer (he : s.core.path.export_ = none) (ho : s.core.path.exOff = none)
    (hstep : x.step = .outOff) : exec .pairConfirmedOff s =
      .next { s with core := incomingOn s.core.offConfirmed x } := by
  show execPairConfirmedOff s = _
  refine onCore_of_kept ?_ (by rw [incomingOn_kept]; rfl)
  simp [inSafeHold, inRun, hrun, ho, he, hx, hstep, Core.offConfirmed]

theorem exec_vcinDrainEnd (hstep : x.step = .drain) : exec .vcinDrainEnd s = .next { s with core := s.core.turnsOn x } := by
  show execVcinDrainEnd s = _
  refine onRun_of_kept hrun ?_ (turnsOn_kept _ _)
  simp only [hx, hstep, if_true]
  rfl

theorem exec_pairConfirmedOn (he : s.core.path.export_ = none) (hstep : x.step = .inOn)
    (hn : x.out = none → noResetRaised s.core) :
    exec .pairConfirmedOn s = .next { s with core := (stageUnpark (s.core.ramping x)).comesIn x } := by
  obtain ⟨hkept, -⟩ := unpark_comesIn he hn
  show execPairConfirmedOn s = _
  refine onRun_of_kept hrun ?_ hkept
  simp only [hx, hstep, if_true]
  rfl

section
variable (hw : s.core.path.exportWait = none)
include hw

theorem exec_transferComplete (hstep : x.step = .ramp) :
    exec .transferComplete s = .next { s with core := s.core.transferred x } := by
  show execTransferComplete s = _
  refine onRun_of_kept hrun ?_ rfl
  simp only [hx, hstep, if_true]
  exact exportWaiting_none hw

/-- At its bound the transfer is given up (R144, Table 05-5 row 4). -/
theorem exec_transferBoundExpiry (he : s.core.path.export_ = none) (hstep : x.step ≠ .ramp) (hn : noResetRaised s.core) :
    ∃ t, exec .transferBoundExpiry s = .next t ∧ t.core.path.active = none ∧ t.core.path.xfer = none ∧
      (t.core.path.inp x.inc).Out ∧ t.core.path.xferAbt = satNat 16 (s.core.path.xferAbt + 1) ∧
      latched t.core 0x0204 (BitVec.ofNat 8 (inpIx x.inc + 1)) := by
  have hend := givenUp_ended s.core x.inc
  obtain ⟨hexport, hexportWait⟩ := hend.exports
  obtain ⟨hkept, hlatch, hpath⟩ := fault_onPath (c := s.core) (d := s.core.givenUp x.inc) (code := 0x0204)
    (BitVec.ofNat 8 (inpIx x.inc + 1)) (givenUp_kept _ _) hn (by decide)
  have hfeed := hpath.feed (hexport.trans he)
  have hwait := exportWaiting_none (hpath.waits (hexportWait.trans hw))
  show ∃ t, execTransferBoundExpiry s = _ ∧ _
  refine ⟨_, onRun_of_kept hrun (d := fault (s.core.givenUp x.inc) 0x0204 (BitVec.ofNat 8 (inpIx x.inc + 1))) ?_ hkept,
    (congrArg PathG.active hfeed).trans hend.active, (congrArg PathG.xfer hfeed).trans hend.xfer,
    (givenUp_out _ _).falls (hpath.falls x.inc), (congrArg PathG.xferAbt hfeed).trans (givenUp_count _ _), hlatch⟩
  show (match s.core.path.xfer with
    | some x => if x.step = XferStep.ramp then s.core
      else exportWaiting (fault (s.core.givenUp x.inc) 0x0204 (BitVec.ofNat 8 (inpIx x.inc + 1)))
    | none => s.core) = _
  rw [hx]
  exact (if_neg hstep).trans hwait

end

end

end Sys2Proof.Machine

open Sys2Proof Sys2Proof.Machine

/-- Settles O37: each step of Table 05-2 in its turn; what a fault may touch of a path that exports nothing is none of what the
statement names (`PathLeftByFault.feed`). -/
theorem transfersBreakBeforeMake : Obligations.TransfersBreakBeforeMake := by
  unfold Obligations.TransfersBreakBeforeMake
  intro x s hrun hx he ho hw
  refine ⟨fun hstep hd => ?drain, fun hstep hd => ?drained, fun hstep => ?drainEnd, fun hstep hn => ?confirmedOn,
    fun hstep => ?complete, fun hstep hn => ?bound⟩
  case drain =>
    rw [exec_pairConfirmedOff_transfer hrun hx he ho hstep, incomingOn_undrained (c := s.core.offConfirmed) hd]
    rfl
  case drained =>
    have hon := incomingOn_drained (c := s.core.offConfirmed) hd
    refine ⟨_, (exec_pairConfirmedOff_transfer hrun hx he ho hstep).trans (by rw [hon]), rfl, ?_, ?_,
      turnsOn_ne_switching _ x, turnsOn_active s.core.offConfirmed x⟩
    all_goals rw [turnsOn_inp]
  case drainEnd =>
    exact ⟨_, exec_vcinDrainEnd hrun hx hstep, rfl, by rw [turnsOn_inp], turnsOn_ne_switching _ x⟩
  case confirmedOn =>
    obtain ⟨-, hfeed, hdriven⟩ := unpark_comesIn he hn
    have hinputs := congrArg PathG.inputs hfeed
    exact ⟨_, exec_pairConfirmedOn hrun hx he hstep hn, congrArg PathG.active hfeed, congrArg PathG.iLim hfeed,
      congrArg PathG.xfer hfeed, hinputs, hdriven⟩
  case complete =>
    refine ⟨_, exec_transferComplete hrun hx hw hstep, rfl, rfl, rfl, fun hout => ?_, fun hout => ?_⟩
    · simp [Core.transferred, Option.isSome_iff_ne_none.2 hout, satNat_16]
    · simp [Core.transferred, hout]
  case bound =>
    obtain ⟨t, hexec, hactive, hxfer, hout, hcount, hlatch⟩ := exec_transferBoundExpiry hrun hx hw he hstep hn
    exact ⟨t, hexec, hactive, hxfer, hout.pair, hout.qual, hout.trq, hcount.trans (satNat_16 _), hlatch⟩
end

section
/-! PROOFS. Exports: their start, and how they end with their tokens in transit (Table 05-4). -/

namespace Sys2Proof.Machine

/-- An offer goes to the port alone (R385). -/
theorem sendOffer_leaves (c : Core) (p : PdId) : (sendOffer c p).path = c.path ∧ (sendOffer c p).life = c.life ∧
    (sendOffer c p).kept = c.kept := by
  unfold sendOffer
  dsimp only
  split <;> exact ⟨rfl, rfl, rfl⟩

theorem ExPort.pd_of_ne_main : ∀ {x : ExPort}, x ≠ .main → ∃ p, x.pd = some p
  | .pda, _ => ⟨.a, rfl⟩
  | .pdb, _ => ⟨.b, rfl⟩
  | .main, h => absurd rfl h

theorem ExPort.acct_of_pd : ∀ {x : ExPort} {p : PdId}, x.pd = some p → x.acct = pdAcct p
  | .pda, .a, _ | .pdb, .b, _ => rfl

theorem dropAsk_path (c : Core) (p : PdId) : (dropAsk c p).path = c.path := rfl

theorem altExit_path (c : Core) (p : PdId) : (altExit c p).path = c.path := by rw [altExit_eq]

/-- A port that leaves its partner ends its exporting (R388). -/
theorem pdLeave_export {c : Core} {e : Export} {p : PdId} (he : c.path.export_ = some e) (hp : e.port.pd = some p)
    (att : Attach) : (pdLeave c p att).path.export_ = none := by
  have hstop : exportStop c (pdAcct p) false = exportEnd c false := by
    simp only [exportStop, he, ExPort.acct_of_pd hp, if_true]
  have hlost : (sinkLost (exportEnd c false) p).path.export_ = none := by
    unfold sinkLost
    split
    · exact inputLost_exports _ _ (exportEnd_export c false) (exportEnd_waits c false)
    · exact exportEnd_export c false
  simp only [pdLeave, updPd_path, dropAsk_path, altExit_path, hstop, hlost]

/-- The controller with its exporting at a step. -/
def Core.exportAt (c : Core) (e : Export) (step : ExStep) : Core :=
  { c with path := { c.path with export_ := some { e with step := step } } }

/-- Exporting confirmed on is active, and the change is path-driven (R23). -/
def Core.exports (c : Core) (e : Export) : Core :=
  { c.exportAt e .active with life := { c.life with pathDriven := true } }

section
variable {e : Export} {s : State} (hrun : s.core.life.st = .run) (he : s.core.path.export_ = some e)
include hrun he

theorem exec_exportVcinReached (hstep : e.step = .ramp) : exec .exportVcinReached s =
    .next { s with core := (setPair s.core e.port.inp true).exportAt e .pairOn } := by
  show execExportVcinReached s = _
  refine onRun_of_kept hrun ?_ rfl
  simp only [he, hstep, if_true]
  rfl

theorem exec_exportPairConfirmedOn_main (hstep : e.step = .pairOn) (hp : e.port.pd = none) :
    exec .exportPairConfirmedOn s = .next { s with core := s.core.exports e } := by
  show execExportPairConfirmedOn s = _
  refine onRun_of_kept hrun ?_ rfl
  simp only [he, hstep, if_true, hp]
  rfl

theorem exec_exportPairConfirmedOn_pd (hstep : e.step = .pairOn) {p : PdId} (hp : e.port.pd = some p) :
    exec .exportPairConfirmedOn s = .next { s with core := sendOffer (s.core.exports e) p } := by
  show execExportPairConfirmedOn s = _
  refine onRun_of_kept hrun ?_ (sendOffer_leaves _ p).2.2
  simp only [he, hstep, if_true, hp]
  rfl

theorem exec_exportPairNotConfirmedOn_main (hstep : e.step = .pairOn) (hp : e.port.pd = none) :
    exec .exportPairNotConfirmedOn s = .next { s with core := exportEnd s.core false } := by
  show execExportPairNotConfirmedOn s = _
  refine onRun_of_kept hrun ?_ (exportEnd_kept _ _)
  simp only [he, hstep, if_true, hp]

/-- A Type-C port that exports and whose pair is not confirmed on: row 5 of Table 14-5 is latched, and the port goes to
ErrorRecovery. -/
theorem exec_exportPairNotConfirmedOn_pd (hstep : e.step = .pairOn) {p : PdId} (hp : e.port.pd = some p)
    (hn : noResetRaised s.core) : ∃ t, exec .exportPairNotConfirmedOn s = .next t ∧ t.core.path.export_ = none ∧
      latched t.core (pdFaultCode p 5) 0 ∧ (t.core.port p).att = .errorRecovery := by
  have hleave : (errorRecovery s.core p).kept = s.core.kept := pdLeave_kept _ _ _
  obtain ⟨hkept, hlatch, hleft⟩ := fault_stands (code := pdFaultCode p 5) 0 (noResetRaised_of_kept hleave hn)
    (by cases p <;> decide)
  obtain ⟨hatt, -, -⟩ := (pdLeave_alone s.core p .errorRecovery).steady (hleft.port p)
  show ∃ t, execExportPairNotConfirmedOn s = _ ∧ _
  refine ⟨_, onRun_of_kept hrun ?_ (hkept.trans hleave), hleft.export_ (pdLeave_export he hp _), hlatch, hatt⟩
  simp only [he, hstep, if_true, hp]

omit he in
theorem exec_exportFloorTimeout : exec .exportFloorTimeout s = .next { s with core := exportEnd s.core true } := by
  show execExportFloorTimeout s = _
  exact onRun_of_kept hrun rfl (exportEnd_kept _ _)

end

end Sys2Proof.Machine

open Sys2Proof Sys2Proof.Machine

/-- Settles O38: the start of exporting step by step, and its ends, each of which is `exportEnd` or the leave of its port. -/
theorem exportsStartAndEnd : Obligations.ExportsStartAndEnd := by
  unfold Obligations.ExportsStartAndEnd
  intro e s hrun he
  have hend := fun hr => exportEnd_ended he hr
  refine ⟨fun hstep => ⟨_, exec_exportVcinReached hrun he hstep, rfl, ?pairOn, rfl⟩,
    fun hstep hp => exec_exportPairConfirmedOn_main hrun he hstep (by rw [hp]; rfl), fun hstep hp => ?offered,
    fun p hstep hp hn => exec_exportPairNotConfirmedOn_pd hrun he hstep hp hn, fun hstep hp => ?abandoned,
    _, exec_exportFloorTimeout hrun, ?_, exportEnd_waits _ _, (hend true).pair, (hend true).stage, ?_, ?_, ?_,
    (hend true).driven⟩
  case pairOn =>
    show ((setPair s.core e.port.inp true).path.inp e.port.inp).pair = true
    rw [setPair, updInp_inp_self]
  case offered =>
    obtain ⟨p, hpd⟩ := ExPort.pd_of_ne_main hp
    obtain ⟨hpath, hlife, -⟩ := sendOffer_leaves (s.core.exports e) p
    exact ⟨_, exec_exportPairConfirmedOn_pd hrun he hstep hpd, hpath, congrArg LifeG.pathDriven hlife⟩
  case abandoned =>
    have hpair := (hend false).pair
    rw [hp] at hpair
    exact ⟨_, exec_exportPairNotConfirmedOn_main hrun he hstep (by rw [hp]; rfl), exportEnd_export _ _, hpair,
      (hend false).stage⟩
  · exact exportEnd_export _ _
  · rw [(hend true).path]
  · rw [(hend true).tokens]
    rfl
  · rw [(hend true).tokens]
    rfl
end

section
/-! PROOFS. The BATFET in Run (Table 05-3), and the path in Safe Hold (Table 04-4). -/

namespace Sys2Proof.Machine

/-! ### The BATFET in Run -/

section
variable {s : State} (hrun : s.core.life.st = .run)
include hrun

theorem exec_batfetLinearEntry (ha : s.core.path.active ≠ none) (hx : s.core.path.xfer = none)
    (hb : s.core.path.batfet = .full) (hh : s.core.path.held = false) (hc : s.core.path.collapsed = false) :
    exec .batfetLinearEntry s = .next (s.withPath { s.core.path with
      batfet := if s.core.path.linFault = true then .off else .linear }) := by
  show execBatfetLinearEntry s = _
  exact onCoreIf_of_kept (by simp [inRun, hrun, Option.isSome_iff_ne_none.2 ha, hx, hb, hh, hc]) rfl rfl

/-- A BATFET that a SYS collapse drove fully on stays so (R151). -/
theorem exec_batfetFullyOn_collapsed (hb : s.core.path.batfet = .full) (hc : s.core.path.collapsed = true) :
    exec .batfetFullyOn s = .next (s.withPath { s.core.path with collapsed := false }) := by
  show execBatfetFullyOn s = _
  exact onCoreIf_of_kept (by simp [inRun, hrun, hb, hc]) (batfetFull_of_full hb) rfl

section
variable (hb : s.core.path.batfet = .linear)
  (hfree : s.core.path.uvOpen = false ∧ s.core.path.linFault = false ∧ s.core.path.held = false)
include hb hfree

theorem exec_batfetFullyOn_linear :
    exec .batfetFullyOn s = .next (s.withPath { s.core.path with batfet := .full, collapsed := false }) := by
  show execBatfetFullyOn s = _
  exact onCoreIf_of_kept (by simp [inRun, hrun, hb]) (batfetFull_free hfree) rfl

theorem exec_sysCollapse_linear (ha : s.core.path.active ≠ none) : exec .sysCollapse s = .next (s.withPath { s.core.path with
    batfet := .full, collapsed := true, collapse := satNat 16 (s.core.path.collapse + 1) }) := by
  show execSysCollapse s = _
  refine onCoreIf_of_kept (by simp [inRun, hrun, Option.isSome_iff_ne_none.2 ha, hb]) ?_ rfl
  simp only [hb, beq_self_eq_true, if_true]
  exact batfetFull_free hfree

end

theorem exec_sysCollapse_off (ha : s.core.path.active ≠ none) (hb : s.core.path.batfet = .off) :
    exec .sysCollapse s = .next (s.withPath { s.core.path with
      floorSusp := true, collapse := satNat 16 (s.core.path.collapse + 1) }) := by
  show execSysCollapse s = _
  refine onCoreIf_of_kept (by simp [inRun, hrun, Option.isSome_iff_ne_none.2 ha, hb]) ?_ rfl
  simp [hb]

theorem exec_collapseRecovery (ha : s.core.path.active ≠ none) (hb : s.core.path.batfet = .full)
    (hc : s.core.path.collapsed = true) :
    exec .collapseRecovery s = .next (s.withPath { s.core.path with batfet := .linear, collapsed := false }) := by
  show execCollapseRecovery s = _
  exact onCoreIf_of_kept (by simp [inRun, hrun, Option.isSome_iff_ne_none.2 ha, hb, hc]) rfl rfl

end

/-- The undervoltage opening, in Run and in Dormant (R152). -/
theorem exec_batfetUndervoltageOpening {s : State} (hst : s.core.life.st = .run ∨ s.core.life.st = .dormant)
    (ha : s.core.path.active = none) (hb : s.core.path.batfet = .full) (hu : undervoltage s.core = true) :
    exec .batfetUndervoltageOpening s = .next (s.withPath { s.core.path with batfet := .off, uvOpen := true }) := by
  have hin : (inRun s.core || s.core.life.st == .dormant) = true := by
    rcases hst with h | h <;> simp [inRun, h]
  show execBatfetUndervoltageOpening s = _
  exact onCoreIf_of_kept (by simp [hin, ha, hb, hu]) rfl rfl

/-! ### Safe Hold -/

/-- The controller in Safe Hold without MAIN: the converter stopped, the pair off (R108, Table 04-4). -/
def Core.mainLost (c : Core) : Core :=
  { c with
    path := { (setPair c .main false).path.updInp .main fun x => { x with qual := false } with
      shConv := false, gbtWait := false, shGpmWait := !c.path.held, active := none }
    gdr := { c.gdr with
      st := .stopped, ph := vupd c.gdr.ph 0 fun p => if p.st == .run then { p with st := .off } else p } }

theorem mainLost_inp (c : Core) : (c.mainLost.path.inp .main).qual = false ∧ (c.mainLost.path.inp .main).pair = false := by
  have hinp : c.mainLost.path.inp .main =
      ((setPair c .main false).path.updInp .main fun x => { x with qual := false }).inp .main := rfl
  rw [hinp, updInp_inp_self, setPair, updInp_inp_self]
  exact ⟨rfl, rfl⟩

section
variable {s : State} (hst : s.core.life.st = .safeHold)
include hst

theorem exec_safeHoldMainQualified_free (hq : (s.core.path.inp .main).qual = false) (hh : s.core.path.held = false) :
    exec .safeHoldMainQualified s = .next (s.withPath { s.core.path.updInp .main (fun x => { x with qual := true }) with
      gbtWait := true, shGpmWait := false, batfet := .off }) := by
  show execSafeHoldMainQualified s = _
  exact onCoreIf_of_kept (by simp [inSafeHold, hst, hq]) (if_neg (by simp [PathG.updInp, hh])) rfl

theorem exec_safeHoldMainQualified_held (hq : (s.core.path.inp .main).qual = false) (hh : s.core.path.held = true) :
    exec .safeHoldMainQualified s = .next (s.withInput .main fun x => { x with qual := true }) := by
  show execSafeHoldMainQualified s = _
  exact onCoreIf_of_kept (by simp [inSafeHold, hst, hq]) (if_pos hh) rfl

theorem exec_safeHoldBatfetTrip :
    exec .safeHoldBatfetTrip s = .next (s.withPath { s.core.path with batfet := .off, shTrip := true }) := by
  show execSafeHoldBatfetTrip s = _
  exact onCoreIf_of_kept (by simp [inSafeHold, hst]) rfl rfl

/-- The loss of MAIN stops the converter and turns its pair off; the BATFET waits for its confirmation (R108). -/
theorem exec_safeHoldMainLost (hq : (s.core.path.inp .main).qual = true) :
    exec .safeHoldMainLost s = .next { s with core := s.core.mainLost } := by
  show execSafeHoldMainLost s = _
  exact onCoreIf_of_kept (by simp [inSafeHold, hst, hq]) rfl rfl

/-- With the path gates held, a confirmation changes nothing (R58). -/
theorem exec_pairConfirmedOff_held (hh : s.core.path.held = true) : exec .pairConfirmedOff s = .next s := by
  show execPairConfirmedOff s = _
  refine onCore_of_kept (d := s.core) ?_ rfl
  simp [inSafeHold, hst, hh]

/-- The BATFET confirmed off, MAIN comes on (R108). -/
theorem exec_pairConfirmedOff_gbt (hg : s.core.path.gbtWait = true) (hh : s.core.path.held = false) :
    exec .pairConfirmedOff s = .next { s with core := safeHoldStart s.core } := by
  show execPairConfirmedOff s = _
  refine onCore_of_kept ?_ (safeHoldStart_kept _)
  simp [inSafeHold, hst, hh, hg]

end

section
variable (c : Core)

theorem safeHoldStart_main : (safeHoldStart c).path.active = some .main ∧ ((safeHoldStart c).path.inp .main).pair = true := by
  have hpair : ((setPair c .main true).path.inp .main).pair = true := by rw [setPair, updInp_inp_self]
  unfold safeHoldStart
  dsimp only
  split <;> exact ⟨rfl, hpair⟩

/-- The Safe Hold converter starts from the SYS voltage present (R231, Table 04-4). -/
theorem safeHoldStart_go (h : (!c.life.klnLost && c.life.pwmLock && !inChisel c.gdr) = true) :
    (safeHoldStart c).path.shConv = true ∧ (safeHoldStart c).gdr.st = .switching ∧
      (safeHoldStart c).path.shSoft = min c.meas.vsys 36000 := by
  simp [safeHoldStart, h]

/-- It stays stopped after a KLN loss and while the PWM PLL is not locked (R37, R38). -/
theorem safeHoldStart_stays (h : c.life.klnLost = true ∨ c.life.pwmLock = false) :
    (safeHoldStart c).path.shConv = false ∧ (safeHoldStart c).gdr = c.gdr := by
  have hgo : (!c.life.klnLost && c.life.pwmLock && !inChisel c.gdr) = false := by
    rcases h with h | h <;> simp [h]
  simp [safeHoldStart, hgo]

end

end Sys2Proof.Machine

open Sys2Proof Sys2Proof.Machine

/-- Settles O39: each row of Table 05-3 and of Table 04-4 by the command that carries it out. -/
theorem batfetFollowsItsTable : Obligations.BatfetFollowsItsTable := by
  unfold Obligations.BatfetFollowsItsTable
  intro s
  refine ⟨fun hrun => exec_batfetLinearEntry hrun, fun hrun => exec_batfetFullyOn_collapsed hrun,
    fun hrun hb hu hl hh => ?_, fun hrun ha hb => ?_, fun hrun => exec_collapseRecovery hrun,
    exec_batfetUndervoltageOpening, fun hst => ⟨fun hq => ⟨exec_safeHoldMainQualified_free hst hq,
      exec_safeHoldMainQualified_held hst hq⟩, exec_safeHoldBatfetTrip hst, exec_pairConfirmedOff_held hst,
      fun hg hh => ?_, fun hq => ?_⟩⟩
  · refine ⟨exec_batfetFullyOn_linear hrun hb ⟨hu, hl, hh⟩, fun ha => ?_⟩
    rw [exec_sysCollapse_linear hrun hb ⟨hu, hl, hh⟩ ha, satNat_16]
  · rw [exec_sysCollapse_off hrun ha hb, satNat_16]
  · obtain ⟨hactive, hpair⟩ := safeHoldStart_main s.core
    exact ⟨_, exec_pairConfirmedOff_gbt hst hg hh, hactive, hpair,
      fun hk hp hc => safeHoldStart_go _ (by simp [hk, hp, hc]), safeHoldStart_stays _⟩
  · obtain ⟨hqual, hpair⟩ := mainLost_inp s.core
    exact ⟨_, exec_safeHoldMainLost hst hq, rfl, rfl, hqual, hpair, rfl, rfl⟩
end

section
/-! PROOFS. What a fault below class D leaves of the pack (chapters 06, 07, 10 and 11). -/

namespace Sys2Proof.Machine

/-- What the controller holds of the pack: its charger, its cells and its ledger. -/
def Core.packPart (c : Core) : ChgG × CelG × LdgG := (c.chg, c.cel, c.ldg)

section
variable (c : Core) (code : BitVec 16) (inst : BitVec 8)

@[simp] theorem exportEnd_packPart (hr : Bool) : (exportEnd c hr).packPart = c.packPart := by
  obtain ⟨b, path, gdr, pd, plb, vlt, he, -⟩ := exportEnd_eq c hr
  rw [he]
  rfl

@[simp] theorem exportFault_packPart : (exportFault c code).packPart = c.packPart := by
  unfold exportFault
  split <;> simp

@[simp] theorem raisedC_packPart (row cls : FCls) : (raisedC c code row cls).packPart = c.packPart := by
  unfold raisedC
  split <;> rfl

@[simp] theorem noteInst_packPart (b : Core) : (noteInst b c inst).packPart = c.packPart := by
  unfold noteInst
  split <;> rfl

theorem classAction_packPart {cls : FCls} (cause ph : Nat) (h : cls ≠ .d) :
    (classAction c cls cause ph code).packPart = c.packPart := by
  cases cls with
  | d => exact absurd rfl h
  | b => rfl
  | c => rfl
  | a =>
    have hnote := noteChisel_eq c.gdr (chiselAll c cause ph) code
    calc (classAction c .a cause ph code).packPart
      _ = (exportEnd (noteChisel c.gdr (chiselAll c cause ph) code) true).packPart := rfl
      _ = (noteChisel c.gdr (chiselAll c cause ph) code).packPart := exportEnd_packPart _ _
      _ = c.packPart := by rw [hnote]; rfl

end

/-- A fault that no image raises to class D leaves the pack as it is: what its row does, its command does (R284). -/
theorem fault_packPart {c : Core} {code : BitVec 16} (inst : BitVec 8) (hn : noResetRaised c)
    (hrow : (rowClass code).getD .b ≠ .d) : (fault c code inst).packPart = c.packPart := by
  obtain ⟨o, n, f, hreact⟩ := faultWith_reacts c code inst ((rowClass code).getD .b) .pending true 3 0
  rw [fault, hreact, noteInst_packPart, exportFault_packPart, raisedC_packPart,
    classAction_packPart _ _ _ _ (classInForce_ne_d code hn hrow)]
  rfl

/-- A command that does what a row asks of the pack, and raises the row's fault. -/
theorem onCoreIf_packFault {s : State} {r : Res} {q : Core → Bool} {f : Core → Core} {d : Core} {code : BitVec 16}
    (hr : r = onCoreIf s q f) (hf : f s.core = fault d code 0) (hrow : (rowClass code).getD .b ≠ .d)
    (hn : noResetRaised s.core) (hq : q s.core = true) (hd : d.kept = s.core.kept) :
    ∃ t, r = .next t ∧ t.core.packPart = d.packPart ∧ latched t.core code 0 := by
  have hnd := noResetRaised_of_kept hd hn
  obtain ⟨hkept, hlatch, -⟩ := fault_stands 0 hnd hrow
  exact ⟨_, hr.trans (onCoreIf_of_kept hq hf (hkept.trans hd)), fault_packPart 0 hnd hrow, hlatch⟩

end Sys2Proof.Machine
end

section
/-! PROOFS. The charger's evaluation: what it prepares, counts and moves (chapter 06). -/

namespace Sys2Proof.Machine

/-- The controller as an evaluation prepares it: the mean pack current taken, and the wish to refuse returns, the rest pattern
and the heater request brought up to date (R171, R178, R180, R185). -/
def Core.prepared (c : Core) (i : Int) : Core :=
  heaterStep (restStep (askStep { c with meas := { c.meas with ispAvg := i } } i))

/-- With no "pack did not warm" to end, what is prepared leaves the phase, its counts, the timers and the faults. -/
theorem prepared_eq {c : Core} (i : Int) (hwarm : c.chg.noWarm = false) :
    c.prepared i = { c with
      meas := { c.meas with ispAvg := i }
      chg := { c.chg with
        askRefuse := (c.prepared i).chg.askRefuse, restOff := (c.prepared i).chg.restOff
        lastBand := (c.prepared i).chg.lastBand, heater := (c.prepared i).chg.heater
        tHtr := (c.prepared i).chg.tHtr } } := by
  simp [Core.prepared, heaterStep, restStep, askStep, hwarm]

/-- What one evaluation has counted when it comes to move the phase (R171): the charger alone has changed, the phase and its
timers stand, and each count runs on while its condition holds, or is held with the phase. -/
structure Counted (c : Core) (i : Int) (x : Core) : Prop where
  frame : x = { c with meas := { c.meas with ispAvg := i }, chg := x.chg }
  phase : x.chg.phase = c.chg.phase
  timers : x.chg.tPre = c.chg.tPre ∧ x.chg.tBulk = c.chg.tBulk
  suspended : suspended x = suspended c
  held : phaseHeld c = true → x.chg.qTerm = if termHolds c i then c.chg.qTerm else 0
  counts : phaseHeld c = false → x.chg.qPh = qualify (phaseHolds c) c.chg.qPh ∧
    x.chg.qTerm = qualify (termHolds c i) c.chg.qTerm ∧ x.chg.qBack = qualify (backHolds c) c.chg.qBack

theorem counted_countStep {c : Core} (i : Int) (hwarm : c.chg.noWarm = false) :
    Counted c i (countStep (c.prepared i) i) := by
  rw [prepared_eq i hwarm]
  exact
    { frame := rfl
      phase := rfl
      timers := ⟨rfl, rfl⟩
      suspended := rfl
      held := fun h => if_pos h
      counts := fun h => ⟨if_neg (ne_true_of_eq_false h), if_neg (ne_true_of_eq_false h), if_neg (ne_true_of_eq_false h)⟩ }

/-! ### The counts (R171) and the timers (R176) -/

/-- A count runs on while its condition holds (R171). -/
theorem qualify_of_pos {p : Prop} [Decidable p] (h : p) (n : Nat) : qualify (decide p) n = n + 1 := by
  simp [qualify, h]

/-- It restarts once the condition breaks (R171). -/
theorem qualify_of_neg {p : Prop} [Decidable p] (h : ¬ p) (n : Nat) : qualify (decide p) n = 0 := by
  simp [qualify, h]

theorem timerStep_eq (c : Core) : timerStep c =
    { c with chg := { c.chg with tPre := (timerStep c).chg.tPre, tBulk := (timerStep c).chg.tBulk } } := by
  unfold timerStep
  split
  · split <;> rfl
  · rfl

theorem timerStep_of_suspended {c : Core} (h : suspended c = true) : timerStep c = c := by
  simp [timerStep, h]

theorem timerStep_phase (c : Core) : (timerStep c).chg.phase = c.chg.phase := by rw [timerStep_eq]

theorem timerStep_qPh (c : Core) : (timerStep c).chg.qPh = c.chg.qPh := by rw [timerStep_eq]

theorem timerStep_qTerm (c : Core) : (timerStep c).chg.qTerm = c.chg.qTerm := by rw [timerStep_eq]

/-! ### Moves of the phase (Table 06-2) -/

/-- The phase that Constant voltage ends in (R173). -/
def afterCv (c : Core) : ChgPhase :=
  if c.maq.cell.balance && decide (c.maq.cell.balStart * 10 ≤ cellSpread c) then .balTop else .term

theorem afterCv_cases (c : Core) : afterCv c = .term ∨ afterCv c = .balTop := by
  unfold afterCv
  split
  · exact .inr rfl
  · exact .inl rfl

section
variable {c : Core} (hback : c.chg.qBack < 101)
include hback

theorem phaseStep_cond (hp : c.chg.phase = .cond) :
    phaseStep c = if 101 ≤ c.chg.qPh then enterPhase c .pre else c := by
  simp [phaseStep, hp, Nat.not_le.mpr hback]

theorem phaseStep_cv (hp : c.chg.phase = .cv) :
    phaseStep c = if 3001 ≤ c.chg.qTerm then enterPhase c (afterCv c) else c := by
  simp [phaseStep, hp, Nat.not_le.mpr hback, afterCv]

end

/-- No backward condition before Bulk (R175). -/
theorem backHolds_cond {c : Core} (hp : c.chg.phase = .cond) : backHolds c = false := by
  simp [backHolds, hp, ChgPhase.rank]

/-- None with the lowest cell within 100 mV of the pre-charge threshold (R175). -/
theorem backHolds_of_near {c : Core} (h : c.maq.pack.vPre * 10 < lowCell c + 1000) : backHolds c = false := by
  simp [backHolds, h]

theorem phaseHolds_cond {c : Core} (hp : c.chg.phase = .cond) :
    phaseHolds c = decide (c.maq.pack.vCond * 10 ≤ lowCell c) := by
  simp [phaseHolds, hp]

theorem termHolds_cv {c : Core} (i : Int) (hp : c.chg.phase = .cv) (hm : c.life.mode = .charge) :
    termHolds c i = decide (termCurrent c i < (c.maq.pack.iTerm * 10 : Nat)) := by
  simp [termHolds, hp, hm]

/-! ### What stands after the counts and the moves -/

section
variable {c x : Core} {i : Int} (hx : Counted c i x)
include hx

theorem Counted.kept : x.kept = c.kept := by
  rw [hx.frame]
  rfl

/-- The backward count has not run to its end while its condition fails. -/
theorem Counted.qBack_lt (hfree : phaseHeld c = false) (hb : backHolds c = false) : x.chg.qBack < 101 := by
  obtain ⟨-, -, hq⟩ := hx.counts hfree
  simp [hq, hb, qualify]

theorem Counted.timerStep_frame : timerStep x =
    { c with meas := { c.meas with ispAvg := i }, chg := (timerStep x).chg } := by
  rw [timerStep_eq, hx.frame]

theorem Counted.timerStep_enterPhase_frame (p : ChgPhase) : timerStep (enterPhase x p) =
    { c with meas := { c.meas with ispAvg := i }, chg := (timerStep (enterPhase x p)).chg } := by
  rw [timerStep_eq, hx.frame]
  rfl

end

/-! ### CHARGE_EVALUATION in Run (R171) -/

section
variable {s : State} {i : Int} (hrun : s.core.life.st = .run) (hdec : chargerDecides s.core = true)
  (hnew : s.core.chg.newCycle = false) (hwarm : s.core.chg.noWarm = false)
include hrun hdec hnew hwarm

/-- An evaluation prepares and counts, moves the phase unless it is held, and then the timers. -/
theorem exec_chargeEvaluation_counts {d : Core}
    (hd : (if phaseHeld s.core then countStep (s.core.prepared i) i else phaseStep (countStep (s.core.prepared i) i)) = d)
    (hk : d.kept = s.core.kept) : exec (.chargeEvaluation i) s = .next { s with core := timerStep d } := by
  show execChargeEvaluation i s = _
  rw [execChargeEvaluation, onRun]
  refine onCoreIf_of_kept ((inRun_iff _).2 hrun) ?_ ((timerStep_kept d).trans hk)
  have hdec' : chargerDecides (askStep { s.core with meas := { s.core.meas with ispAvg := i } } i) = true := hdec
  have hnew' : (s.core.prepared i).chg.newCycle = false := by
    rw [prepared_eq i hwarm]
    exact hnew
  have hheld : phaseHeld (countStep (s.core.prepared i) i) = phaseHeld s.core := by
    rw [prepared_eq i hwarm]
    rfl
  rw [Core.prepared] at hnew' hheld hd
  simp [hdec', hnew', hheld, hd]

/-- While the phase is held, an evaluation moves counts and timers alone (R177, R183). -/
theorem exec_chargeEvaluation_held (hheld : phaseHeld s.core = true) :
    ∃ x, Counted s.core i x ∧ exec (.chargeEvaluation i) s = .next { s with core := timerStep x } :=
  have hx := counted_countStep i hwarm
  ⟨_, hx, exec_chargeEvaluation_counts hrun hdec hnew hwarm (if_pos hheld) hx.kept⟩

/-- Else the phase moves by its counts. -/
theorem exec_chargeEvaluation_moves (hfree : phaseHeld s.core = false) :
    ∃ x, Counted s.core i x ∧
      ((phaseStep x).kept = x.kept → exec (.chargeEvaluation i) s = .next { s with core := timerStep (phaseStep x) }) :=
  have hx := counted_countStep i hwarm
  ⟨_, hx, fun h => exec_chargeEvaluation_counts hrun hdec hnew hwarm (if_neg (ne_true_of_eq_false hfree)) (h.trans hx.kept)⟩

end

end Sys2Proof.Machine
end

section
/-! PROOFS. The charger's commands (chapter 06). -/

namespace Sys2Proof.Machine

section
variable {s : State} {i : Int} (hrun : s.core.life.st = .run) (hdec : chargerDecides s.core = true)
include hrun hdec

section
variable (hnew : s.core.chg.newCycle = false) (hwarm : s.core.chg.noWarm = false)
include hnew hwarm

/-- A held phase stands, with what its termination condition has broken (R171, R177, R183). -/
theorem exec_chargeEvaluation_holds (hheld : phaseHeld s.core = true) : ∃ t, exec (.chargeEvaluation i) s = .next t ∧
    t = { s with core := { s.core with meas := { s.core.meas with ispAvg := i }, chg := t.core.chg } } ∧
    t.core.chg.phase = s.core.chg.phase ∧
    (suspended s.core = true → t.core.chg.tPre = s.core.chg.tPre ∧ t.core.chg.tBulk = s.core.chg.tBulk) ∧
    t.core.chg.qTerm = if termHolds s.core i then s.core.chg.qTerm else 0 := by
  obtain ⟨x, hx, hexec⟩ := exec_chargeEvaluation_held hrun hdec hnew hwarm hheld
  refine ⟨_, hexec, congrArg (fun c => { s with core := c }) hx.timerStep_frame, (timerStep_phase x).trans hx.phase,
    fun hsus => ?_, (timerStep_qTerm x).trans (hx.held hheld)⟩
  rw [timerStep_of_suspended (hx.suspended.trans hsus)]
  exact hx.timers

/-- Conditioning goes on to Pre-charge at the 101st evaluation in a row with the lowest cell at V_COND (R171, Table 06-2). -/
theorem exec_chargeEvaluation_cond (hfree : phaseHeld s.core = false) (hp : s.core.chg.phase = .cond) :
    ∃ t, exec (.chargeEvaluation i) s = .next t ∧
      t = { s with core := { s.core with meas := { s.core.meas with ispAvg := i }, chg := t.core.chg } } ∧
      (lowCell s.core < s.core.maq.pack.vCond * 10 → t.core.chg.phase = .cond ∧ t.core.chg.qPh = 0) ∧
      (s.core.maq.pack.vCond * 10 ≤ lowCell s.core → s.core.chg.qPh < 100 →
        t.core.chg.phase = .cond ∧ t.core.chg.qPh = s.core.chg.qPh + 1) ∧
      (s.core.maq.pack.vCond * 10 ≤ lowCell s.core → 100 ≤ s.core.chg.qPh →
        t.core.chg.phase = .pre ∧ t.core.chg.qPh = 0) := by
  obtain ⟨x, hx, hexec⟩ := exec_chargeEvaluation_moves (i := i) hrun hdec hnew hwarm hfree
  obtain ⟨hq, -, -⟩ := hx.counts hfree
  rw [phaseHolds_cond hp] at hq
  have hzero : lowCell s.core < s.core.maq.pack.vCond * 10 → x.chg.qPh = 0 := fun hlow =>
    hq.trans (qualify_of_neg (Nat.not_le.mpr hlow) _)
  have hrise : s.core.maq.pack.vCond * 10 ≤ lowCell s.core → x.chg.qPh = s.core.chg.qPh + 1 := fun hhigh =>
    hq.trans (qualify_of_pos hhigh _)
  have hstep := phaseStep_cond (hx.qBack_lt hfree (backHolds_cond hp)) (hx.phase.trans hp)
  by_cases hfull : 101 ≤ x.chg.qPh
  case pos =>
    rw [if_pos hfull] at hstep
    rw [hstep] at hexec
    refine ⟨_, hexec rfl, congrArg (fun c => { s with core := c }) (hx.timerStep_enterPhase_frame .pre), fun hlow => ?_,
      fun hhigh hless => ?_, fun _ _ => ⟨timerStep_phase _, timerStep_qPh _⟩⟩
    · have := hzero hlow
      omega
    · have := hrise hhigh
      omega
  case neg =>
    rw [if_neg hfull] at hstep
    rw [hstep] at hexec
    have hphase := (timerStep_phase x).trans (hx.phase.trans hp)
    refine ⟨_, hexec rfl, congrArg (fun c => { s with core := c }) hx.timerStep_frame,
      fun hlow => ⟨hphase, (timerStep_qPh x).trans (hzero hlow)⟩,
      fun hhigh _ => ⟨hphase, (timerStep_qPh x).trans (hrise hhigh)⟩, fun hhigh hmore => ?_⟩
    have := hrise hhigh
    omega

/-- Constant voltage ends at the 3001st evaluation in a row with the pack current below I_TERM (R171, R173). -/
theorem exec_chargeEvaluation_cv (hfree : phaseHeld s.core = false) (hp : s.core.chg.phase = .cv)
    (hmode : s.core.life.mode = .charge) (hnear : s.core.maq.pack.vPre * 10 < lowCell s.core + 1000) :
    ∃ t, exec (.chargeEvaluation i) s = .next t ∧
      (termCurrent s.core i < (s.core.maq.pack.iTerm * 10 : Nat) → s.core.chg.qTerm = 3000 →
        t.core.chg.phase = .term ∨ t.core.chg.phase = .balTop) ∧
      (termCurrent s.core i < (s.core.maq.pack.iTerm * 10 : Nat) → s.core.chg.qTerm < 3000 →
        t.core.chg.phase = .cv ∧ t.core.chg.qTerm = s.core.chg.qTerm + 1) ∧
      ((s.core.maq.pack.iTerm * 10 : Nat) ≤ termCurrent s.core i → t.core.chg.phase = .cv ∧ t.core.chg.qTerm = 0) := by
  obtain ⟨x, hx, hexec⟩ := exec_chargeEvaluation_moves hrun hdec hnew hwarm hfree
  obtain ⟨-, hq, -⟩ := hx.counts hfree
  rw [termHolds_cv i hp hmode] at hq
  have hrise : termCurrent s.core i < (s.core.maq.pack.iTerm * 10 : Nat) → x.chg.qTerm = s.core.chg.qTerm + 1 := fun hbelow =>
    hq.trans (qualify_of_pos hbelow _)
  have hzero : (s.core.maq.pack.iTerm * 10 : Nat) ≤ termCurrent s.core i → x.chg.qTerm = 0 := fun habove =>
    hq.trans (qualify_of_neg (Int.not_lt.mpr habove) _)
  have hstep := phaseStep_cv (hx.qBack_lt hfree (backHolds_of_near hnear)) (hx.phase.trans hp)
  by_cases hfull : 3001 ≤ x.chg.qTerm
  case pos =>
    rw [if_pos hfull] at hstep
    rw [hstep] at hexec
    have hphase := timerStep_phase (enterPhase x (afterCv x))
    refine ⟨_, hexec rfl, fun _ _ => ?_, fun hbelow hless => ?_, fun habove => ?_⟩
    · rw [hphase]
      exact afterCv_cases x
    · have := hrise hbelow
      omega
    · have := hzero habove
      omega
  case neg =>
    rw [if_neg hfull] at hstep
    rw [hstep] at hexec
    have hphase := (timerStep_phase x).trans (hx.phase.trans hp)
    refine ⟨_, hexec rfl, fun hbelow hmany => ?_,
      fun hbelow _ => ⟨hphase, (timerStep_qTerm x).trans (hrise hbelow)⟩,
      fun habove => ⟨hphase, (timerStep_qTerm x).trans (hzero habove)⟩⟩
    have := hrise hbelow
    omega

end

/-! ### Timers, heater and rest pattern (R176, R178, R181, Table 06-4) -/

theorem exec_chargeTimerExpiry (hp : s.core.chg.phase = .cond ∨ s.core.chg.phase = .pre ∨ s.core.chg.phase = .bulk ∨
    s.core.chg.phase = .cv) (hn : noResetRaised s.core) :
    ∃ t, exec .chargeTimerExpiry s = .next t ∧
      t.core.packPart = ({ s.core.chg with timerFault := true }, s.core.cel, s.core.ldg) ∧ latched t.core 0x0404 0 := by
  have hrank : 1 ≤ s.core.chg.phase.rank ∧ s.core.chg.phase.rank ≤ 4 := by
    rcases hp with h | h | h | h <;> rw [h] <;> decide
  have hcmd : execChargeTimerExpiry s = onCoreIf s _ _ := rfl
  exact onCoreIf_packFault (d := { s.core with chg := { s.core.chg with timerFault := true } }) hcmd rfl (by decide) hn
    (by simp [inRun, hrun, hdec, hrank]) rfl

theorem exec_restPatternEdge (hp : s.core.chg.phase = .bulk) (hr : (packEntry s.core).restOn ≠ 0) :
    exec .restPatternEdge s =
      .next { s with core := { s.core with chg := { s.core.chg with restOff := !s.core.chg.restOff } } } := by
  show execRestPatternEdge s = _
  exact onCoreIf_of_kept (by simp [inRun, hrun, hdec, hp, hr]) rfl rfl

theorem exec_heaterTimeLimit (hh : s.core.chg.heater = true) (hn : noResetRaised s.core) :
    ∃ t, exec .heaterTimeLimit s = .next t ∧
      t.core.packPart = ({ s.core.chg with heater := false, noWarm := true }, s.core.cel, s.core.ldg) ∧
      latched t.core 0x0406 0 := by
  have hcmd : execHeaterTimeLimit s = onCoreIf s _ _ := rfl
  exact onCoreIf_packFault (d := { s.core with chg := { s.core.chg with heater := false, noWarm := true } }) hcmd rfl (by decide)
    hn (by simp [inRun, hrun, hdec, hh]) rfl

end

theorem exec_packCurrentAboveShare {s : State} (hrun : s.core.life.st = .run) (hn : noResetRaised s.core) :
    ∃ t, exec .packCurrentAboveShare s = .next t ∧ t.core.packPart = s.core.packPart ∧ latched t.core 0x0405 0 := by
  have hcmd : execPackCurrentAboveShare s = onCoreIf s inRun fun c => fault c 0x0405 0 := rfl
  exact onCoreIf_packFault hcmd rfl (by decide) hn ((inRun_iff _).2 hrun) rfl

end Sys2Proof.Machine

open Sys2Proof Sys2Proof.Machine

/-- Settles O45: an evaluation holds the phase or moves it by its counts, and each row of Table 06-4 marks the charger and
raises its fault. -/
theorem chargerFollowsItsPhases : Obligations.ChargerFollowsItsPhases := by
  unfold Obligations.ChargerFollowsItsPhases
  intro i s hrun
  refine ⟨fun hdec hnew hwarm => ⟨exec_chargeEvaluation_holds hrun hdec hnew hwarm,
      exec_chargeEvaluation_cond hrun hdec hnew hwarm, exec_chargeEvaluation_cv hrun hdec hnew hwarm⟩,
    fun hdec hp hn => ?_, exec_restPatternEdge hrun, fun hdec hh hn => ?_, fun hn => ?_⟩
  · obtain ⟨t, hexec, hpack, hlatch⟩ := exec_chargeTimerExpiry hrun hdec hp hn
    exact ⟨t, hexec, congrArg Prod.fst hpack, hlatch, congrArg (·.2.1) hpack, congrArg (·.2.2) hpack⟩
  · obtain ⟨t, hexec, hpack, hlatch⟩ := exec_heaterTimeLimit hrun hdec hh hn
    exact ⟨t, hexec, congrArg Prod.fst hpack, hlatch⟩
  · obtain ⟨t, hexec, hpack, hlatch⟩ := exec_packCurrentAboveShare hrun hn
    exact ⟨t, hexec, congrArg Prod.fst hpack, hlatch⟩
end

section
/-! PROOFS. What a fault below class D changes of the controller, and the latches that it leaves (chapter 11). -/

namespace Sys2Proof.Machine

/-- No latch loses its reaction, and no overflow is forgotten. -/
structure FltG.Keeps (f g : FltG) : Prop where
  latch : ∀ (i : Nat) (hi : i < 64) (x : Latch), f.l[i] = some x → x.active = true →
    ∃ y, g.l[i] = some y ∧ y.code = x.code ∧ y.inst = x.inst ∧ y.active = true
  ovfNew : f.ovfNew = true → g.ovfNew = true
  ovf : f.ovf = true → g.ovf = true

namespace FltG.Keeps

variable {f g k : FltG}

theorem of_eq (hl : g.l = f.l) (hn : g.ovfNew = f.ovfNew) (ho : g.ovf = f.ovf) : f.Keeps g :=
  { latch := fun i hi x hx ha => ⟨x, by simp only [hl, hx], rfl, rfl, ha⟩, ovfNew := hn.trans, ovf := ho.trans }

theorem refl (f : FltG) : f.Keeps f := .of_eq rfl rfl rfl

theorem of_flt_eq (h : g = f) : f.Keeps g := h ▸ .refl f

theorem trans (h : f.Keeps g) (h' : g.Keeps k) : f.Keeps k where
  latch i hi x hx ha := by
    obtain ⟨y, hy, hcode, hinst, hact⟩ := h.latch i hi x hx ha
    obtain ⟨z, hz, hcode', hinst', hact'⟩ := h'.latch i hi y hy hact
    exact ⟨z, hz, hcode'.trans hcode, hinst'.trans hinst, hact'⟩
  ovfNew := h'.ovfNew ∘ h.ovfNew
  ovf := h'.ovf ∘ h.ovf

end FltG.Keeps

section
variable {c d e : Core} {code : BitVec 16} {inst : BitVec 8}

theorem exists_latch_of_faultActive (h : faultActive c code inst = true) :
    ∃ (i : Nat) (hi : i < 64) (x : Latch), c.flt.l[i] = some x ∧ x.code = code ∧ x.inst = inst ∧ x.active = true := by
  obtain ⟨e, he, hp⟩ := List.any_eq_true.1 h
  obtain ⟨i, hi, rfl⟩ := List.mem_iff_getElem.1 he
  have h64 : i < 64 := by simpa using hi
  cases hx : c.flt.l[i] with
  | none => simp [hx] at hp
  | some x => exact ⟨i, h64, x, hx, by simpa [hx, and_assoc] using hp⟩

theorem codeActive_iff : codeActive c code = true ↔ ∃ inst, faultActive c code inst = true := by
  unfold codeActive faultActive
  simp only [List.any_eq_true]
  constructor
  · rintro ⟨e, he, hp⟩
    cases e with
    | none => cases hp
    | some x => exact ⟨x.inst, some x, he, by simpa using hp⟩
  · rintro ⟨inst, e, he, hp⟩
    cases e with
    | none => cases hp
    | some x =>
      simp only [Bool.and_eq_true, beq_iff_eq] at hp
      exact ⟨some x, he, by simp [hp]⟩

/-- A latch of the code stands with its reaction, or the table has overflowed in this merge tick. -/
def Core.raised (c : Core) (code : BitVec 16) : Prop := codeActive c code = true ∨ c.flt.ovfNew = true

theorem FltG.Keeps.faultActive (h : c.flt.Keeps d.flt) (ha : faultActive c code inst = true) : faultActive d code inst = true := by
  obtain ⟨i, hi, x, hx, hcode, hinst, hact⟩ := exists_latch_of_faultActive ha
  obtain ⟨y, hy, hcode', hinst', hact'⟩ := h.latch i hi x hx hact
  exact faultActive_of_getElem code inst i hi y hy (hcode'.trans hcode) (hinst'.trans hinst) hact'

theorem FltG.Keeps.latched (h : c.flt.Keeps d.flt) : latched c code inst → latched d code inst :=
  .imp h.faultActive (.imp h.ovfNew h.ovf)

theorem FltG.Keeps.raised (h : c.flt.Keeps d.flt) : c.raised code → d.raised code :=
  .imp (fun ha => let ⟨inst, hi⟩ := codeActive_iff.1 ha; codeActive_iff.2 ⟨inst, h.faultActive hi⟩) h.ovfNew

/-! ### What each part of a fault leaves of the latches -/

theorem keeps_latchPut (c : Core) (code : BitVec 16) (inst : BitVec 8) (cls : FCls) (p : ProbeSt) :
    c.flt.Keeps (latchPut c code inst cls p).flt := by
  unfold latchPut
  split
  · rename_i n hn
    refine { latch := fun i hi x hx ha => ?_, ovfNew := id, ovf := id }
    by_cases h : i = n
    · subst h
      refine ⟨_, by rw [getElem_vupd_self _ _ _ hi, hx], ?_⟩
      exact ⟨rfl, rfl, rfl⟩
    · exact ⟨x, (getElem_vupd_ne _ _ _ _ _ h).trans hx, rfl, rfl, ha⟩
  · split
    · rename_i n hn
      obtain ⟨_, hnone, -⟩ := List.findIdx?_eq_some_iff_getElem.1 hn
      refine { latch := fun i hi x hx ha => ?_, ovfNew := id, ovf := id }
      have h : i ≠ n := by
        rintro rfl
        simp [hx] at hnone
      exact ⟨x, (getElem_vupd_ne _ _ _ _ _ h).trans hx, rfl, rfl, ha⟩
    · exact { latch := (FltG.Keeps.refl _).latch, ovfNew := fun _ => rfl, ovf := id }

theorem keeps_queueProbe (c : Core) (code : BitVec 16) (inst : BitVec 8) : c.flt.Keeps (queueProbe c code inst).flt := by
  unfold queueProbe
  split
  · exact .refl _
  · split
    · exact .of_eq rfl rfl rfl
    · split
      · exact .of_eq rfl rfl rfl
      · refine { latch := fun i hi x hx ha => ?_, ovfNew := id, ovf := id }
        by_cases hk : x.code = code ∧ x.inst = inst
        · exact ⟨{ x with probe := .notRun }, by simp [updLatch, hx, hk], rfl, rfl, ha⟩
        · exact ⟨x, by simp [updLatch, hx, hk], rfl, rfl, ha⟩

/-- A latch put stands: it is taken, or the table overflows in this merge tick, whatever overflowed before. -/
theorem raised_latchPut (c : Core) (code : BitVec 16) (inst : BitVec 8) (cls : FCls) (p : ProbeSt) :
    (latchPut c code inst cls p).raised code := by
  have hovf : latchPut { c with flt := { c.flt with ovf := false } } code inst cls p =
      { latchPut c code inst cls p with flt := { (latchPut c code inst cls p).flt with ovf := false } } := by
    unfold latchPut
    dsimp only
    repeat' split
    all_goals rfl
  have h := latched_latchPut { c with flt := { c.flt with ovf := false } } code inst cls p
  rw [hovf] at h
  rcases h with h | h | h
  · exact .inl (codeActive_iff.2 ⟨inst, h⟩)
  · exact .inr h
  · cases h

/-! ### What a fault below class D changes -/

/-- `d` is `c` after faults below class D and what the charger marks beside them: they touch the charger, the path, the stage,
the ports, the bus, the vault, the log and the fault logic, and every fault that stood still stands. -/
structure Reacted (c d : Core) : Prop where
  frame : d = { c with
    life := { c.life with pathDriven := d.life.pathDriven }, path := d.path, chg := d.chg, gdr := d.gdr, pd := d.pd
    plb := d.plb, vlt := d.vlt, own := d.own, free := d.free, flt := d.flt }
  faults : c.flt.Keeps d.flt

namespace Reacted

theorem of_eq (hd : d = { c with
    life := { c.life with pathDriven := d.life.pathDriven }, path := d.path, chg := d.chg, gdr := d.gdr, pd := d.pd
    plb := d.plb, vlt := d.vlt, own := d.own, free := d.free, flt := d.flt }) (hf : d.flt = c.flt) : Reacted c d :=
  ⟨hd, .of_eq (congrArg FltG.l hf) (congrArg FltG.ovfNew hf) (congrArg FltG.ovf hf)⟩

theorem refl (c : Core) : Reacted c c := .of_eq rfl rfl

theorem trans (h : Reacted c d) (h' : Reacted d e) : Reacted c e := by
  refine ⟨h'.frame.trans ?_, h.faults.trans h'.faults⟩
  rw [h.frame]

section
variable (h : Reacted c d)
include h

theorem kept : d.kept = c.kept := by
  rw [h.frame]
  rfl

theorem maq : d.maq = c.maq := by
  rw [h.frame]
  rfl

theorem cel : d.cel = c.cel := by rw [h.frame]

theorem ldg : d.ldg = c.ldg := by rw [h.frame]

theorem twn : d.twn = c.twn := by rw [h.frame]

theorem scanOwed : d.life.scanOwed = c.life.scanOwed := by rw [h.frame]

theorem noResetRaised (hn : Machine.noResetRaised c) : Machine.noResetRaised d := noResetRaised_of_kept h.kept hn

end

end Reacted

theorem reacted_exportEnd (c : Core) (hr : Bool) : Reacted c (exportEnd c hr) := by
  obtain ⟨b, path, gdr, pd, plb, vlt, he, -⟩ := exportEnd_eq c hr
  rw [he]
  exact .of_eq rfl rfl

theorem reacted_classAction (c : Core) {cls : FCls} (cause ph : Nat) (code : BitVec 16) (h : cls ≠ .d) :
    Reacted c (classAction c cls cause ph code) := by
  cases cls with
  | d => exact absurd rfl h
  | b => exact .refl c
  | c => exact .refl c
  | a =>
    have hnote : Reacted (chiselAll c cause ph) (noteChisel c.gdr (chiselAll c cause ph) code) := by
      rw [noteChisel_eq]
      exact .of_eq rfl rfl
    have hchisel : Reacted c (chiselAll c cause ph) := .of_eq rfl rfl
    exact ((hchisel.trans hnote).trans (reacted_exportEnd _ true)).trans (.of_eq rfl rfl)

theorem reacted_raisedC (c : Core) (code : BitVec 16) (row cls : FCls) : Reacted c (raisedC c code row cls) := by
  unfold raisedC
  split
  · exact .of_eq rfl rfl
  · exact .refl c

theorem reacted_exportFault (c : Core) (code : BitVec 16) : Reacted c (exportFault c code) := by
  unfold exportFault
  split
  · exact reacted_exportEnd c true
  · exact .refl c

/-- Only a reset notes which block its fault names. -/
theorem noteInst_of_reacted (inst : BitVec 8) (h : Reacted c d) : noteInst c d inst = d := by
  have hst : d.life.st = c.life.st := congrArg Kept.st h.kept
  simp [noteInst, hst]

/-- A fault below class D reacts, and stands latched in this merge tick or among the overflow (R284, R288). -/
theorem reacted_faultWith (c : Core) (code : BitVec 16) (inst : BitVec 8) (row : FCls) (p : ProbeSt) (probe : Bool)
    (cause ph : Nat) (h : classInForce c code row ≠ .d) :
    Reacted c (faultWith c code inst row p probe cause ph) ∧ (faultWith c code inst row p probe cause ph).raised code := by
  have hput : Reacted c (latchPut c code inst (classInForce c code row) p) :=
    ⟨by rw [latchPut_eq], keeps_latchPut c code inst _ p⟩
  have hrec : Reacted (latchPut c code inst (classInForce c code row) p)
      (latchRecord (latchPut c code inst (classInForce c code row) p) code inst) := by
    obtain ⟨o, n, q, e⟩ := latchRecord_eq (latchPut c code inst (classInForce c code row) p) code inst
    rw [e]
    exact ⟨rfl, .of_eq rfl rfl rfl⟩
  have hprobe : ∀ d : Core, Reacted d (if probe = true then queueProbe d code inst else d) := fun d => by
    split
    · exact ⟨by rw [queueProbe_eq], keeps_queueProbe d code inst⟩
    · exact .refl d
  have hreact : ∀ d : Core, Reacted d (exportFault (raisedC (classAction d (classInForce c code row) cause ph code) code row
      (classInForce c code row)) code) := fun d =>
    ((reacted_classAction d cause ph code h).trans (reacted_raisedC _ _ _ _)).trans (reacted_exportFault _ _)
  have hrest := (hrec.trans (hprobe _)).trans (hreact _)
  unfold faultWith
  dsimp only
  rw [noteInst_of_reacted inst (hreact _)]
  exact ⟨hput.trans hrest, hrest.faults.raised (raised_latchPut c code inst _ p)⟩

section
variable (inst) (hn : noResetRaised c) (hrow : (rowClass code).getD .b ≠ .d)
include hn hrow

theorem reacted_fault : Reacted c (fault c code inst) :=
  (reacted_faultWith c code inst _ .pending true 3 0 (classInForce_ne_d code hn hrow)).1

theorem raised_fault : (fault c code inst).raised code :=
  (reacted_faultWith c code inst _ .pending true 3 0 (classInForce_ne_d code hn hrow)).2

theorem reacted_faultLasting : Reacted c (faultLasting c code inst) :=
  (reacted_faultWith c code inst _ .lasting false 3 0 (classInForce_ne_d code hn hrow)).1

end

end

end Sys2Proof.Machine
end

section
/-! PROOFS. Wires and channels declared, and a controller without its twin (chapter 07). -/

namespace Sys2Proof.Machine

/-- The controller with another state of its cell monitor. -/
def Core.withCel (c : Core) (g : CelG) : Core := { c with cel := g }

section
variable {c : Core} {code : BitVec 16} (inst : Nat) (cells : List Nat) (hn : noResetRaised c)
  (hrow : (rowClass code).getD .b ≠ .d)
include hn hrow

/-- Without values of a twin, a fault of the cells is lasting at once, and a second unknown cell another fault (R212). -/
theorem cellFault_own (htwin : ¬ (c.attached && !c.cel.twin.isEmpty) = true) : Reacted c (cellFault c code inst cells) := by
  have hown := reacted_faultLasting (BitVec.ofNat 8 inst) hn hrow
  unfold cellFault
  rw [if_neg htwin]
  dsimp only
  split
  · exact hown.trans (reacted_faultLasting 0 (hown.noResetRaised hn) (by decide))
  · exact hown

/-- A fault of the cells changes of the cell monitor at most what the twin's values take over (R210, R212). -/
theorem cellFault_reacts (g : CelG) : ∃ adopted twDis tests,
    Reacted (c.withCel { g with adopted := adopted, twDis := twDis, tests := tests }) (cellFault (c.withCel g) code inst cells) := by
  by_cases htwin : ((c.withCel g).attached && !(c.withCel g).cel.twin.isEmpty) = true
  · have hmasked : ∀ g' : CelG, Reacted (c.withCel g')
        (faultWith (c.withCel g') 0x0604 (BitVec.ofNat 8 inst) .b .lasting false 3 0) := fun g' =>
      (reacted_faultWith _ _ _ _ _ _ _ _ (classInForce_ne_d (c := c.withCel g') _ hn (by decide))).1
    unfold cellFault
    rw [if_pos htwin]
    exact ⟨_, _, _, hmasked _⟩
  · exact ⟨g.adopted, g.twDis, g.tests, cellFault_own (c := c.withCel g) inst cells hn hrow htwin⟩

end

/-- The fault of a wire is that of the cells beside it, below class D. -/
theorem wireFault_eq (c : Core) (j : Nat) : ∃ code inst cells, (rowClass code).getD .b ≠ .d ∧
    wireFault c j = cellFault c code inst cells := by
  unfold wireFault
  dsimp only
  repeat' split
  all_goals exact ⟨_, _, _, by decide, rfl⟩

/-! ### Declarations (R194, R196) -/

/-- The cell monitor with a wire open. -/
def CelG.opened (g : CelG) (j : Nat) : CelG := { g with wireOpen := putBit g.wireOpen j true, balancing := false }

/-- The cell monitor with a channel faulted. -/
def CelG.channelLost (g : CelG) (k : Nat) : CelG := { g with chanFlt := putBit g.chanFlt k true, balancing := false }

theorem declareWire_eq (c : Core) (j : Nat) : declareWire c j =
    if c.cel.wireOpen.getLsbD j then c else wireFault (c.withCel (c.cel.opened j)) j := rfl

theorem declareChannel_eq (c : Core) (k : Nat) : declareChannel c k =
    if c.cel.chanFlt.getLsbD k then c else channelFault (c.withCel (c.cel.channelLost k)) k := rfl

/-- What a declaration leaves: the lifecycle, the ledger and the result of the diagnostic. -/
structure Declared (c d : Core) : Prop where
  kept : d.kept = c.kept
  ldg : d.ldg = c.ldg
  diagPass : d.cel.diagPass = c.cel.diagPass

theorem declared_of_reacted {c d : Core} {g : CelG} (h : Reacted (c.withCel g) d) (hg : g.diagPass = c.cel.diagPass) :
    Declared c d :=
  { kept := h.kept, ldg := h.ldg, diagPass := (congrArg CelG.diagPass h.cel).trans hg }

section
variable {c : Core} (hn : noResetRaised c)
include hn

theorem declareWire_declares {j : Nat} (hj : j < 17) :
    Declared c (declareWire c j) ∧ (declareWire c j).cel.wireOpen.getLsbD j = true := by
  rw [declareWire_eq]
  split
  · rename_i hopen
    exact ⟨⟨rfl, rfl, rfl⟩, hopen⟩
  · obtain ⟨code, inst, cells, hrow, hwire⟩ := wireFault_eq (c.withCel (c.cel.opened j)) j
    obtain ⟨adopted, twDis, tests, hreact⟩ := cellFault_reacts inst cells hn hrow (c.cel.opened j)
    rw [hwire]
    refine ⟨declared_of_reacted hreact rfl, ?_⟩
    rw [hreact.cel]
    exact (getLsbD_putBit _ _ _ _ hj).trans (if_pos rfl)

theorem declareChannel_declares {k : Nat} (hk : k < 16) :
    Declared c (declareChannel c k) ∧ (declareChannel c k).cel.chanFlt.getLsbD k = true := by
  rw [declareChannel_eq]
  split
  · rename_i hlost
    exact ⟨⟨rfl, rfl, rfl⟩, hlost⟩
  · obtain ⟨adopted, twDis, tests, hreact⟩ :=
      cellFault_reacts (code := 0x0603) (k + 1) [k] hn (by decide) (c.cel.channelLost k)
    rw [channelFault]
    refine ⟨declared_of_reacted hreact rfl, ?_⟩
    rw [hreact.cel]
    exact (getLsbD_putBit _ _ _ _ hk).trans (if_pos rfl)

end

/-! ### Without the twin (Table 07-5) -/

/-- Faults in a row of a controller without its twin. -/
theorem reacted_foldl {α : Type} {f : Core → α → Core}
    (h : ∀ (d : Core) (x : α), noResetRaised d → d.attached = false → Reacted d (f d x)) (l : List α) :
    ∀ c : Core, noResetRaised c → c.attached = false → Reacted c (l.foldl f c) := by
  induction l with
  | nil => exact fun c _ _ => .refl c
  | cons x l ih =>
    intro c hn ha
    have hx := h c x hn ha
    exact hx.trans (ih _ (hx.noResetRaised hn) ((congrArg TwnG.attached hx.twn).trans ha))

/-- The faults of wires and channels of a controller without its twin. -/
theorem reacted_lone {c : Core} (ws ks : List Nat) (hn : noResetRaised c) (ha : c.attached = false) :
    Reacted c (ks.foldl channelFault (ws.foldl wireFault c)) := by
  have hown : ∀ d : Core, d.attached = false → ¬ (d.attached && !d.cel.twin.isEmpty) = true := fun d hd => by simp [hd]
  have hwires : Reacted c (ws.foldl wireFault c) := by
    refine reacted_foldl (fun d j hd hda => ?_) ws c hn ha
    obtain ⟨code, inst, cells, hrow, hwire⟩ := wireFault_eq d j
    rw [hwire]
    exact cellFault_own inst cells hd hrow (hown d hda)
  refine hwires.trans (reacted_foldl (fun d k hd hda => ?_) ks _ (hwires.noResetRaised hn)
    ((congrArg TwnG.attached hwires.twn).trans ha))
  exact cellFault_own (code := 0x0603) (k + 1) [k] hd (by decide) (hown d hda)

/-- A controller without its twin gives up the twin's values, and no more of its cell monitor. -/
theorem cellsAlone_reacts {c : Core} (hn : noResetRaised c) : ∃ adopted twDis twin, (c.cel.adopted = 0 → adopted = 0) ∧
    Reacted (c.withCel { c.cel with adopted := adopted, twDis := twDis, twin := twin }) (cellsAlone c) := by
  unfold cellsAlone
  split
  · exact ⟨c.cel.adopted, c.cel.twDis, c.cel.twin, id, .refl c⟩
  · rename_i htwin
    have ha : c.attached = false := by
      cases hatt : c.attached with
      | false => rfl
      | true => simp [hatt] at htwin
    exact ⟨0, 0, [], fun _ => rfl,
      reacted_lone (c := c.withCel { c.cel with adopted := 0, twDis := 0, twin := [] }) _ _ hn ha⟩

end Sys2Proof.Machine
end

section
/-! PROOFS. The conversion window: what it records, and the faults that it finds (chapter 07). -/

namespace Sys2Proof.Machine

/-! ### The parts of the window (R190, R191, Table 07-2) -/

/-- The conversions of a window taken. -/
def Core.converted (c : Core) (cells : List Nat) (stack : Nat) : Core :=
  { c with
    cel := { c.cel with
      scanTick := c.life.tick, raw := cells, rawStack := stack
      hist := ((pubCells c cells c.cel.twin, stack) :: c.cel.hist).take 100 }
    life := { c.life with scanOwed := putBit c.life.scanOwed 0 false } }

/-- The conversions taken, compared with the stack, published and sent to the twin. -/
def Core.measured (c : Core) (cells : List Nat) (stack : Nat) : Core :=
  let c := publishCells (stackCheck ((cellsAlone c).converted cells stack) cells stack)
  twSend c 3 ((c.ldg.closeNo.toNat : Int) :: (stack : Int) :: cells.map fun (v : Nat) => (v : Int))

/-- Every balance switch held open (Table 07-5 row 7). -/
def Core.switchesHeld (c : Core) : Core := c.withCel { c.cel with balFault := true, balancing := false }

/-- A balance switch that does not read as commanded is a fault, once (Table 07-5 row 7). -/
def switchCheck (d : BitVec 16) (c : Core) : Core :=
  if d != 0 && !c.cel.balFault then faultWith c.switchesHeld 0x0607 0 .c .lasting false 3 0 else c

/-- The faults of a window, and what Q_REF and the charger take from it. -/
def Core.windowJudged (c : Core) (d : BitVec 16) : Core := overvoltage (limitCorrection (ocvStart (switchCheck d c)))

/-- Step 3 of the cycle: its diagnostic, the balance switches, and the tests of a disagreement that begins. -/
def cycleStep (owed was : Bool) (c : Core) : Core :=
  let c := balanceStep (chooseDiag c owed)
  if c.cel.disagree && !was then
    { c with cel := { c.cel with tests := .outerWires :: .injectAll :: c.cel.tests } }
  else c

theorem exec_conversionWindowEnd (cells : List Nat) (stack : Nat) (d : BitVec 16) (s : State) :
    exec (.conversionWindowEnd cells stack d) s = onRun s fun c =>
      cycleStep (c.life.scanOwed.getLsbD 0) c.cel.disagree ((c.measured cells stack).windowJudged d) := rfl

/-! ### What is recorded -/

/-- What a window records and leaves: its conversions, as many published cells as the pack has, no owed scan, and the ledger's
channels. -/
structure Scanned (cells : List Nat) (stack : Nat) (c d : Core) : Prop where
  kept : d.kept = c.kept
  raw : d.cel.raw = cells ∧ d.cel.rawStack = stack
  hist : c.cel.adopted = 0 → d.cel.hist.tail = c.cel.hist.take 99 ∧ d.cel.hist.head? = some (cells, stack)
  cells : d.cel.cells.length = c.maq.pack.n
  owed : d.life.scanOwed.getLsbD 0 = false
  ch : d.ldg.ch = c.ldg.ch

/-- What `Scanned` says of the state behind a window. -/
def Core.scan (c : Core) : Kept × CelG × BitVec 2 × Vector LdgChan 8 :=
  (c.kept, { raw := c.cel.raw, rawStack := c.cel.rawStack, hist := c.cel.hist, cells := c.cel.cells }, c.life.scanOwed, c.ldg.ch)

theorem Scanned.of_scan {cells : List Nat} {stack : Nat} {c d e : Core} (h : Scanned cells stack c d) (he : e.scan = d.scan) :
    Scanned cells stack c e := by
  simp only [Core.scan, Prod.mk.injEq, CelG.mk.injEq, true_and, and_true] at he
  obtain ⟨hk, ⟨hcells, hhist, hraw, hstack⟩, howed, hch⟩ := he
  exact { kept := hk.trans h.kept, raw := by rw [hraw, hstack]; exact h.raw, hist := by rw [hhist]; exact h.hist
          cells := by rw [hcells]; exact h.cells, owed := by rw [howed]; exact h.owed, ch := hch.trans h.ch }

theorem Reacted.scan {c d : Core} (h : Reacted c d) : d.scan = c.scan := by
  rw [h.frame]
  rfl

/-- With no cell adopted the own conversions are published. -/
theorem pubCells_own {c : Core} (own other : List Nat) (h : c.cel.adopted = 0) : pubCells c own other = own := by
  refine List.ext_getElem (by simp [pubCells]) fun k hk hk' => ?_
  simp [pubCells, h, hk']

section
variable (c : Core)

theorem twSend_eq (type : Nat) (data : List Int) : ∃ twn, twSend c type data = { c with twn := twn } := by
  unfold twSend
  split <;> exact ⟨_, rfl⟩

theorem stackCheck_eq (cells : List Nat) (stack : Nat) : ∃ offset disagree classify, stackCheck c cells stack =
    c.withCel { c.cel with offset := offset, disagree := disagree, classify := classify } := by
  unfold stackCheck
  split
  · exact ⟨c.cel.offset, c.cel.disagree, c.cel.classify, rfl⟩
  · exact ⟨_, _, _, rfl⟩

theorem publishCells_eq : ∃ pub st, pub.length = nCells c ∧
    publishCells c = c.withCel { c.cel with cells := pub, stack := st } :=
  ⟨_, _, by simp, rfl⟩

end

/-- What follows the conversions changes of them nothing but the published values and the stack's disagreement. -/
theorem measured_eq (c : Core) (cells : List Nat) (stack : Nat) : ∃ offset disagree classify pub st twn,
    pub.length = nCells (cellsAlone c) ∧ c.measured cells stack = { (cellsAlone c).converted cells stack with
      cel := { ((cellsAlone c).converted cells stack).cel with
        offset := offset, disagree := disagree, classify := classify, cells := pub, stack := st }
      twn := twn } := by
  obtain ⟨offset, disagree, classify, hcheck⟩ := stackCheck_eq ((cellsAlone c).converted cells stack) cells stack
  obtain ⟨pub, st, hlen, hpub⟩ := publishCells_eq (stackCheck ((cellsAlone c).converted cells stack) cells stack)
  obtain ⟨twn, hsent⟩ := twSend_eq (publishCells (stackCheck ((cellsAlone c).converted cells stack) cells stack)) 3
    (((cellsAlone c).ldg.closeNo.toNat : Int) :: (stack : Int) :: cells.map fun (v : Nat) => (v : Int))
  have hno : (publishCells (stackCheck ((cellsAlone c).converted cells stack) cells stack)).ldg = (cellsAlone c).ldg := by
    rw [hpub, hcheck]
    rfl
  rw [hcheck] at hlen
  refine ⟨offset, disagree, classify, pub, st, twn, hlen, ?_⟩
  rw [Core.measured, hno, hsent, hpub, hcheck]
  rfl

/-- A window's conversions are recorded, and the mark of a switch fault stands (R190, R191). -/
theorem scanned_measured {c : Core} (cells : List Nat) (stack : Nat) (hn : noResetRaised c) :
    Scanned cells stack c (c.measured cells stack) ∧ (c.measured cells stack).cel.balFault = c.cel.balFault := by
  obtain ⟨adopted, twDis, twin, hadopt, hlone⟩ := cellsAlone_reacts hn
  obtain ⟨offset, disagree, classify, pub, st, twn, hlen, hmeasured⟩ := measured_eq c cells stack
  have hkeeps : (cellsAlone c).cel.adopted = adopted ∧ (cellsAlone c).cel.hist = c.cel.hist ∧
      (cellsAlone c).cel.balFault = c.cel.balFault := by
    rw [hlone.cel]
    exact ⟨rfl, rfl, rfl⟩
  obtain ⟨hadopted, hhist, hbal⟩ := hkeeps
  rw [hmeasured]
  refine ⟨{ kept := hlone.kept, raw := ⟨rfl, rfl⟩, hist := fun h => ?_
            cells := hlen.trans (congrArg (fun m : Maquette => m.pack.n) hlone.maq)
            owed := (getLsbD_putBit _ _ _ _ (by decide)).trans (if_pos rfl)
            ch := congrArg LdgG.ch hlone.ldg }, hbal⟩
  have hown : pubCells (cellsAlone c) cells (cellsAlone c).cel.twin = cells :=
    pubCells_own _ _ (hadopted.trans (hadopt h))
  simp [Core.converted, hown, hhist]

/-! ### The faults of a window -/

section
variable {c : Core} (hn : noResetRaised c)
include hn

theorem switchFault_reacts : Reacted c.switchesHeld (faultWith c.switchesHeld 0x0607 0 .c .lasting false 3 0) ∧
    latched (faultWith c.switchesHeld 0x0607 0 .c .lasting false 3 0) 0x0607 0 := by
  have hcls : classInForce c.switchesHeld 0x0607 .c ≠ .d := classInForce_ne_d (c := c.switchesHeld) _ hn (by decide)
  exact ⟨(reacted_faultWith _ _ _ _ _ _ _ _ hcls).1, latched_faultWith _ _ _ _ _ _ _ _ hcls⟩

theorem switchCheck_scan (d : BitVec 16) : (switchCheck d c).scan = c.scan := by
  unfold switchCheck
  split
  · exact (switchFault_reacts hn).1.scan
  · rfl

/-- A switch that differs is a fault of its own, and holds the switches open (Table 07-5 row 7). -/
theorem switchCheck_differs {d : BitVec 16} (hd : d ≠ 0) (hb : c.cel.balFault = false) :
    (switchCheck d c).cel.balFault = true ∧ latched (switchCheck d c) 0x0607 0 := by
  obtain ⟨hreact, hlatch⟩ := switchFault_reacts hn
  rw [switchCheck, if_pos (by simpa [hb] using hd)]
  exact ⟨by rw [hreact.cel]; rfl, hlatch⟩

end

/-- Charging suspended and return grants refused until the next start (Table 06-4). -/
def Core.chargeStopped (c : Core) : Core :=
  { c with chg := { c.chg with hardFault := true, refuseReturn := true, askRefuse := true } }

/-- Charging stopped by an overvoltage, once (Table 06-4 rows 1 and 2). -/
def ovStop (c : Core) (code : BitVec 16) : Core :=
  if codeActive c code then c else fault c.chargeStopped code 0

/-- The overvoltage of a cell (Table 06-4 row 1). -/
def cellOvervoltage (c : Core) : Core := if c.maq.pack.vOv * 10 < highCell c then ovStop c 0x0401 else c

/-- The overvoltage of the stack (Table 06-4 row 2). -/
def stackOvervoltage (c : Core) : Core := if nCells c * vFltEff c * 101 / 100 < stackMv c then ovStop c 0x0402 else c

theorem overvoltage_eq (c : Core) : overvoltage c = stackOvervoltage (cellOvervoltage c) := rfl

section
variable {c : Core} {code : BitVec 16} (hn : noResetRaised c)
include hn

theorem ovStop_reacts (hrow : (rowClass code).getD .b ≠ .d) : Reacted c (ovStop c code) ∧ (ovStop c code).raised code := by
  unfold ovStop
  split
  · rename_i hactive
    exact ⟨.refl c, .inl hactive⟩
  · have hstop : Reacted c c.chargeStopped := .of_eq rfl rfl
    have hns := hstop.noResetRaised hn
    exact ⟨hstop.trans (reacted_fault 0 hns hrow), raised_fault 0 hns hrow⟩

theorem cellOvervoltage_reacts : Reacted c (cellOvervoltage c) ∧
    (c.maq.pack.vOv * 10 < highCell c → (cellOvervoltage c).raised 0x0401) := by
  unfold cellOvervoltage
  split
  · obtain ⟨hstop, hraised⟩ := ovStop_reacts (code := 0x0401) hn (by decide)
    exact ⟨hstop, fun _ => hraised⟩
  · rename_i hbelow
    exact ⟨.refl c, fun h => absurd h hbelow⟩

theorem stackOvervoltage_reacts : Reacted c (stackOvervoltage c) := by
  unfold stackOvervoltage
  split
  · exact (ovStop_reacts hn (by decide)).1
  · exact .refl c

/-- A cell above V_OV stops charging, and the stack's overvoltage leaves that fault standing (Table 06-4). -/
theorem overvoltage_reacts : Reacted c (overvoltage c) ∧
    (c.maq.pack.vOv * 10 < highCell c → (overvoltage c).raised 0x0401) := by
  obtain ⟨hcell, hraised⟩ := cellOvervoltage_reacts hn
  have hstack := stackOvervoltage_reacts (hcell.noResetRaised hn)
  rw [overvoltage_eq]
  exact ⟨hcell.trans hstack, fun h => hstack.faults.raised (hraised h)⟩

end

/-! ### Q_REF, the charger and the next cycle -/

section
variable (c : Core)

/-- Q_REF from the curve leaves what the window recorded and found. -/
theorem ocvStart_leaves : (ocvStart c).scan = c.scan ∧ (ocvStart c).cel.balFault = c.cel.balFault ∧ (ocvStart c).flt = c.flt := by
  unfold ocvStart
  split <;> exact ⟨rfl, rfl, rfl⟩

theorem reacted_limitCorrection : Reacted c (limitCorrection c) := by
  unfold limitCorrection
  dsimp only
  split <;> exact .of_eq rfl rfl

theorem chooseDiag_eq (owed : Bool) : chooseDiag c owed = c.withCel { c.cel with
    testNow := (chooseDiag c owed).cel.testNow, diag := (chooseDiag c owed).cel.diag
    displaced := (chooseDiag c owed).cel.displaced, tests := (chooseDiag c owed).cel.tests } := by
  unfold chooseDiag
  dsimp only
  repeat' split
  all_goals rfl

/-- `d` is `c` with the diagnostic of a cycle chosen and its balance switches set, none beside a diagnostic (R193, R198). -/
structure CycleStepped (c d : Core) : Prop where
  frame : d = c.withCel { c.cel with
    testNow := d.cel.testNow, diag := d.cel.diag, displaced := d.cel.displaced, tests := d.cel.tests
    balancing := d.cel.balancing, balSw := d.cel.balSw }
  opens : d.cel.diag ≠ 0 → d.cel.balSw = 0

theorem cycleStepped_cycleStep (owed was : Bool) : CycleStepped c (cycleStep owed was c) := by
  have hbal : CycleStepped c (balanceStep (chooseDiag c owed)) :=
    { frame := by
        rw [chooseDiag_eq]
        rfl
      opens := fun h => by
        have hdiag : ((chooseDiag c owed).cel.diag == 0) = false := beq_eq_false_iff_ne.2 h
        simp [balanceStep, hdiag] }
  unfold cycleStep
  dsimp only
  split
  · refine ⟨?_, hbal.opens⟩
    rw [hbal.frame]
    rfl
  · exact hbal

end

/-- The next cycle leaves what the window recorded and found. -/
theorem CycleStepped.leaves {c d : Core} (h : CycleStepped c d) :
    d.scan = c.scan ∧ d.cel.balFault = c.cel.balFault ∧ d.flt = c.flt := by
  rw [h.frame]
  exact ⟨rfl, rfl, rfl⟩

theorem Reacted.highCell {c d : Core} (h : Reacted c d) : Machine.highCell d = Machine.highCell c := by
  rw [h.frame]
  rfl

theorem CycleStepped.highCell {c d : Core} (h : CycleStepped c d) : Machine.highCell d = Machine.highCell c := by
  rw [h.frame]
  rfl

/-! ### CONVERSION_WINDOW_END -/

/-- What stands after the faults of a window: what it recorded, the fault of a switch that differs, and that of a cell above
V_OV. -/
theorem windowJudged_finds {c : Core} (d : BitVec 16) (hn : noResetRaised c) : (c.windowJudged d).scan = c.scan ∧
    (d ≠ 0 → c.cel.balFault = false → (c.windowJudged d).cel.balFault = true ∧ latched (c.windowJudged d) 0x0607 0) ∧
    (c.maq.pack.vOv * 10 < highCell (c.windowJudged d) → (c.windowJudged d).raised 0x0401) := by
  obtain ⟨hocv, hocvBal, hocvFlt⟩ := ocvStart_leaves (switchCheck d c)
  have hlimit := reacted_limitCorrection (ocvStart (switchCheck d c))
  have hscan := hlimit.scan.trans (hocv.trans (switchCheck_scan hn d))
  have hkept : (limitCorrection (ocvStart (switchCheck d c))).kept = c.kept := congrArg Prod.fst hscan
  obtain ⟨hreact, hraised⟩ := overvoltage_reacts (noResetRaised_of_kept hkept hn)
  unfold Core.windowJudged
  refine ⟨hreact.scan.trans hscan, fun hd hb => ?_, fun hover => ?_⟩
  · obtain ⟨hheld, hlatch⟩ := switchCheck_differs hn hd hb
    have hrest := hlimit.trans hreact
    exact ⟨(congrArg CelG.balFault hrest.cel).trans (hocvBal.trans hheld),
      hrest.faults.latched ((FltG.Keeps.of_flt_eq hocvFlt).latched hlatch)⟩
  · have hmaq : (limitCorrection (ocvStart (switchCheck d c))).maq = c.maq := congrArg (fun k : Kept => k.mq.getD {}) hkept
    refine hraised ?_
    rw [hmaq, ← hreact.highCell]
    exact hover

/-- A window in Run: what it records, the fault of a switch that differs and of a cell above V_OV, and the balance switches open
beside a diagnostic. -/
theorem exec_conversionWindowEnd_run {s : State} (cells : List Nat) (stack : Nat) (d : BitVec 16)
    (hrun : s.core.life.st = .run) (hn : noResetRaised s.core) : ∃ t, exec (.conversionWindowEnd cells stack d) s = .next t ∧
      Scanned cells stack s.core t.core ∧
      (d ≠ 0 → s.core.cel.balFault = false → t.core.cel.balFault = true ∧ latched t.core 0x0607 0) ∧
      (s.core.maq.pack.vOv * 10 < highCell t.core → t.core.raised 0x0401) ∧ (t.core.cel.diag ≠ 0 → t.core.cel.balSw = 0) := by
  obtain ⟨hmeasured, hbal⟩ := scanned_measured cells stack hn
  obtain ⟨hscan, hswitch, hover⟩ := windowJudged_finds d (noResetRaised_of_kept hmeasured.kept hn)
  have hstep := cycleStepped_cycleStep ((s.core.measured cells stack).windowJudged d) (s.core.life.scanOwed.getLsbD 0)
    s.core.cel.disagree
  obtain ⟨hstepScan, hstepBal, hstepFlt⟩ := hstep.leaves
  have hscanned := (hmeasured.of_scan hscan).of_scan hstepScan
  have hmaq : (s.core.measured cells stack).maq = s.core.maq := congrArg (fun k : Kept => k.mq.getD {}) hmeasured.kept
  refine ⟨_, (exec_conversionWindowEnd cells stack d s).trans (onCoreIf_of_kept ((inRun_iff _).2 hrun) rfl hscanned.kept),
    hscanned, fun hd hb => ?_, fun h => ?_, hstep.opens⟩
  · obtain ⟨hheld, hlatch⟩ := hswitch hd (hbal.trans hb)
    exact ⟨hstepBal.trans hheld, (FltG.Keeps.of_flt_eq hstepFlt).latched hlatch⟩
  · refine (FltG.Keeps.of_flt_eq hstepFlt).raised (hover ?_)
    rw [hmaq, ← hstep.highCell]
    exact h

end Sys2Proof.Machine
end

section
/-! PROOFS. The diagnostic window: its tests, and what they declare (chapter 07). -/

namespace Sys2Proof.Machine

/-! ### The tests (R194, R196) -/

/-- The cells beside wire `j` of a pack of `n` cells. -/
def wireCells (n j : Nat) : List Nat := (if 0 < j then [j - 1] else []) ++ (if j < n then [j] else [])

theorem mem_wireCells {n j k : Nat} (hj : j ≤ n) : k ∈ wireCells n j ↔ (k + 1 = j ∨ k = j) ∧ k < n := by
  unfold wireCells
  split <;> split <;> simp <;> omega

theorem wireTest_eq (n j : Nat) (base diag : List Nat) : wireTest n j base diag =
    if (wireCells n j).any fun k => decide (5000 < moved base diag k) then .wire j
    else match (wireCells n j).filter fun k => decide (50 ≤ moved base diag k) with
      | [] => .pass
      | ks => .channels ks := rfl

section
variable {n j : Nat} {base diag : List Nat} (hj : j ≤ n)
include hj

/-- A wire whose cells all move less than 5 mV passes. -/
theorem wireTest_pass (h : ∀ k, k + 1 = j ∨ k = j → k < n → moved base diag k < 50) : wireTest n j base diag = .pass := by
  have hmoved : ∀ k ∈ wireCells n j, moved base diag k < 50 := fun k hk =>
    let ⟨hbeside, hlt⟩ := (mem_wireCells hj).1 hk
    h k hbeside hlt
  have hany : ((wireCells n j).any fun k => decide (5000 < moved base diag k)) = false := by
    rw [List.any_eq_false]
    intro k hk
    have := hmoved k hk
    simp only [decide_eq_true_eq]
    omega
  have hnone : ((wireCells n j).filter fun k => decide (50 ≤ moved base diag k)) = [] := by
    rw [List.filter_eq_nil_iff]
    intro k hk
    have := hmoved k hk
    simp only [decide_eq_true_eq]
    omega
  rw [wireTest_eq, hany, hnone]
  rfl

/-- A wire of which one cell moves more than 500 mV is open. -/
theorem wireTest_open {k : Nat} (hbeside : k + 1 = j ∨ k = j) (hk : k < n) (h : 5000 < moved base diag k) :
    wireTest n j base diag = .wire j := by
  rw [wireTest_eq, if_pos]
  exact List.any_eq_true.2 ⟨k, (mem_wireCells hj).2 ⟨hbeside, hk⟩, decide_eq_true h⟩

end

/-- An injection outside 3.000 V ± 5 mV faults its channel. -/
theorem injectTest_off {k : Nat} {diag : List Nat} (h : diag.getD k 0 < 29950 ∨ 30050 < diag.getD k 0) :
    injectTest k diag = .channels [k] := by
  have hwithin : within 29950 (diag.getD k 0) 30050 = false := by
    rcases h with h | h <;> simp only [within, Bool.and_eq_false_iff, decide_eq_false_iff_not] <;> omega
  rw [injectTest, hwithin]
  rfl

/-! ### DIAGNOSTIC_WINDOW_END -/

/-- The result of a diagnostic noted and declared. -/
def Core.tested (c : Core) (t : TestRes) : Core := declareTest (c.withCel { c.cel with diagPass := t == .pass }) t

/-- The diagnostic of the cycle is over. -/
def Core.diagDone (c : Core) : Core := c.withCel { c.cel with diag := 0, testNow := none }

/-- The diagnostic that Table 07-3 schedules on the cycle judged by its DIAG code: a wire, the stack or a channel. -/
def Core.diagJudged (c : Core) (cells : List Nat) (stack : Nat) : Core :=
  if c.cel.diag = 0 then c
  else if c.cel.diag ≤ 17 then c.tested (wireTest (nCells c) (c.cel.diag - 1) c.cel.raw cells)
  else if c.cel.diag = 64 then c.tested (if c.cel.stackIso then .pass else stackTest stack)
  else if injectTest (c.cel.diag - 33) cells == .pass then
    realCell (c.tested (injectTest (c.cel.diag - 33) cells)) (c.cel.diag - 33)
  else c.tested (injectTest (c.cel.diag - 33) cells)

theorem diagJudged_wire {c : Core} {j : Nat} (cells : List Nat) (stack : Nat) (hdiag : c.cel.diag = j + 1) (hj : j ≤ 16) :
    c.diagJudged cells stack = c.tested (wireTest c.maq.pack.n j c.cel.raw cells) := by
  have hfirst : j + 1 ≤ 17 := by omega
  simp [Core.diagJudged, hdiag, hfirst, nCells]

theorem diagJudged_channel {c : Core} {k : Nat} {cells : List Nat} (stack : Nat) (hk : k < 16) (hdiag : c.cel.diag = 33 + k)
    (hoff : injectTest k cells = .channels [k]) : c.diagJudged cells stack = c.tested (.channels [k]) := by
  have hlate : ¬ 33 + k ≤ 17 ∧ ¬ 33 + k = 64 := by omega
  simp [Core.diagJudged, hdiag, hlate, hoff]

theorem exec_diagnosticWindowEnd_scheduled {s : State} {d : Core} (cells : List Nat) (stack : Nat) (hrun : s.core.life.st = .run)
    (hnow : s.core.cel.testNow = none) (hd : s.core.diagJudged cells stack = d) (hk : d.kept = s.core.kept) :
    exec (.diagnosticWindowEnd cells stack) s = .next { s with core := d.diagDone } := by
  show execDiagnosticWindowEnd cells stack s = _
  rw [execDiagnosticWindowEnd, onRun]
  refine onCoreIf_of_kept (d := d.diagDone) ((inRun_iff _).2 hrun) ?_ hk
  rw [← hd]
  refine congrArg Core.diagDone (?_ : _ = s.core.diagJudged cells stack)
  split
  case h_5 => rfl
  all_goals
    rename_i hnow'
    cases hnow.symm.trans hnow'

section
variable {s : State} {cells : List Nat} (stack : Nat) (hrun : s.core.life.st = .run) (hnow : s.core.cel.testNow = none)
include hrun hnow

section
variable {j : Nat} (hdiag : s.core.cel.diag = j + 1) (hj : j ≤ s.core.maq.pack.n) (hn16 : s.core.maq.pack.n ≤ 16)
include hdiag hj hn16

theorem exec_diagnosticWindowEnd_passes
    (h : ∀ k, k + 1 = j ∨ k = j → k < s.core.maq.pack.n → moved s.core.cel.raw cells k < 50) :
    exec (.diagnosticWindowEnd cells stack) s = .next { s with core := { s.core with
      cel := { s.core.cel with diag := 0, testNow := none, diagPass := true } } } := by
  have hjudged := diagJudged_wire cells stack hdiag (hj.trans hn16)
  rw [wireTest_pass hj h] at hjudged
  exact exec_diagnosticWindowEnd_scheduled cells stack hrun hnow hjudged rfl

theorem exec_diagnosticWindowEnd_opens (hn : noResetRaised s.core) {k : Nat} (hbeside : k + 1 = j ∨ k = j)
    (hk : k < s.core.maq.pack.n) (h : 5000 < moved s.core.cel.raw cells k) :
    ∃ t, exec (.diagnosticWindowEnd cells stack) s = .next t ∧ t.core.cel.wireOpen.getLsbD j = true ∧ t.core.cel.diag = 0 ∧
      t.core.cel.diagPass = false ∧ t.core.ldg.ch = s.core.ldg.ch := by
  obtain ⟨hdecl, hopen⟩ := declareWire_declares (c := s.core.withCel { s.core.cel with diagPass := false }) (j := j) hn (by omega)
  have hjudged := diagJudged_wire cells stack hdiag (hj.trans hn16)
  rw [wireTest_open hj hbeside hk h] at hjudged
  exact ⟨_, exec_diagnosticWindowEnd_scheduled cells stack hrun hnow hjudged hdecl.kept, hopen, rfl, hdecl.diagPass,
    congrArg LdgG.ch hdecl.ldg⟩

end

theorem exec_diagnosticWindowEnd_faults (hn : noResetRaised s.core) {k : Nat} (hk : k < 16) (hdiag : s.core.cel.diag = 33 + k)
    (h : cells.getD k 0 < 29950 ∨ 30050 < cells.getD k 0) :
    ∃ t, exec (.diagnosticWindowEnd cells stack) s = .next t ∧ t.core.cel.chanFlt.getLsbD k = true ∧ t.core.cel.diag = 0 ∧
      t.core.cel.diagPass = false := by
  obtain ⟨hdecl, hlost⟩ := declareChannel_declares (c := s.core.withCel { s.core.cel with diagPass := false }) hn hk
  have hjudged := diagJudged_channel stack hk hdiag (injectTest_off h)
  exact ⟨_, exec_diagnosticWindowEnd_scheduled cells stack hrun hnow hjudged hdecl.kept, hlost, rfl, hdecl.diagPass⟩

end

/-- A correction by the OCV curve begins where its conditions hold (R203). -/
theorem exec_ocvCorrection {s : State} (hrun : s.core.life.st = .run) (h : ocvAllowed s.core = true) :
    exec .ocvCorrection s = .next { s with core := { s.core with cel := { s.core.cel with ocvMoving := true } } } := by
  show execOcvCorrection s = _
  exact onCoreIf_of_kept (by simp [inRun, hrun, h]) rfl rfl

end Sys2Proof.Machine

open Sys2Proof Sys2Proof.Machine

/-- Settles O47: a conversion window records what `Scanned` says and finds its faults; a scheduled test is judged by `wireTest`
or `injectTest`, and what it declares stands. -/
theorem cellMonitorJudgesItsWindows : Obligations.CellMonitorJudgesItsWindows := by
  unfold Obligations.CellMonitorJudgesItsWindows
  intro cells stack s hrun hn
  refine ⟨fun d => ?_, fun base j hbase hnow hdiag hj hn16 => ?_, fun k hnow hdiag hoff => ?_, exec_ocvCorrection hrun⟩
  · obtain ⟨t, hexec, hscan, hswitch, hover, hopens⟩ := exec_conversionWindowEnd_run cells stack d hrun hn
    obtain ⟨hraw, hstack⟩ := hscan.raw
    exact ⟨t, hexec, (congrArg Kept.st hscan.kept).trans hrun, hraw, hstack, hscan.hist, hscan.cells, hscan.owed, hswitch, hover,
      hopens, hscan.ch⟩
  · subst hbase
    exact ⟨exec_diagnosticWindowEnd_passes stack hrun hnow hdiag hj hn16,
      fun k => exec_diagnosticWindowEnd_opens stack hrun hnow hdiag hj hn16 hn⟩
  · exact exec_diagnosticWindowEnd_faults stack hrun hnow hn k.isLt hdiag hoff
end

section
/-! PROOFS. What the frames of the twin carry, and its control commands (chapter 17). -/

namespace Sys2Proof.Machine

/-! ### Frames in order (R453) -/

/-- The controller once a frame of the type has been received. -/
def Core.took (c : Core) (h : LinkHdr) (type : Nat) : Core := { c with twn := c.twn.took h type }

/-- A frame in order acts. -/
theorem receive_of_inOrder {c : Core} {h : LinkHdr} {type : Nat} (hin : InOrder c h type) (act : Core → Core) :
    receive c h type act = act (c.took h type) := by
  have hgap : (c.twn.rxSeq.any (fun x => x.1 == type) && h.seq != kget 0 type c.twn.rxSeq + 1) = false := by
    rcases hin.seq with hnew | hnext
    · simpa using fun b hmem => absurd rfl (hnew (type, b) hmem)
    · simp [hnext]
  simp only [receive, hin.crc, hgap, Bool.not_true, Bool.false_eq_true, if_false]
  rfl

section
variable {s : State} {h : LinkHdr} {type : Nat}

theorem onTwin_receive {act : Core → Core} {d : Core} (hin : InOrder s.core h type) (hf : act (s.core.took h type) = d)
    (hd : d.kept = s.core.kept) : onTwin s (fun c => receive c h type act) = .next { s with core := d } :=
  onTwin_of_kept hin.run hin.expected ((receive_of_inOrder hin act).trans hf) hd

/-! ### CELLS (R192, R210) -/

theorem twinCells_eq (c : Core) (other : List Nat) : twinCells c other = { c with cel := { c.cel with
    twin := other, twDis := (twinCells c other).cel.twDis, tests := (twinCells c other).cel.tests
    hist := (twinCells c other).cel.hist, cells := (twinCells c other).cel.cells, stack := (twinCells c other).cel.stack } } := by
  unfold twinCells
  dsimp only
  split <;> rfl

/-- Cells that begin to disagree add their tests behind those that wait (R210). -/
theorem twinCells_tests (c : Core) (other : List Nat) : c.cel.tests <+: (twinCells c other).cel.tests := by
  unfold twinCells
  dsimp only
  split <;> exact List.prefix_append _ _

/-- With no cell adopted, the twin's cells change no published value. -/
theorem twinCells_published {c : Core} (other : List Nat) (h : c.cel.adopted = 0) :
    (twinCells c other).cel.cells = c.cel.cells ∧ (twinCells c other).cel.hist = c.cel.hist := by
  simp [twinCells, h]

theorem exec_cells_attached (m : CellsMsg) (hin : InOrder s.core h 3) (ha : s.core.twn.attached = true) :
    exec (.cells h m) s = .next { s with core := twinCells (s.core.took h 3) m.cells } := by
  show execCells h m s = _
  exact onTwin_receive hin (if_pos ha) (twinCells_kept _ _)

theorem exec_cells_alone (m : CellsMsg) (hin : InOrder s.core h 3) (ha : s.core.twn.attached = false) :
    exec (.cells h m) s = .next (s.withTwin (s.core.twn.took h 3)) := by
  show execCells h m s = _
  exact onTwin_receive hin (if_neg (ne_true_of_eq_false ha)) rfl

/-! ### LEDGER (R459) -/

/-- The sums of the pair begin anew with this frame: nothing is summed, the base is missing or not yet final. -/
def sumFresh (c : Core) (m : LedgerMsg) : Bool :=
  c.twn.twSumReset || c.ldg.twBase.isNone || decide (m.closeNo ≤ baseCloses)

/-- The sum of the twin's ISP charges with this frame's, µC. -/
def twinSum (c : Core) (m : LedgerMsg) : Int := if sumFresh c m then 0 else c.ldg.twSum + vget m.net 4 0

/-- The twin's net at the beginning of its sum, mC. -/
def twinBase (c : Core) (m : LedgerMsg) : Int := if sumFresh c m then m.ispNet else c.ldg.twBase.getD m.ispNet

/-- How far the summed charges depart from the reported net, mC. -/
def ledgerDiff (c : Core) (m : LedgerMsg) : Int := twinSum c m / 1000 - (m.ispNet - twinBase c m)

/-- The controller once a ledger of its twin has been taken. -/
def ledgerTaken (c : Core) (m : LedgerMsg) : Core := twinNet { c with
  ldg := { c.ldg with twV := some m.vsys, twSum := twinSum c m, twBase := some (twinBase c m) }
  twn := { c.twn with
    twSumReset := false, xLdg := ledgerDiff c m, xLdgOk := decide ((ledgerDiff c m).natAbs ≤ c.maq.twin.dqx)
    isp := vget m.net 4 0 / 10, ism := vget m.net 0 0 / 10 } } m

/-- The residual that the twin reports is not the one of its charges and voltages (R263). -/
def residBad (c : Core) (m : LedgerMsg) : Bool :=
  match c.ldg.twV with
  | some v0 => decide (1 < (twinResidual c v0 m - m.resid).natAbs)
  | none => false

/-- The sums begin to depart by more than the bound. -/
def ledgerBreach (c : Core) (m : LedgerMsg) : Bool :=
  !decide ((ledgerDiff c m).natAbs ≤ c.maq.twin.dqx) && c.twn.xLdgOk

/-- A fault where its condition holds. -/
def faultIf (b : Bool) (c : Core) (code : BitVec 16) : Core := if b then fault c code 0 else c

theorem reacted_faultIf (b : Bool) {c : Core} {code : BitVec 16} (hn : noResetRaised c) (hrow : (rowClass code).getD .b ≠ .d) :
    Reacted c (faultIf b c code) := by
  unfold faultIf
  split
  · exact reacted_fault 0 hn hrow
  · exact .refl c

theorem exec_ledger (m : LedgerMsg) : exec (.ledger h m) s = onTwin s fun c => receive c h 4 fun c =>
    faultIf (ledgerBreach c m) (faultIf (residBad c m) (ledgerTaken c m) 0x1805) 0x1403 := rfl

section
variable {c : Core} (m : LedgerMsg)

/-- The ledger with what the frame says taken. -/
def LdgG.heard (g : LdgG) (c : Core) (m : LedgerMsg) : LdgG :=
  { g with
    twV := some m.vsys, twSum := twinSum c m, twBase := some (twinBase c m)
    twIsp := if m.closeNo ≤ baseCloses then g.twIsp else some m.ispNet }

/-- The twin link with the comparison of the sum taken. -/
def TwnG.compared (g : TwnG) (c : Core) (m : LedgerMsg) : TwnG :=
  { g with
    twSumReset := false, xLdg := ledgerDiff c m, xLdgOk := decide ((ledgerDiff c m).natAbs ≤ c.maq.twin.dqx)
    isp := vget m.net 4 0 / 10, ism := vget m.net 0 0 / 10 }

theorem ledgerTaken_ldg : (ledgerTaken c m).ldg = c.ldg.heard c m := by
  unfold ledgerTaken twinNet LdgG.heard
  split <;> rfl

theorem ledgerTaken_twn : (ledgerTaken c m).twn = c.twn.compared c m := by
  unfold ledgerTaken twinNet
  split <;> rfl

theorem ledgerTaken_kept : (ledgerTaken c m).kept = c.kept := twinNet_kept _ m

/-- Where the sums begin anew there is no difference. -/
theorem ledger_fresh (hr : c.twn.twSumReset = true) :
    twinSum c m = 0 ∧ twinBase c m = m.ispNet ∧ ledgerDiff c m = 0 := by
  have hf : sumFresh c m = true := by simp [sumFresh, hr]
  simp [ledgerDiff, twinSum, twinBase, hf]

/-- Once the base stands, each frame adds its charge. -/
theorem ledger_summed {b : Int} (hr : c.twn.twSumReset = false) (hc : baseCloses < m.closeNo) (hb : c.ldg.twBase = some b) :
    twinSum c m = c.ldg.twSum + m.net[(4 : Fin 8)] ∧
      ledgerDiff c m = (c.ldg.twSum + m.net[(4 : Fin 8)]) / 1000 - (m.ispNet - b) := by
  have hf : sumFresh c m = false := by simp [sumFresh, hr, hb, hc]
  have hsum : twinSum c m = c.ldg.twSum + m.net[(4 : Fin 8)] := by
    simp only [twinSum, hf, Bool.false_eq_true, if_false]
    rw [vget_eq_getElem m.net 4 0 (by decide)]
    rfl
  have hbase : twinBase c m = b := by simp [twinBase, hf, hb]
  exact ⟨hsum, by rw [ledgerDiff, hsum, hbase]⟩

end

/-- A ledger in order is taken, and beyond its bound the sum is a fault. -/
theorem exec_ledger_taken (m : LedgerMsg) (hin : InOrder s.core h 4) (hn : noResetRaised s.core) :
    ∃ t, exec (.ledger h m) s = .next t ∧ t.core.ldg = s.core.ldg.heard s.core m ∧
      t.core.twn = (s.core.twn.took h 4).compared s.core m ∧ (ledgerBreach s.core m = true → latched t.core 0x1403 0) := by
  have hkept : (ledgerTaken (s.core.took h 4) m).kept = s.core.kept := ledgerTaken_kept m
  have hresid := reacted_faultIf (residBad (s.core.took h 4) m) (code := 0x1805) (noResetRaised_of_kept hkept hn) (by decide)
  have hnr := hresid.noResetRaised (noResetRaised_of_kept hkept hn)
  have hall := hresid.trans (reacted_faultIf (ledgerBreach (s.core.took h 4) m) (code := 0x1403) hnr (by decide))
  refine ⟨_, (exec_ledger m).trans (onTwin_receive hin rfl (hall.kept.trans hkept)), hall.ldg.trans (ledgerTaken_ldg m),
    hall.twn.trans (ledgerTaken_twn m), fun hbreach => ?_⟩
  have hfault : faultIf (ledgerBreach (s.core.took h 4) m) (faultIf (residBad (s.core.took h 4) m)
      (ledgerTaken (s.core.took h 4) m) 0x1805) 0x1403 = fault _ 0x1403 0 := if_pos hbreach
  rw [hfault]
  exact latched_fault _ _ _ (classInForce_ne_d _ hnr (by decide))

/-! ### POOLDATA (R367), POLICY and ORDERS (R458) -/

theorem exec_pooldata_lead (m : PoolMsg) (hin : InOrder s.core h 5) (hr : s.core.twn.role = .lead) :
    exec (.pooldata h m) s = .next { s with core := { s.core.took h 5 with
      vlt := { s.core.vlt with kTwin := m.k, lLocTwin := m.lloc, pRetTwin := m.pfwd + m.pch + m.pex } } } := by
  show execPooldata h m s = _
  exact onTwin_receive hin (if_pos (beq_iff_eq.2 hr)) rfl

theorem exec_policy_follow (m : PolicyMsg) (hin : InOrder s.core h 7) (hr : s.core.twn.role = .follow) :
    exec (.policy h m) s = .next (s.withTwin { s.core.twn.took h 7 with polPend := some m }) := by
  show execPolicy h m s = _
  exact onTwin_receive hin (if_pos (beq_iff_eq.2 hr)) rfl

theorem exec_orders_follow (m : OrdersMsg) (hin : InOrder s.core h 8) (hr : s.core.twn.role = .follow) :
    exec (.orders h m) s = .next (s.withTwin { s.core.twn.took h 8 with ordPend := some m }) := by
  show execOrders h m s = _
  exact onTwin_receive hin (if_pos (beq_iff_eq.2 hr)) rfl

/-! ### MIRROR (R460, Table 17-5) -/

section
variable (c : Core) (a : Nat)

theorem acct_book_self (k : Column) (f : ColRec → ColRec) :
    (book c a k f).vlt.acct a = (c.vlt.acct a).setCol k (f ((c.vlt.acct a).col k)) := by
  simp [VltG.book, VltG.acct]

theorem acct_updAcct_self (f : AcctRec → AcctRec) : (updAcct c a f).vlt.acct a = f (c.vlt.acct a) := by
  simp [VltG.acct]

theorem acct_updAcct_ne (f : AcctRec → AcctRec) {b : Nat} (h : b ≠ a) : (updAcct c a f).vlt.acct b = c.vlt.acct b := by
  simp [VltG.acct, kget_kupd_ne _ _ _ _ _ h]

theorem acct_setBurst_self (b : Option Burst) : (setBurst c a b).vlt.acct a = { c.vlt.acct a with burst := b } := by
  simp [setBurst, VltG.acct]

theorem acct_setBurst_ne (x : Option Burst) {b : Nat} (h : b ≠ a) : (setBurst c a x).vlt.acct b = c.vlt.acct b := by
  simp [setBurst, VltG.acct, kget_kupd_ne _ _ _ _ _ h]

theorem acct_book_ne (k : Column) (f : ColRec → ColRec) {b : Nat} (h : b ≠ a) : (book c a k f).vlt.acct b = c.vlt.acct b :=
  VltG.acct_book_ne _ _ _ _ _ h

theorem partnerOf_updPartner {p : Nat} (addr : Nat) (f : Partner → Partner) (hp : p < 4) :
    partnerOf (updPartner c p addr f) p addr = f (partnerOf c p addr) := by
  simp [partnerOf, updPartner, Core.plbPort, vget_vupd_self _ _ _ _ hp]

theorem acctPort_lt {a : Nat} (h : a < 4064) : acctPort a < 4 := by
  unfold acctPort
  omega

end

/-- What a mirror record makes of the account that it names (Table 17-5). -/
structure Mirrored (c d : Core) (a : Nat) (r : MirrorRec) : Prop where
  levels : (d.vlt.acct a).sup.level = r.supLevel ∧ (d.vlt.acct a).ret.level = r.retLevel
  burst : (d.vlt.acct a).burst.isSome = r.flags.getLsbD 3
  partner : a < 4064 → (partnerOf d (acctPort a) (acctAddr a)).enrolled = r.flags.getLsbD 0 ∧
    (partnerOf d (acctPort a) (acctAddr a)).absent = r.flags.getLsbD 1
  others : ∀ b, b ≠ a → d.vlt.acct b = c.vlt.acct b
  pools : d.vlt.sup.pool = c.vlt.sup.pool ∧ d.vlt.ret.pool = c.vlt.ret.pool

theorem mirrored_applyMirror (c : Core) (a : Nat) (r : MirrorRec) : Mirrored c (applyMirror c a r) a r where
  levels := by
    simp only [applyMirror, updPartner_vlt, acct_updAcct_self, acct_setBurst_self, acct_book_self]
    exact ⟨rfl, rfl⟩
  burst := by
    simp only [applyMirror, updPartner_vlt, acct_updAcct_self, acct_setBurst_self]
    generalize r.flags.getLsbD 3 = bursting
    cases bursting <;> rfl
  partner ha := by
    have hpartner : partnerOf (applyMirror c a r) (acctPort a) (acctAddr a) = _ :=
      partnerOf_updPartner _ _ _ (acctPort_lt ha)
    rw [hpartner]
    exact ⟨rfl, rfl⟩
  others b hb := by
    simp only [applyMirror, updPartner_vlt, acct_updAcct_ne _ _ _ hb, acct_setBurst_ne _ _ _ hb, acct_book_ne _ _ _ _ hb]
  pools := ⟨rfl, rfl⟩

theorem exec_mirror_one (a : Nat) (r : MirrorRec) (hin : InOrder s.core h 6) (hr : s.core.twn.role = .follow) (ha : a < 4064) :
    exec (.mirror h { first := a, recs := [r] }) s = .next { s with core := applyMirror (s.core.took h 6) a r } := by
  show execMirror h { first := a, recs := [r] } s = _
  have hrole : ((s.core.took h 6).twn.role == .follow) = true := beq_iff_eq.2 hr
  exact onTwin_receive hin (by simp [hrole, applyMirrors, ha]) (applyMirror_kept _ _ _)

/-! ### CONTROL (R468, R469, R474) -/

section
variable (k : Nat) (hin : InOrder s.core h 9)
include hin

theorem exec_control_handover : exec (.control h { command := 1, tick := k }) s =
    .next (s.withTwin { s.core.twn.took h 9 with ctl := some (1, k) }) := by
  show execControl h { command := 1, tick := k } s = _
  exact onTwin_receive hin rfl rfl

theorem exec_control_detach (hr : s.core.twn.role ≠ .follow) : exec (.control h { command := 2, tick := k }) s =
    .next (s.withTwin { s.core.twn.took h 9 with leaving := some false, ctl := some (2, k) }) := by
  show execControl h { command := 2, tick := k } s = _
  exact onTwin_receive hin (if_neg (mt beq_iff_eq.1 hr)) rfl

/-- Without its twin a controller recalls at once what it can no longer serve, and no record is touched (R353, R469). -/
theorem exec_control_detached : ∃ t, exec (.control h { command := 3, tick := k }) s = .next t ∧ t.core.twn.attached = false ∧
    t.core.vlt.sup.recallNow = true ∧ t.core.vlt.ret.recallNow = true ∧ t.core.vlt.recs = s.core.vlt.recs := by
  have hcmd : exec (.control h { command := 3, tick := k }) s = execControl h { command := 3, tick := k } s := rfl
  exact ⟨_, hcmd.trans (onTwin_receive hin rfl rfl), rfl, rfl, rfl, rfl⟩

theorem exec_control_close : exec (.control h { command := 4, tick := k }) s = .next { s with core := { s.core.took h 9 with
    own := { s.core.own with step := 1, closes := 0, closeTick := some k } } } := by
  show execControl h { command := 4, tick := k } s = _
  exact onTwin_receive hin rfl rfl

end

/-! ### CONTROL_EFFECTIVE and SHARE_ERROR (R468, R469, Table 17-7) -/

/-- A command whose time has come has been taken. -/
def Core.ctlTaken (c : Core) : Core := { c with twn := { c.twn with ctl := none } }

/-- What a control command does at its time. -/
def ctlEffect (cmd : Nat) (c : Core) : Core :=
  match cmd with
  | 1 =>
    if c.twn.role == .follow then promote c
    else if c.twn.role == .lead then
      let c := { c with
        twn := { c.twn with role := .follow, onRef := c.maq.twin.refclk, drvRef := false }
        vlt := { c.vlt with bMax := 0 } }
      if c.twn.leaving == some true then detachSend c true else c
    else c
  | 2 => detachRamp c
  | _ => c

theorem promote_ctl (c : Core) : (promote c).twn.ctl = c.twn.ctl := by
  obtain ⟨htwn, -⟩ := takeVault_leaves c
  show (takeVault c).twn.ctl = _
  rw [htwn]

section
variable (hrun : s.core.life.st = .run) (htwin : s.core.maq.twin.expected = true)
include hrun htwin

theorem exec_controlEffective_none (hc : s.core.twn.ctl = none) : exec .controlEffective s = .next s := by
  show execControlEffective s = _
  exact onTwin_of_kept hrun htwin (by simp [hc]) rfl

theorem exec_controlEffective_some {cmd k : Nat} {d : Core} (hc : s.core.twn.ctl = some (cmd, k))
    (hd : ctlEffect cmd s.core.ctlTaken = d) (hk : d.kept = s.core.kept) :
    exec .controlEffective s = .next { s with core := d } := by
  show execControlEffective s = _
  exact onTwin_of_kept hrun htwin (by rw [hc]; exact hd) hk

/-- The Lead gives up its role, and TW_REFCLK with it. -/
theorem exec_controlEffective_lead {k : Nat} (hc : s.core.twn.ctl = some (1, k)) (hr : s.core.twn.role = .lead)
    (hl : s.core.twn.leaving ≠ some true) : exec .controlEffective s = .next { s with core := { s.core with
      twn := { s.core.twn with ctl := none, role := .follow, onRef := s.core.maq.twin.refclk, drvRef := false }
      vlt := { s.core.vlt with bMax := 0 } } } := by
  have hfollow : ¬ (s.core.twn.role == .follow) = true := by simp [hr]
  have hlead : (s.core.twn.role == .lead) = true := by simp [hr]
  have hstays : ¬ (s.core.twn.leaving == some true) = true := by simp [hl]
  exact exec_controlEffective_some hrun htwin hc ((if_neg hfollow).trans ((if_pos hlead).trans (if_neg hstays))) rfl

/-- The Follow promotes. -/
theorem exec_controlEffective_follow {k : Nat} (hc : s.core.twn.ctl = some (1, k)) (hr : s.core.twn.role = .follow) :
    exec .controlEffective s = .next { s with core := promote s.core.ctlTaken } :=
  exec_controlEffective_some hrun htwin hc (if_pos (beq_iff_eq.2 hr)) (promote_kept _)

theorem exec_controlEffective_detach {k : Nat} (hc : s.core.twn.ctl = some (2, k)) : exec .controlEffective s =
    .next (s.withTwin { s.core.twn with ctl := none, ramp := true, rampDown := true, rampAt := s.core.life.tick }) :=
  exec_controlEffective_some hrun htwin hc rfl rfl

omit htwin in
theorem exec_shareError (ha : s.core.twn.attached = true) (hn : noResetRaised s.core) :
    ∃ t, exec .shareError s = .next t ∧ t.core.twn.shareFroz = true ∧ latched t.core 0x1408 0 := by
  obtain ⟨hkept, hlatch, hleft⟩ := fault_stands (c := { s.core with twn := { s.core.twn with shareFroz := true } })
    (code := 0x1408) 0 hn (by decide)
  have hcmd : exec .shareError s = execShareError s := rfl
  exact ⟨_, hcmd.trans (onCoreIf_of_kept (by simp [inRun, hrun, Core.attached, ha]) rfl hkept),
    congrArg TwnG.shareFroz hleft.twn, hlatch⟩

end

end

end Sys2Proof.Machine

open Sys2Proof Sys2Proof.Machine

/-- Settles O59: each frame in order acts by the lemma of its command, and so do the control commands at their time. -/
theorem pairDataAndControlsAreTaken : Obligations.PairDataAndControlsAreTaken := by
  unfold Obligations.PairDataAndControlsAreTaken
  intro h s hrun htwin
  refine ⟨fun m hin => ⟨fun ha => ?_, exec_cells_alone m hin⟩, fun m hin hn => ?_, exec_pooldata_lead,
    fun a r hin hr ha => ?_, exec_policy_follow, exec_orders_follow, fun k hin => ⟨exec_control_handover k hin,
      exec_control_detach k hin, exec_control_detached k hin, exec_control_close k hin⟩,
    ⟨exec_controlEffective_none hrun htwin, fun k => exec_controlEffective_lead hrun htwin, fun k hc hr => ?_,
      fun k => exec_controlEffective_detach hrun htwin⟩, exec_shareError hrun⟩
  · refine ⟨_, exec_cells_attached m hin ha, congrArg (fun c => { s with core := c }) (twinCells_eq _ _), twinCells_tests (s.core.took h 3) _,
      fun h0 => twinCells_published _ h0⟩
  · obtain ⟨t, hexec, hldg, htwn, hlatch⟩ := exec_ledger_taken m hin hn
    have hdiff : t.core.twn.xLdg = ledgerDiff s.core m := congrArg TwnG.xLdg htwn
    have hsum : t.core.ldg.twSum = twinSum s.core m := congrArg LdgG.twSum hldg
    refine ⟨t, hexec, congrArg LdgG.twV hldg, by rw [hldg]; rfl, fun hreset => ?_, fun hclose => ?_,
      fun hreset hclose b hb => ?_⟩
    · obtain ⟨hs, hb, hd⟩ := ledger_fresh m hreset
      have hok : decide ((ledgerDiff s.core m).natAbs ≤ s.core.maq.twin.dqx) = true := by simp [hd]
      exact ⟨hsum.trans hs, (congrArg LdgG.twBase hldg).trans (congrArg some hb), hdiff.trans hd,
        (congrArg TwnG.xLdgOk htwn).trans hok⟩
    · exact (congrArg LdgG.twIsp hldg).trans (if_neg (Nat.not_le.mpr hclose))
    · obtain ⟨hs, hd⟩ := ledger_summed m hreset hclose hb
      refine ⟨hsum.trans hs, hdiff.trans hd, fun hok hover => hlatch ?_⟩
      rw [hdiff] at hover
      simpa [ledgerBreach, hok] using hover
  · obtain ⟨⟨hsup, hret⟩, hburst, hpartner, hothers, hspool, hrpool⟩ := mirrored_applyMirror (s.core.took h 6) a r
    obtain ⟨henrolled, habsent⟩ := hpartner ha
    exact ⟨_, exec_mirror_one a r hin hr ha, hsup, hret, hburst, henrolled, habsent, hothers, hspool, hrpool⟩
  · have hpro := promoted_promote s.core.ctlTaken
    exact ⟨_, exec_controlEffective_follow hrun htwin hc hr, hpro.role, promote_ctl _, hpro.balanced⟩
end

section
/-! PROOFS. What a fault below class D leaves of the phases, of the loop engine and of the rotation (chapters 08, 09 and 11). -/

namespace Sys2Proof.Machine

/-! ### Phases -/

/-- What the reactions of a fault leave of a phase: all but where it stands, and that too where it is off or in Chisel Off. -/
structure PhaseG.Rests (p q : PhaseG) : Prop where
  same : q = { p with st := q.st }
  down : p.live = false → q.st = p.st

theorem PhaseG.Rests.refl (p : PhaseG) : p.Rests p := ⟨rfl, fun _ => rfl⟩

theorem PhaseG.live_of_st {p q : PhaseG} (h : q.st = p.st) : q.live = p.live := by simp only [live, h]

theorem PhaseG.Rests.trans {p q r : PhaseG} (h : p.Rests q) (h' : q.Rests r) : p.Rests r where
  same := by
    rw [h'.same, h.same]
  down hp := by
    have hst := h.down hp
    exact (h'.down ((PhaseG.live_of_st hst).trans hp)).trans hst

/-- A phase that is off or in Chisel Off stays out of operation. -/
theorem PhaseG.Rests.live {p q : PhaseG} (h : p.Rests q) (hp : p.live = false) : q.live = false :=
  (PhaseG.live_of_st (h.down hp)).trans hp

theorem PhaseG.rests_chisel (p : PhaseG) : p.Rests p.chisel where
  same := by
    unfold chisel
    split <;> rfl
  down hp := by
    unfold live at hp
    unfold chisel
    split <;> simp_all

theorem PhaseG.rests_park (p : PhaseG) : p.Rests p.park where
  same := by
    unfold park
    split <;> rfl
  down hp := by
    unfold park
    split
    · rename_i h
      simp [live, h] at hp
    · rfl

theorem PhaseG.chisel_live (p : PhaseG) : p.chisel.live = false := by
  rcases p.chisel_st with h | h | h <;> simp [live, h]

/-- Each phase of the stage rests. -/
def GdrG.Rests (g g' : GdrG) : Prop := ∀ (i : Nat) (hi : i < 4), (g.ph[i]).Rests g'.ph[i]

theorem GdrG.rests_of_ph {g g' : GdrG} (h : g'.ph = g.ph) : g.Rests g' := fun i hi => by
  simp only [h]
  exact .refl _

theorem GdrG.Rests.trans {g g' g'' : GdrG} (h : g.Rests g') (h' : g'.Rests g'') : g.Rests g'' := fun i hi =>
  (h i hi).trans (h' i hi)

theorem GdrG.Rests.vget {g g' : GdrG} (h : g.Rests g') {i : Nat} (hi : i < 4) :
    (Machine.vget g.ph i {}).Rests (Machine.vget g'.ph i {}) := by
  rw [vget_eq_getElem _ _ _ hi, vget_eq_getElem _ _ _ hi]
  exact h i hi

/-! ### The reactions of a fault -/

section
variable (c : Core)

theorem rests_stagePark : c.gdr.Rests (stagePark c).gdr := by
  unfold stagePark
  split
  · exact GdrG.rests_of_ph rfl
  · split
    · intro i hi
      simpa using PhaseG.rests_park _
    · exact GdrG.rests_of_ph rfl

theorem rests_exportEnd (hr : Bool) : c.gdr.Rests (exportEnd c hr).gdr := by
  have hpark : ∀ i, c.gdr.Rests (stagePark (pairOff c i)).gdr := fun i => by
    have h := rests_stagePark (pairOff c i)
    have hgdr : (pairOff c i).gdr = c.gdr := by rw [pairOff_eq]
    rwa [hgdr] at h
  unfold exportEnd
  split
  · exact GdrG.rests_of_ph rfl
  · dsimp only
    split
    · split
      · rw [pdExportEnd_eq]
        exact hpark _
      · exact hpark _
    · exact hpark _

theorem rests_classAction {cls : FCls} (cause ph : Nat) (code : BitVec 16) (h : cls ≠ .d) :
    c.gdr.Rests (classAction c cls cause ph code).gdr := by
  cases cls with
  | d => exact absurd rfl h
  | b => exact GdrG.rests_of_ph rfl
  | c => exact GdrG.rests_of_ph rfl
  | a =>
    have hchisel : c.gdr.Rests (chiselAll c cause ph).gdr := fun i hi => by
      simpa [chiselAll, chiselSel] using PhaseG.rests_chisel _
    have hnote : (chiselAll c cause ph).gdr.Rests (noteChisel c.gdr (chiselAll c cause ph) code).gdr := by
      rw [noteChisel_eq]
      exact GdrG.rests_of_ph rfl
    exact (hchisel.trans hnote).trans (rests_exportEnd _ true)

/-- A fault below class D leaves each phase at rest (R284, Table 11-4). -/
theorem rests_faultWith (code : BitVec 16) (inst : BitVec 8) (row : FCls) (p : ProbeSt) (probe : Bool) (cause ph : Nat)
    (h : classInForce c code row ≠ .d) : c.gdr.Rests (faultWith c code inst row p probe cause ph).gdr := by
  obtain ⟨o, n, f, hreact⟩ := faultWith_reacts c code inst row p probe cause ph
  have hraised : ∀ (d : Core) (k : FCls), d.gdr.Rests (raisedC d code row k).gdr := fun d k => by
    unfold raisedC
    split <;> exact GdrG.rests_of_ph rfl
  have hexport : ∀ d : Core, d.gdr.Rests (exportFault d code).gdr := fun d => by
    unfold exportFault
    split
    · exact rests_exportEnd d true
    · exact GdrG.rests_of_ph rfl
  have hinst : ∀ b d : Core, d.gdr.Rests (noteInst b d inst).gdr := fun b d => by
    unfold noteInst
    split <;> exact GdrG.rests_of_ph rfl
  rw [hreact]
  exact (rests_classAction { c with own := o, free := n, flt := f } cause ph code h).trans
    ((hraised _ _).trans ((hexport _).trans (hinst _ _)))

end

theorem Reacted.loop {c d : Core} (h : Reacted c d) : d.loop = c.loop := by rw [h.frame]

/-- A row of class A that the image does not raise to class D is of class A in force (R81, R292). -/
theorem classInForce_a {c : Core} (code : BitVec 16) (hn : noResetRaised c) : classInForce c code .a = .a := by
  have hne := classInForce_ne_d (row := .a) code hn (by decide)
  unfold classInForce at hne ⊢
  split
  · rename_i k hk
    rw [hk] at hne
    revert hne
    cases k <;> decide
  · rfl

/-- A row of class D is of class D in force. -/
theorem classInForce_d (c : Core) (code : BitVec 16) : classInForce c code .d = .d := by
  unfold classInForce
  split
  · rename_i k _
    cases k <;> rfl
  · rfl

/-! ### The rotation -/

section
variable (c : Core) (code : BitVec 16) (inst : BitVec 8)

theorem latchPut_rotInst (cls : FCls) (p : ProbeSt) : (latchPut c code inst cls p).flt.rotInst = c.flt.rotInst := by
  unfold latchPut
  repeat' split
  all_goals rfl

theorem queueProbe_rotInst : (queueProbe c code inst).flt.rotInst = c.flt.rotInst := by
  unfold queueProbe
  repeat' split
  all_goals rfl

/-- A fault below class D leaves the instances of the rotation that were tested (R297). -/
theorem faultWith_rotInst (row : FCls) (p : ProbeSt) (probe : Bool) (cause ph : Nat) (h : classInForce c code row ≠ .d) :
    (faultWith c code inst row p probe cause ph).flt.rotInst = c.flt.rotInst := by
  obtain ⟨o, n, q, hrec⟩ := latchRecord_eq (latchPut c code inst (classInForce c code row) p) code inst
  unfold faultWith
  dsimp only
  rw [noteInst_flt, exportFault_flt, raisedC_flt, classAction_flt _ _ _ _ _ h, apply_ite Core.flt, apply_ite FltG.rotInst,
    queueProbe_rotInst, ite_self, hrec]
  exact latchPut_rotInst c code inst _ p

end

end Sys2Proof.Machine
end

section
/-! PROOFS. Runs of the loop engine that overrun or meet an illegal word, and Backstop after the fourth overrun in a row
(chapter 09). -/

namespace Sys2Proof.Machine

/-! ### The fourth overrun in a row (R252, R254) -/

section
variable (c : Core) (d : Nat)

/-- A phase that the overrunning loop takes into Backstop, and that is neither in it nor due for it. -/
def Core.backstops (c : Core) (d n : Nat) : Bool :=
  backstopPhases c d n && !(vget c.gdr.ph n {}).backstop && !(vget c.gdr.ph n {}).bsNext

/-- The controller with Backstop latched and its phases due for it. -/
def Core.backstopMarked (c : Core) (d : Nat) : Core :=
  { c with
    gdr := { c.gdr with ph := vmap (fun n p => if c.backstops d n then { p with bsNext := true } else p) c.gdr.ph }
    loop := { c.loop with latched := true } }

theorem backstopDue_eq : backstopDue c d = if !((List.range 4).any (c.backstops d)) then c else
    exportEnd (fault (c.backstopMarked d) 0x0B02 (BitVec.ofNat 8 (if d < 4 then d + 1 else 0))) true := rfl

/-- What the fault of Backstop leaves, where no image raises it to class D. -/
theorem reacted_backstopMarked (inst : BitVec 8) (hn : noResetRaised c) :
    Reacted (c.backstopMarked d) (exportEnd (fault (c.backstopMarked d) 0x0B02 inst) true) :=
  (reacted_fault (c := c.backstopMarked d) inst hn (by decide)).trans (reacted_exportEnd _ true)

theorem backstopDue_leaves (hn : noResetRaised c) : (backstopDue c d).kept = c.kept ∧
    ∃ b, (backstopDue c d).loop = { c.loop with latched := b } := by
  rw [backstopDue_eq]
  split
  · exact ⟨rfl, c.loop.latched, rfl⟩
  · have hreact := reacted_backstopMarked c d (BitVec.ofNat 8 (if d < 4 then d + 1 else 0)) hn
    exact ⟨hreact.kept, true, hreact.loop⟩

/-- The overrun of a phase's loop latches Backstop, which the phase enters at its next period start. -/
theorem backstopDue_phase (hd : d < 4) (hn : noResetRaised c) (hb : (vget c.gdr.ph d {}).backstop = false)
    (hnext : (vget c.gdr.ph d {}).bsNext = false) : (backstopDue c d).loop.latched = true ∧
      (vget (backstopDue c d).gdr.ph d {}).bsNext = true ∧
      latched (backstopDue c d) 0x0B02 (BitVec.ofNat 8 (d + 1)) := by
  have hsel : c.backstops d d = true := by simp [Core.backstops, backstopPhases, hd, hb, hnext]
  have hany : (List.range 4).any (c.backstops d) = true := List.any_eq_true.2 ⟨d, List.mem_range.2 hd, hsel⟩
  have hdue : backstopDue c d = exportEnd (fault (c.backstopMarked d) 0x0B02 (BitVec.ofNat 8 (d + 1))) true := by
    rw [backstopDue_eq, hany, if_pos hd]
    rfl
  have hcls : classInForce (c.backstopMarked d) 0x0B02 ((rowClass 0x0B02).getD .b) ≠ .d :=
    classInForce_ne_d (c := c.backstopMarked d) _ hn (by decide)
  have hrests := ((rests_faultWith (c.backstopMarked d) 0x0B02 (BitVec.ofNat 8 (d + 1)) _ .pending true 3 0 hcls).trans
    (rests_exportEnd _ true)).vget hd
  have hmark : (vget (c.backstopMarked d).gdr.ph d {}).bsNext = true := by
    simp [vget_eq_getElem _ _ _ hd, Core.backstopMarked, hsel]
  rw [hdue]
  exact ⟨congrArg LoopG.latched (reacted_backstopMarked c d _ hn).loop, (congrArg PhaseG.bsNext hrests.same).trans hmark,
    (reacted_exportEnd _ true).faults.latched (latched_fault _ _ _ hcls)⟩

end

/-! ### An overrun (R251) -/

section
variable (c : Core) (d : Fin 8)

/-- What the outer selection leaves of the loop engine: its runs, and of each descriptor its output and its overruns. -/
theorem outerSelect_leaves : (outerSelect c).loop.runs = c.loop.runs ∧ (outerSelect c).loop.adcMiss = c.loop.adcMiss ∧
    ∃ i sel, (outerSelect c).loop.d[d] = { c.loop.d[d] with i := i, sel := sel } := by
  refine ⟨rfl, rfl, ?_⟩
  simp only [outerSelect, refreshSetpoints, phaseSetpoints, Fin.getElem_fin, getElem_vmap]
  repeat' split
  all_goals exact ⟨_, _, rfl⟩

/-- The controller with the runs of a descriptor stopped and its overrun counted. -/
def Core.overrunCounted (c : Core) (d : Nat) : Core :=
  updDesc { c with loop := { c.loop with runs := c.loop.runs.filter fun r => r.desc.val != d } } d fun g =>
    { g with ovr := satNat 24 (g.ovr + 1), consec := min 4 ((vget c.loop.d d {}).consec + 1) }

/-- An overrun before Backstop is judged: the phase repeats its command, or the selection follows an outer loop. -/
def Core.overrunNoted (c : Core) (d : Nat) : Core :=
  let c := c.overrunCounted d
  if d < 4 then
    { c with gdr := { c.gdr with sw := vmap (fun i s =>
        if i / 4 == d then { s with next := { s.next with kind := .repeat_ } } else s) c.gdr.sw } }
  else runEnded c d

theorem overrun_eq : overrun c d.val = if min 4 (c.loop.d[d].consec + 1) = 4 then backstopDue (c.overrunNoted d.val) d.val
    else c.overrunNoted d.val := by
  rw [← vget_fin c.loop.d d {}]
  rfl

/-- The engine after an overrun of a descriptor: no run of it is left, its output is held, and it is counted. -/
structure LoopG.Overran (l l' : LoopG) (d : Fin 8) : Prop where
  stopped : ∀ x ∈ l'.runs, x.desc ≠ d
  adcMiss : l'.adcMiss = l.adcMiss
  out : l'.d[d].out = l.d[d].out
  ovr : l'.d[d].ovr = min (l.d[d].ovr + 1) 16777215
  consec : l'.d[d].consec = min 4 (l.d[d].consec + 1)

theorem overran_overrunCounted : c.loop.Overran (c.overrunCounted d.val).loop d where
  stopped x hx he := by simp [Core.overrunCounted, updDesc, he] at hx
  adcMiss := rfl
  out := by simp [Core.overrunCounted, updDesc]
  ovr := by simp [Core.overrunCounted, updDesc, satNat]
  consec := by simp [Core.overrunCounted, updDesc]

theorem LoopG.Overran.outerSelect {l : LoopG} {c : Core} {d : Fin 8} (h : l.Overran c.loop d) :
    l.Overran (outerSelect c).loop d := by
  obtain ⟨hruns, hmiss, i, sel, hd⟩ := outerSelect_leaves c d
  exact { stopped := by rw [hruns]; exact h.stopped
          adcMiss := hmiss.trans h.adcMiss
          out := by rw [hd]; exact h.out
          ovr := by rw [hd]; exact h.ovr
          consec := by rw [hd]; exact h.consec }

theorem overran_overrunNoted : c.loop.Overran (c.overrunNoted d.val).loop d := by
  have hcount := overran_overrunCounted c d
  unfold Core.overrunNoted
  dsimp only
  split
  · exact hcount
  · unfold runEnded
    split
    · exact hcount.outerSelect
    · exact hcount

theorem overrunNoted_kept : (c.overrunNoted d.val).kept = c.kept := by
  unfold Core.overrunNoted
  dsimp only
  split
  · rfl
  · rw [runEnded_kept]
    rfl

theorem LoopG.Overran.latched {l l' : LoopG} {d : Fin 8} (h : l.Overran l' d) (b : Bool) :
    l.Overran { l' with latched := b } d :=
  ⟨h.stopped, h.adcMiss, h.out, h.ovr, h.consec⟩

variable {c}

theorem overrun_overran (hn : noResetRaised c) :
    (overrun c d.val).kept = c.kept ∧ c.loop.Overran (overrun c d.val).loop d := by
  have hnoted := overran_overrunNoted c d
  have hkept := overrunNoted_kept c d
  rw [overrun_eq]
  split
  · obtain ⟨hk, b, hloop⟩ := backstopDue_leaves (c.overrunNoted d.val) d.val (noResetRaised_of_kept hkept hn)
    rw [hloop]
    exact ⟨hk.trans hkept, hnoted.latched b⟩
  · exact ⟨hkept, hnoted⟩

/-- The fourth overrun in a row of a phase's loop. -/
theorem overrun_fourth (hn : noResetRaised c) (hd : d.val < 4) (hfour : c.loop.d[d].consec = 3)
    (hb : (vget c.gdr.ph d.val {}).backstop = false) (hnext : (vget c.gdr.ph d.val {}).bsNext = false) :
    (overrun c d.val).loop.latched = true ∧ (vget (overrun c d.val).gdr.ph d.val {}).bsNext = true ∧
      latched (overrun c d.val) 0x0B02 (BitVec.ofNat 8 (d.val + 1)) := by
  have hph : (c.overrunNoted d.val).gdr.ph = c.gdr.ph := by
    unfold Core.overrunNoted
    dsimp only
    rw [if_pos hd]
    rfl
  rw [overrun_eq, hfour, if_pos (by decide)]
  exact backstopDue_phase _ _ hd (noResetRaised_of_kept (overrunNoted_kept c d) hn) (by rwa [hph]) (by rwa [hph])

/-- An illegal word is an overrun and a fault of the loop's memory (R255). -/
theorem loopIllegal_overran (hn : noResetRaised c) : (loopIllegal c d.val).kept = c.kept ∧
    c.loop.Overran (loopIllegal c d.val).loop d ∧ latched (loopIllegal c d.val) 0x0B03 (BitVec.ofNat 8 d.val) := by
  obtain ⟨hkept, hover⟩ := overrun_overran d hn
  have hn' := noResetRaised_of_kept hkept hn
  have hreact := reacted_fault (code := 0x0B03) (BitVec.ofNat 8 d.val) hn' (by decide)
  refine ⟨hreact.kept.trans hkept, ?_, latched_fault _ _ _ (classInForce_ne_d _ hn' (by decide))⟩
  rw [loopIllegal, hreact.loop]
  exact hover

end

/-! ### LOOP_OVERRUN and ILLEGAL_INSTRUCTION -/

section
variable {s : State} {r : LoopRun} (hrun : s.core.life.st = .run) (hhead : s.core.loop.runs.head? = some r)
  (hn : noResetRaised s.core)
include hrun hhead hn

theorem exec_loopOverrun {n : Nat} (hpast : pastWorst s.core r (max r.cycles n) = true) :
    exec (.loopOverrun r.desc n) s = .next { s with core := overrun s.core r.desc.val } := by
  obtain ⟨l, hruns⟩ := List.head?_eq_some_iff.1 hhead
  show execLoopOverrun r.desc n s = _
  exact onRun_of_kept hrun (by simp [hruns, hpast]) (overrun_overran r.desc hn).1

theorem exec_illegalInstruction : exec .illegalInstruction s = .next { s with core := loopIllegal s.core r.desc.val } := by
  obtain ⟨l, hruns⟩ := List.head?_eq_some_iff.1 hhead
  show execIllegalInstruction s = _
  exact onRun_of_kept hrun (by simp [hruns]) (loopIllegal_overran r.desc hn).1

end

end Sys2Proof.Machine
end

section
/-! PROOFS. Faults of the stage and of its phases (chapter 08, Table 08-6). -/

namespace Sys2Proof.Machine

/-! ### A fault of class A and a fault of one phase -/

/-- What a fault of the stage leaves of the controller `c` (R228, R232): the stage down, with its cause and its latch. -/
structure StageFaulted (c d : Core) (code : BitVec 16) (inst : BitVec 8) (cause ph : Nat) : Prop where
  kept : d.kept = c.kept
  stage : stageDown d
  cause : d.gdr.cause = cause
  phase : d.gdr.causePh = ph
  latch : latched d code inst

section
variable {c : Core} (code : BitVec 16) (hn : noResetRaised c)
include hn

theorem stageFaulted_faultWith (inst : BitVec 8) (cause ph : Nat) (hrun : c.life.st = .run) :
    StageFaulted c (faultWith c code inst .a .pending true cause ph) code inst cause ph := by
  have htaken := faultWith_a (row := .a) inst .pending true cause ph (classInForce_a code hn) (by simp [hrun])
  obtain ⟨hcause, hph⟩ := htaken.cause
  exact { kept := faultWith_kept _ _ _ _ _ _ _ (not_raises_of_noResetRaised hn) (by decide)
          stage := htaken.stage, cause := hcause, phase := hph
          latch := latched_faultWith _ _ _ _ _ _ _ _ (classInForce_ne_d code hn (by decide)) }

/-- A fault of a phase stands latched, with the phase off or in Chisel Off (R232). -/
theorem phaseFault_stands {n : Nat} (h4 : n < 4) (hrow : (rowClass code).getD .b ≠ .d) :
    (phaseFault c code n).kept = c.kept ∧ latched (phaseFault c code n) code (BitVec.ofNat 8 (n + 1)) ∧
      (vget (phaseFault c code n).gdr.ph n {}).live = false := by
  have hnote := noteChisel_eq c.gdr (chiselPhase c n 4) code
  have hkept : (noteChisel c.gdr (chiselPhase c n 4) code).kept = c.kept := noteChisel_kept _ _ _
  have hn' := noResetRaised_of_kept hkept hn
  have hoff : (vget (noteChisel c.gdr (chiselPhase c n 4) code).gdr.ph n {}).live = false := by
    rw [hnote, vget_eq_getElem _ _ _ h4]
    simpa [chiselPhase, chiselSel] using PhaseG.chisel_live _
  have hcls := classInForce_ne_d code hn' hrow
  exact ⟨(fault_kept _ _ (not_raises_of_noResetRaised hn') hrow).trans hkept, latched_fault _ _ _ hcls,
    ((rests_faultWith _ code _ _ .pending true 3 0 hcls).vget h4).live hoff⟩

end

/-! ### PHASE_OVERCURRENT and STAGE_OVERCURRENT (R228) -/

section
variable {s : State} (hrun : s.core.life.st = .run) (hn : noResetRaised s.core)
include hrun hn

theorem exec_phaseOvercurrent (n k : Fin 4) {v : Nat}
    (h : s.core.maq.stag.iOc * (vget s.core.gdr.sw (4 * n.val + k.val) {}).rEst < 10 * v) :
    ∃ t, exec (.phaseOvercurrent n k v) s = .next t ∧
      StageFaulted s.core t.core 0x0A01 (BitVec.ofNat 8 (n.val + 1)) 1 (n.val + 1) := by
  have hfault := stageFaulted_faultWith 0x0A01 hn (BitVec.ofNat 8 (n.val + 1)) 1 (n.val + 1) hrun
  refine ⟨_, (show execPhaseOvercurrent n k v s = _ from onCoreIf_of_kept ?_ rfl hfault.kept), hfault⟩
  simp [comparatorLive, stageLive, inRun, phaseTrips, inSafeHold, hrun, h]

theorem exec_stageOvercurrent {v : Nat} (h : stageTrips s.core v = true) :
    ∃ t, exec (.stageOvercurrent v) s = .next t ∧ StageFaulted s.core t.core 0x0A02 0 2 0 := by
  have hfault := stageFaulted_faultWith 0x0A02 hn 0 2 0 hrun
  refine ⟨_, (show execStageOvercurrent v s = _ from onCoreIf_of_kept ?_ rfl hfault.kept), hfault⟩
  simp [comparatorLive, stageLive, inRun, inSafeHold, hrun, h]

end

/-- The comparator at ISC takes all present phases together, or one alone while it calibrates (R228, R229). -/
theorem stageTrips_iff (c : Core) (v : Nat) : stageTrips c v = true ↔
    (if ∃ p ∈ c.gdr.ph.toList, p.st = .calibrating then 1 else nPresent c) * c.maq.stag.iOc * 110 < v := by
  simp only [stageTrips, List.any_eq_true, beq_iff_eq, decide_eq_true_eq]

/-! ### READ_BACK_WINDOW_END: a gate stuck on -/

/-- The controller after a period in which the gate of a switch read back on past its off edge. -/
def Core.stuckOnSeen (c : Core) (e : Nat) : Core :=
  { c with gdr := { c.gdr with sw := vupd c.gdr.sw e fun x => { x with
    stuck := true, readOn := true, stuckOn := (vget c.gdr.sw e {}).stuckOn + 1, stuckOff := (vget c.gdr.sw e {}).stuckOff } } }

section
variable {s : State} {e : Fin 16} {v : Nat} (hrun : s.core.life.st = .run)
  (hlive : (vget s.core.gdr.ph (e.val / 4) {}).live = true) (hv : 1500 < v)
include hrun hlive hv

theorem exec_readBackWindowEnd_stuckOn {d : Core} (hkept : d.kept = s.core.kept)
    (hd : (if 1 ≤ s.core.gdr.sw[e].stuckOn then faultWith (s.core.stuckOnSeen e.val) 0x0A03 (BitVec.ofNat 8 (e.val / 4 + 1)) .a
      .pending true 3 (e.val / 4 + 1) else s.core.stuckOnSeen e.val) = d) :
    exec (.readBackWindowEnd e false v) s = .next { s with core := d } := by
  show execReadBackWindowEnd e false v s = _
  refine onCoreIf_of_kept (by simp [stageLive, inRun, hrun, hlive]) ?_ hkept
  rw [← hd]
  simp [hv, Core.stuckOnSeen, Nat.succ_le_iff]

theorem exec_readBackWindowEnd_first (h : s.core.gdr.sw[e].stuckOn = 0) :
    exec (.readBackWindowEnd e false v) s = .next { s with core := s.core.stuckOnSeen e.val } :=
  exec_readBackWindowEnd_stuckOn hrun hlive hv rfl (if_neg (by omega))

theorem exec_readBackWindowEnd_second (hn : noResetRaised s.core) (h : 1 ≤ s.core.gdr.sw[e].stuckOn) :
    ∃ t, exec (.readBackWindowEnd e false v) s = .next t ∧ StageFaulted (s.core.stuckOnSeen e.val) t.core 0x0A03
      (BitVec.ofNat 8 (e.val / 4 + 1)) 3 (e.val / 4 + 1) := by
  have hfault := stageFaulted_faultWith (c := s.core.stuckOnSeen e.val) 0x0A03 hn (BitVec.ofNat 8 (e.val / 4 + 1)) 3
    (e.val / 4 + 1) hrun
  exact ⟨_, exec_readBackWindowEnd_stuckOn hrun hlive hv hfault.kept (if_pos h), hfault⟩

end

/-! ### BOOTSTRAP_REFRESH (R225) -/

/-- The controller with a refresh of the bootstrap of a high side due. -/
def Core.refreshAsked (c : Core) (e : Fin 16) (ok : Bool) : Core :=
  { c with gdr := { c.gdr with
    boot := putBit c.gdr.boot (if e.val % 4 = 0 then e.val / 4 else 4 + e.val / 4) ok
    sw := vupd c.gdr.sw e.val fun x => { x with refDue := true } } }

section
variable {s : State} {e : Fin 16} (hsw : s.core.gdr.st = .switching)
  (hhigh : e.val % 4 = 0 ∨ e.val % 4 = 3)
  (hph : (vget s.core.gdr.ph (e.val / 4) {}).st = .run ∨ (vget s.core.gdr.ph (e.val / 4) {}).st = .calibrating)
include hsw hhigh hph

theorem exec_bootstrapRefresh_of_kept {ok : Bool} {d : Core} (hkept : d.kept = s.core.kept)
    (hd : (if ok then s.core.refreshAsked e ok else phaseFault (s.core.refreshAsked e ok) 0x0A05 (e.val / 4)) = d) :
    exec (.bootstrapRefresh e ok) s = .next { s with core := d } := by
  show execBootstrapRefresh e ok s = _
  exact onCoreIf_of_kept (by simp [hsw, hhigh, hph]) hd hkept

theorem exec_bootstrapRefresh_up : exec (.bootstrapRefresh e true) s = .next { s with core := s.core.refreshAsked e true } :=
  exec_bootstrapRefresh_of_kept hsw hhigh hph rfl rfl

theorem exec_bootstrapRefresh_low (hn : noResetRaised s.core) : ∃ t, exec (.bootstrapRefresh e false) s = .next t ∧
    latched t.core 0x0A05 (BitVec.ofNat 8 (e.val / 4 + 1)) ∧ (vget t.core.gdr.ph (e.val / 4) {}).live = false := by
  obtain ⟨hkept, hlatch, hlive⟩ := phaseFault_stands (c := s.core.refreshAsked e false) 0x0A05 hn
    (show e.val / 4 < 4 by omega) (by decide)
  exact ⟨_, exec_bootstrapRefresh_of_kept hsw hhigh hph hkept rfl, hlatch, hlive⟩

end

end Sys2Proof.Machine

open Sys2Proof Sys2Proof.Machine

/-- Settles O42: the faults of class A take the stage by `faultWith_a`, a fault of a phase is `phaseFault_stands`, and an overrun
is `overrun_overran`, with `overrun_fourth` after three more. -/
theorem stageAndLoopFaultsTurnOff : Obligations.StageAndLoopFaultsTurnOff := by
  unfold Obligations.StageAndLoopFaultsTurnOff
  refine ⟨fun n e v s hrun hn => ⟨fun k hover => ?_, fun hover hcal => ?_, fun hover hcal => ?_, fun hlive hv => ⟨fun h0 => ?_,
    fun h1 => ?_⟩, fun hsw hhigh hph => ⟨?_, exec_bootstrapRefresh_low hsw hhigh hph hn⟩⟩, fun r s hrun hhead hn =>
      ⟨fun n hpast => ?_, ?_⟩⟩
  · obtain ⟨t, hexec, hfault⟩ := exec_phaseOvercurrent hrun hn n k hover
    exact ⟨t, hexec, hfault.stage, hfault.cause, hfault.phase, hfault.latch⟩
  · have htrip : stageTrips s.core v = true := by
      rw [stageTrips_iff, if_neg fun ⟨p, hp, hst⟩ => hcal p hp hst]
      exact hover
    obtain ⟨t, hexec, hfault⟩ := exec_stageOvercurrent hrun hn htrip
    exact ⟨t, hexec, hfault.stage, hfault.cause, hfault.phase, hfault.latch⟩
  · have htrip : stageTrips s.core v = true := by
      rw [stageTrips_iff, if_pos hcal, Nat.one_mul]
      exact hover
    obtain ⟨t, hexec, hfault⟩ := exec_stageOvercurrent hrun hn htrip
    exact ⟨t, hexec, hfault.stage, hfault.cause⟩
  · exact ⟨_, exec_readBackWindowEnd_first hrun hlive hv h0, by simpa [Core.stuckOnSeen] using h0, by simp [Core.stuckOnSeen],
      rfl, rfl⟩
  · obtain ⟨t, hexec, hfault⟩ := exec_readBackWindowEnd_second hrun hlive hv hn h1
    exact ⟨t, hexec, hfault.stage, hfault.cause, hfault.phase, hfault.latch⟩
  · exact ⟨_, exec_bootstrapRefresh_up hsw hhigh hph, rfl, by simp [Core.refreshAsked], fun k hk =>
      getElem_vupd_ne _ _ _ _ _ fun h => hk (Fin.ext h)⟩
  · obtain ⟨-, hover⟩ := overrun_overran r.desc hn
    refine ⟨_, exec_loopOverrun hrun hhead hn hpast, hover.stopped, hover.ovr, hover.consec, hover.out, fun hthree hd hb hnext => ?_⟩
    exact overrun_fourth r.desc hn hd hthree hb hnext
  · obtain ⟨-, hover, hlatch⟩ := loopIllegal_overran r.desc hn
    exact ⟨_, exec_illegalInstruction hrun hhead hn, hover.stopped, hover.ovr, hlatch⟩
end

section
/-! PROOFS. How phases stop and start: Chisel Off, the end of a precharge and a calibration run (chapter 08, Tables 08-4 and
08-5). -/

namespace Sys2Proof.Machine

/-! ### Chisel Off (Table 08-5) -/

section
variable (n : Fin 4) (s : State)

theorem exec_chiselOffStep2 : exec (.chiselOffStep2 n) s = .next { s with core := chiselStep2 s.core n.val } := by
  show execChiselOffStep2 n s = _
  exact onCore_of_kept rfl (chiselStep2_kept s.core n.val)

theorem exec_chiselOffComplete : exec (.chiselOffComplete n) s = .next { s with core := chiselDone s.core n.val } := by
  show execChiselOffComplete n s = _
  exact onCore_of_kept rfl (chiselDone_kept s.core n.val)

end

/-- Where a phase in step 1 of its Chisel Off goes on to. -/
def PhaseSt.step2 (p : PhaseSt) : PhaseSt := if p = .chisel1 then .chisel2 else p

/-- Where a phase in step 2 of its Chisel Off ends. -/
def PhaseSt.chiselled (p : PhaseSt) : PhaseSt := if p = .chisel2 then .off else p

section
variable (c : Core) (n : Nat)

theorem chiselStep2_reset (h : c.life.st = .reset) : chiselStep2 c n =
    { c with outs := { c.outs with ph := vupd c.outs.ph n PhaseSt.step2 }.settle } := by
  simp only [chiselStep2, h, beq_self_eq_true, if_true]
  rfl

theorem chiselStep2_of_ne (h : c.life.st ≠ .reset) : chiselStep2 c n =
    { c with gdr := { c.gdr with ph := vupd c.gdr.ph n fun p => { p with st := p.st.step2 } } } := by
  simp only [chiselStep2, beq_iff_eq, h, if_false]
  rfl

theorem chiselDone_reset (h : c.life.st = .reset) : chiselDone c n =
    { c with outs := { c.outs with
      ph := vupd c.outs.ph n PhaseSt.chiselled
      entry := c.outs.entry && (vupd c.outs.ph n PhaseSt.chiselled).toList.any fun p => p != .off } } := by
  simp only [chiselDone, h, beq_self_eq_true, if_true]
  rfl

/-- A phase whose Chisel Off ends is off with its gates, and the other switches stand. -/
theorem chiselDone_of_ne (h : c.life.st ≠ .reset) (hph : (vget c.gdr.ph n {}).st = .chisel2) : chiselDone c n =
    { c with gdr := { c.gdr with
      ph := vupd c.gdr.ph n fun p => { p with st := p.st.chiselled }
      sw := vmap (fun e x => if e / 4 = n then { x with on := false, readOn := false } else x) c.gdr.sw } } := by
  simp only [chiselDone, beq_iff_eq, h, if_false, hph, beq_self_eq_true, Bool.and_true]
  rfl

end

theorem ResetOuts.settle_ph (o : ResetOuts) : o.settle.ph = o.ph := by
  unfold settle
  split <;> rfl

/-- With no phase left in step 1 the path gates and load switches are off (R57, R129). -/
theorem ResetOuts.settle_of_step2 {o : ResetOuts} (h : ∀ p ∈ o.ph.toList, p ≠ .chisel1) :
    o.settle = { o with pairs := Vector.replicate 3 false, batfet := .off, lsw := 0 } := by
  have hstep : o.step1 = false := List.any_eq_false.2 fun p hp => by simpa using h p hp
  simp [settle, hstep]

/-! ### The next calibration run (Table 08-4 steps 3 and 4) -/

section
variable (c : Core)

theorem calibrateNext_eq : calibrateNext c = { c with gdr := { c.gdr with ph := (calibrateNext c).gdr.ph } } := by
  unfold calibrateNext
  repeat' split
  all_goals rfl

/-- A calibration that begins does not change which phases have had theirs. -/
theorem calibrateNext_cal (i : Nat) (hi : i < 4) : (calibrateNext c).gdr.ph[i].cal = c.gdr.ph[i].cal := by
  unfold calibrateNext
  split
  · rfl
  · split
    · rw [getElem_vupd]
      split <;> rfl
    · rw [getElem_vmap]
      split <;> rfl

variable {c}

theorem none_calibrating (h : ∀ k : Fin 4, c.gdr.ph[k].st = .waitCal) :
    (c.gdr.ph.toList.any fun p => p.st == .calibrating) = false := by
  rw [List.any_eq_false]
  intro p hp
  obtain ⟨i, hi, rfl⟩ := List.mem_iff_getElem.1 hp
  have hst := h ⟨i, by simpa using hi⟩
  simp only [Fin.getElem_fin] at hst
  simp [hst]

/-- Where every waiting phase has had its calibration, all run. -/
theorem calibrateNext_run (h : ∀ k : Fin 4, c.gdr.ph[k].st = .waitCal) (hcal : ∀ k : Fin 4, c.gdr.ph[k].cal = true) :
    calibrateNext c = { c with gdr := { c.gdr with ph := vmap (fun _ p => { p with st := .run }) c.gdr.ph } } := by
  have hfind : (List.range 4).find? (fun n => (vget c.gdr.ph n {}).st == .waitCal && !(vget c.gdr.ph n {}).cal) = none := by
    rw [List.find?_eq_none]
    intro n hn
    have hc := hcal ⟨n, List.mem_range.1 hn⟩
    rw [← vget_fin _ _ {}] at hc
    simp [hc]
  have hph : vmap (fun _ (p : PhaseG) => if p.st = .waitCal then { p with st := .run } else p) c.gdr.ph =
      vmap (fun _ p => { p with st := .run }) c.gdr.ph := by
    ext i hi
    have hst : c.gdr.ph[i].st = .waitCal := h ⟨i, hi⟩
    rw [getElem_vmap, getElem_vmap, if_pos hst]
  rw [calibrateNext, none_calibrating h, hfind, if_neg (by decide)]
  dsimp only
  rw [hph]

/-- Where no waiting phase has had its calibration, the first begins it. -/
theorem calibrateNext_first (h : ∀ k : Fin 4, c.gdr.ph[k].st = .waitCal) (hcal : c.gdr.ph[(0 : Fin 4)].cal = false) :
    calibrateNext c = { c with gdr := { c.gdr with
      ph := vupd c.gdr.ph 0 fun p => { p with st := .calibrating, setpoint := calSetpoint c 0 } } } := by
  have h0 := h 0
  rw [← vget_fin _ _ {}] at h0 hcal
  have hfind : (List.range 4).find? (fun n => (vget c.gdr.ph n {}).st == .waitCal && !(vget c.gdr.ph n {}).cal) = some 0 := by
    have hsel : ((vget c.gdr.ph 0 {}).st == .waitCal && !(vget c.gdr.ph 0 {}).cal) = true := by
      simp only [Fin.val_zero] at h0 hcal
      simp [h0, hcal]
    exact List.find?_cons_of_pos hsel
  rw [calibrateNext, none_calibrating h, hfind, if_neg (by decide)]

end

/-! ### PRECHARGE_END with every bootstrap up (R230) -/

/-- A phase in its precharge. -/
def Core.precharging (c : Core) (n : Nat) : Bool := (vget c.gdr.ph n {}).st == .precharge

/-- Both bootstraps of a phase are up. -/
def bootUp (up : BitVec 8) (n : Nat) : Bool := up.getLsbD n && up.getLsbD (4 + n)

/-- The controller at the end of a precharge, its phases without their bootstraps not yet faulted. -/
def Core.prechargeOver (c : Core) (up : BitVec 8) : Core :=
  let g := lowSides c.gdr c.precharging false
  { c with gdr := { g with
    boot := up, starting := false, parkAsk := false
    st := if g.starting then (if g.parkAsk then .parked else .switching) else g.st
    ph := vmap (fun n p => if c.precharging n then
      (if bootUp up n then { p with st := .waitCal } else { p with preFail := true }) else p) g.ph } }

/-- What follows the end of a precharge: the next calibration run, where the stage switches. -/
def afterPrecharge (c : Core) : Core := if c.gdr.st == .switching then calibrateNext c else c

theorem exec_prechargeEnd (up : BitVec 8) (s : State) : exec (.prechargeEnd up) s = onRun s fun c =>
    if !((List.range 4).any c.precharging) then c
    else afterPrecharge (((List.range 4).filter fun n => c.precharging n && !bootUp up n).foldl
      (fun c n => phaseFault c 0x0A06 n) (c.prechargeOver up)) := rfl

/-- The controller after the precharge of all four phases: low-side gates off, every phase waits for its calibration. -/
def Core.precharged (c : Core) : Core :=
  { c with gdr := { c.gdr with
    boot := 0xFF, starting := false, parkAsk := false, st := if c.gdr.parkAsk then .parked else .switching
    sw := vmap (fun e x => if e % 4 = 1 ∨ e % 4 = 2 then { x with on := false } else x) c.gdr.sw
    ph := vmap (fun _ p => { p with st := .waitCal }) c.gdr.ph } }

theorem precharged_ph (c : Core) (k : Fin 4) : c.precharged.gdr.ph[k] = { c.gdr.ph[k] with st := .waitCal } :=
  getElem_vmap _ _ _ _

section
variable {s : State} (hrun : s.core.life.st = .run) (hpre : ∀ k : Fin 4, s.core.gdr.ph[k].st = .precharge)
  (hstart : s.core.gdr.starting = true)
include hpre

theorem precharging_all (n : Nat) (hn : n < 4) : s.core.precharging n = true := by
  rw [Core.precharging, vget_eq_getElem _ _ _ hn, beq_iff_eq]
  exact hpre ⟨n, hn⟩

include hstart

theorem prechargeOver_all : s.core.prechargeOver 0xFF = s.core.precharged := by
  have hsel := precharging_all hpre
  have hup : ∀ n, n < 4 → bootUp 0xFF n = true := by decide
  have hsw : (lowSides s.core.gdr s.core.precharging false).sw = s.core.precharged.gdr.sw := by
    ext e he
    simp [lowSides, Core.precharged, hsel (e / 4) (by omega)]
  have hph : (s.core.prechargeOver 0xFF).gdr.ph = s.core.precharged.gdr.ph := by
    ext k hk
    simp only [Core.prechargeOver, Core.precharged, lowSides, getElem_vmap, hsel k hk, hup k hk, if_true]
  have hst : (s.core.prechargeOver 0xFF).gdr.st = s.core.precharged.gdr.st := if_pos hstart
  calc s.core.prechargeOver 0xFF
      = { s.core.precharged with gdr := { s.core.precharged.gdr with
          st := (s.core.prechargeOver 0xFF).gdr.st, ph := (s.core.prechargeOver 0xFF).gdr.ph
          sw := (lowSides s.core.gdr s.core.precharging false).sw } } := rfl
    _ = s.core.precharged := by rw [hsw, hph, hst]

include hrun

theorem exec_prechargeEnd_all {d : Core} (hkept : d.kept = s.core.kept) (hd : afterPrecharge s.core.precharged = d) :
    exec (.prechargeEnd 0xFF) s = .next { s with core := d } := by
  have hany : (List.range 4).any s.core.precharging = true :=
    List.any_eq_true.2 ⟨0, by decide, precharging_all hpre 0 (by decide)⟩
  have hbad : ((List.range 4).filter fun n => s.core.precharging n && !bootUp 0xFF n) = [] := by
    have hup : ∀ n ∈ List.range 4, bootUp 0xFF n = true := by decide
    exact List.filter_eq_nil_iff.2 fun n hn => by rw [hup n hn, Bool.not_true, Bool.and_false]; decide
  rw [exec_prechargeEnd]
  refine onRun_of_kept hrun ?_ hkept
  rw [hany, hbad, ← hd, ← prechargeOver_all hpre hstart]
  rfl

theorem exec_prechargeEnd_parks (hask : s.core.gdr.parkAsk = true) :
    exec (.prechargeEnd 0xFF) s = .next { s with core := s.core.precharged } := by
  refine exec_prechargeEnd_all hrun hpre hstart rfl (if_neg ?_)
  simp [Core.precharged, hask]

theorem exec_prechargeEnd_goesOn (hask : s.core.gdr.parkAsk = false) :
    exec (.prechargeEnd 0xFF) s = .next { s with core := calibrateNext s.core.precharged } := by
  refine exec_prechargeEnd_all hrun hpre hstart (calibrateNext_kept _) (if_pos ?_)
  simp [Core.precharged, hask]

end

/-! ### CALIBRATION_RUN_END (R229) -/

/-- The estimates of a run in which every switch of the phase conducted. -/
theorem estimates_of_conducting {v : Vector Nat 4} {i : Nat} (hi : 0 < i) (hv : ∀ j : Fin 4, v[j] ≠ 0) :
    estimates v i = v.toList.map (· * 1000 / i) := by
  refine List.ext_getElem (by simp [estimates]) fun j hj _ => ?_
  have h4 : j < 4 := by simpa [estimates] using hj
  have hne : v[j] ≠ 0 := hv ⟨j, h4⟩
  simp [estimates, h4, hne, Nat.ne_of_gt hi]

/-- Where every estimate lies within its bounds, every switch conducted. -/
theorem drops_ne_zero {v : Vector Nat 4} {i : Nat} (hv : ∀ j : Fin 4, 200 ≤ v[j] * 1000 / i ∧ v[j] * 1000 / i ≤ 20000)
    (j : Fin 4) : v[j] ≠ 0 := fun h0 => by
  have hlow := (hv j).1
  simp [h0] at hlow

/-- The controller after a calibration run of a phase within its bounds. -/
def Core.calibrated (c : Core) (n : Nat) (v : Vector Nat 4) (i : Nat) : Core :=
  { c with gdr := { c.gdr with
    sw := vmap (fun e x => if e / 4 == n then { x with rEst := (estimates v i).getD (e % 4) 0 } else x) c.gdr.sw
    ph := vupd c.gdr.ph n fun p => { p with st := .waitCal, cal := true } } }

section
variable {s : State} {n : Fin 4} {i : Nat} {v : Vector Nat 4} (hrun : s.core.life.st = .run)
  (hph : s.core.gdr.ph[n].st = .calibrating) (hi : 0 < i)
  (hv : ∀ j : Fin 4, 200 ≤ v[j] * 1000 / i ∧ v[j] * 1000 / i ≤ 20000)
include hrun hph hi hv

theorem exec_calibrationRunEnd : exec (.calibrationRunEnd n v i) s =
    .next { s with core := afterPrecharge (s.core.calibrated n.val v i) } := by
  have hne := drops_ne_zero hv
  have hgood : (decide (0 < i) && (estimates v i).all fun r => within 200 r 20000) = true := by
    rw [estimates_of_conducting hi hne, decide_eq_true hi, Bool.true_and, List.all_eq_true]
    intro r hr
    obtain ⟨x, hx, rfl⟩ := List.mem_map.1 hr
    obtain ⟨j, hj, rfl⟩ := List.mem_iff_getElem.1 hx
    have hbound := hv ⟨j, by simpa using hj⟩
    simpa [within] using hbound
  have hkept : (afterPrecharge (s.core.calibrated n.val v i)).kept = s.core.kept := by
    unfold afterPrecharge
    split
    · exact calibrateNext_kept _
    · rfl
  have hcmd : exec (.calibrationRunEnd n v i) s = execCalibrationRunEnd n v i s := rfl
  have hst : (vget s.core.gdr.ph n.val {}).st = .calibrating := (congrArg PhaseG.st (vget_fin _ _ _)).trans hph
  have hguard : (inRun s.core && (vget s.core.gdr.ph n.val {}).st == .calibrating) = true := by
    rw [inRun, hrun, hst]
    rfl
  refine hcmd.trans (onCoreIf_of_kept hguard ?_ hkept)
  dsimp only
  rw [hgood]
  rfl

end

/-- What follows a precharge or a calibration run moves phases alone, and forgets no calibration. -/
theorem afterPrecharge_leaves (c : Core) : (∃ ph, afterPrecharge c = { c with gdr := { c.gdr with ph := ph } }) ∧
    ∀ n : Fin 4, (afterPrecharge c).gdr.ph[n].cal = c.gdr.ph[n].cal := by
  unfold afterPrecharge
  split
  · exact ⟨⟨_, calibrateNext_eq c⟩, fun n => calibrateNext_cal c n.val n.isLt⟩
  · exact ⟨⟨c.gdr.ph, rfl⟩, fun _ => rfl⟩

end Sys2Proof.Machine

open Sys2Proof Sys2Proof.Machine

/-- Settles O43: each step of Chisel Off by its equation, the precharge by what follows it (`calibrateNext_run`,
`calibrateNext_first`), and the calibration run by its estimates. -/
theorem phasesStartAndStop : Obligations.PhasesStartAndStop := by
  unfold Obligations.PhasesStartAndStop
  intro n s
  refine ⟨fun hst => ⟨⟨_, exec_chiselOffStep2 n s, ?_, ?_, ?_⟩, _, exec_chiselOffComplete n s, ?_, ?_⟩,
    fun hst => ⟨_, exec_chiselOffStep2 n s, ?_, ?_, fun k hk => ?_⟩,
    fun hst hph => ⟨_, exec_chiselOffComplete n s, ?_⟩, fun hrun hpre hstart => ⟨fun hask hcal => ?_, fun hask hcal => ?_,
      fun hask => ?_⟩, fun i v hrun hph hi hv => ?_⟩
  · rw [chiselStep2_reset _ _ hst]
  · simp only [chiselStep2_reset _ _ hst, ResetOuts.settle_ph]
    exact getElem_vupd_self _ _ _ _
  · intro hstep
    simp only [chiselStep2_reset _ _ hst, ResetOuts.settle_ph] at hstep ⊢
    rw [ResetOuts.settle_of_step2 hstep]
    exact ⟨rfl, rfl, fun x hx => by simpa using hx⟩
  · rw [chiselDone_reset _ _ hst]
  · rw [chiselDone_reset _ _ hst]
    exact getElem_vupd_self _ _ _ _
  · rw [chiselStep2_of_ne _ _ hst]
  · rw [chiselStep2_of_ne _ _ hst]
    exact getElem_vupd_self _ _ _ _
  · rw [chiselStep2_of_ne _ _ hst]
    exact getElem_vupd_ne _ _ _ _ _ fun h => hk (Fin.ext h)
  · rw [chiselDone_of_ne _ _ hst ((congrArg PhaseG.st (vget_fin _ _ _)).trans hph)]
    have hoff : (vupd s.core.gdr.ph n.val fun p => { p with st := p.st.chiselled })[n].st = .off := by
      have hst : s.core.gdr.ph[n].st.chiselled = .off := by rw [hph]; rfl
      exact (congrArg PhaseG.st (getElem_vupd_self _ _ _ _)).trans hst
    exact ⟨hoff, fun e he => by simp [he], fun e he => by simp [he], rfl, rfl⟩
  · refine ⟨_, exec_prechargeEnd_goesOn hrun hpre hstart hask, ?_⟩
    rw [calibrateNext_run (fun k => congrArg PhaseG.st (precharged_ph _ k))
      fun k => (congrArg PhaseG.cal (precharged_ph _ k)).trans (hcal k)]
    refine ⟨by simp [Core.precharged, hask], rfl, fun k => by simp, rfl, fun e he => ?_⟩
    simp [Core.precharged, he]
  · refine ⟨_, exec_prechargeEnd_goesOn hrun hpre hstart hask, ?_⟩
    rw [calibrateNext_first (fun k => congrArg PhaseG.st (precharged_ph _ k))
      ((congrArg PhaseG.cal (precharged_ph _ 0)).trans (hcal 0))]
    refine ⟨by simp [Core.precharged, hask], by simp, fun k hk => ?_⟩
    exact (congrArg PhaseG.st (getElem_vupd_ne _ _ _ _ _ fun h => hk (Fin.ext h))).trans
      (congrArg PhaseG.st (precharged_ph _ k))
  · exact ⟨_, exec_prechargeEnd_parks hrun hpre hstart hask, if_pos hask, fun k => congrArg PhaseG.st (precharged_ph _ k)⟩
  · obtain ⟨⟨ph, hafter⟩, hcal⟩ := afterPrecharge_leaves (s.core.calibrated n.val v i)
    refine ⟨_, exec_calibrationRunEnd hrun hph hi hv, (hcal n).trans (by simp [Core.calibrated]), ?_, fun e j he => ?_⟩
    · rw [hafter]
      rfl
    · have hne := drops_ne_zero hv
      have hdiv : e.val / 4 = n.val := by omega
      have hmod : e.val % 4 = j.val := by omega
      rw [hafter]
      simp [Core.calibrated, hdiv, hmod, estimates_of_conducting hi hne]
end

section
/-! PROOFS. Probes: their start, what their results do, and the hold-off after a reaction of class A (chapter 11). -/

namespace Sys2Proof.Machine

/-! ### The number that names a phase or a channel -/

theorem instIx_ofNat {n : Nat} (h : n < 8) : instIx (BitVec.ofNat 8 (n + 1)) = n := by
  rw [instIx, BitVec.toNat_ofNat]
  omega

theorem ofNat_succ_ne_zero {n : Nat} (h : n < 8) : (BitVec.ofNat 8 (n + 1) != 0) = true := by
  rw [bne_iff_ne]
  intro h0
  have hnat : (n + 1) % 2 ^ 8 = 0 := (BitVec.toNat_ofNat _ _).symm.trans (congrArg BitVec.toNat h0)
  omega

/-! ### PROBE_START of a phase (R238) -/

/-- The controller whose Probe of a code runs on one block. -/
def Core.probing (c : Core) (code : BitVec 16) (inst : BitVec 8) : Core :=
  { c with flt := { c.flt with q := c.flt.q.map fun x =>
      if x.code == code && x.inst == inst then { x with running := true } else x } }

/-- A phase that is off is Probed. -/
def PhaseG.probed (p : PhaseG) : PhaseG := if p.st == .off then { p with st := .probe } else p

section
variable {s : State} {code : BitVec 16} {n : Nat} (hn : n < 8) (hcode : isPhaseProbe code = true)
  (hsole : solePhase s.core n = false)
include hn hcode hsole

theorem probeEffect_phase : probeEffect (s.core.probing code (BitVec.ofNat 8 (n + 1))) code (BitVec.ofNat 8 (n + 1)) =
    { s.core.probing code (BitVec.ofNat 8 (n + 1)) with
      gdr := { s.core.gdr with ph := vupd s.core.gdr.ph n PhaseG.probed } } := by
  have hsole' : solePhase (s.core.probing code (BitVec.ofNat 8 (n + 1))) n = false := hsole
  rw [probeEffect]
  simp only [hcode, ofNat_succ_ne_zero hn, instIx_ofNat hn, hsole', Bool.and_self, if_true, Bool.false_eq_true, if_false]
  rfl

theorem exec_probeStart_phase (hrun : s.core.life.st = .run) (hfree : probeFree s.core code (BitVec.ofNat 8 (n + 1)) = true) :
    exec (.probeStart code (BitVec.ofNat 8 (n + 1))) s = .next { s with core :=
      { s.core.probing code (BitVec.ofNat 8 (n + 1)) with
        gdr := { s.core.gdr with ph := vupd s.core.gdr.ph n PhaseG.probed } } } := by
  have hguard : ((inRun s.core || inSafeHold s.core) && probeFree s.core code (BitVec.ofNat 8 (n + 1)) &&
      !(isPhaseProbe code && solePhase s.core (instIx (BitVec.ofNat 8 (n + 1))) && s.core.path.batfet != .full)) = true := by
    rw [instIx_ofNat hn, hsole, hfree, (inRun_iff _).2 hrun, Bool.and_false, Bool.false_and]
    rfl
  show execProbeStart _ _ s = _
  exact onCoreIf_of_kept hguard (probeEffect_phase hn hcode hsole) rfl

end

theorem Core.probing_running (c : Core) (code : BitVec 16) (inst : BitVec 8) {x : ProbeQ} (hx : x ∈ (c.probing code inst).flt.q)
    (hcode : x.code = code) (hinst : x.inst = inst) : x.running = true := by
  obtain ⟨y, -, rfl⟩ := List.mem_map.1 hx
  by_cases hy : (y.code == code && y.inst == inst) = true
  · rw [if_pos hy]
  · rw [if_neg hy] at hcode hinst
    simp [hcode, hinst] at hy

/-! ### PROBE_RESULT and PROBE_TIMEOUT without another error on the Probe (R293, R302) -/

section
variable {s : State} {code : BitVec 16} {inst : BitVec 8} (hshare : sharing s.core code inst = [])
include hshare

theorem exec_probeResult {pass : Bool} {sec : Nat} {d : Core}
    (hq : ∃ x ∈ s.core.flt.q, x.code = code ∧ x.inst = inst ∧ x.running = true)
    (hd : (probeEnded (dequeue s.core code inst) code inst pass sec).1 = d) (hkept : d.kept = s.core.kept) :
    exec (.probeResult code inst pass sec) s = .next { s with core := d } := by
  obtain ⟨x, hx, hcode, hinst, hrun⟩ := hq
  show execProbeResult code inst pass sec s = _
  refine onCoreIf_of_kept (List.any_eq_true.2 ⟨x, hx, by simp [hcode, hinst, hrun]⟩) ?_ hkept
  rw [hshare]
  exact hd

theorem exec_probeTimeout {d : Core} (hq : ∃ x ∈ s.core.flt.q, x.code = code ∧ x.inst = inst)
    (hd : notRun (dequeue s.core code inst) (code, inst) = d) (hkept : d.kept = s.core.kept) :
    exec (.probeTimeout code inst) s = .next { s with core := d } := by
  obtain ⟨x, hx, hcode, hinst⟩ := hq
  show execProbeTimeout code inst s = _
  refine onCoreIf_of_kept (List.any_eq_true.2 ⟨x, hx, by simp [hcode, hinst]⟩) ?_ hkept
  rw [hshare]
  exact hd

end

/-! ### A measurement that is missing (0x0803, R276) -/

/-- A shunt channel is isolated, with the fault of its measurement latched. -/
structure MeasurementLost (c d : Core) (k : Fin 8) (inst : BitVec 8) : Prop where
  kept : d.kept = c.kept
  iso : d.ldg.ch[k].iso = true
  restarted : d.ldg.restarted = true
  wins : d.ldg.wins = []
  latch : latched d 0x0803 inst

/-- The channel isolated and its fault found, whatever the Probe state. -/
theorem measurementLost_faultWith {c : Core} (k : Fin 8) (row : FCls) (p : ProbeSt) (hn : noResetRaised c) (hrow : row ≠ .d) :
    MeasurementLost c (faultWith (isolateChannel (dequeue c 0x0803 (BitVec.ofNat 8 k.val)) (BitVec.ofNat 8 k.val).toNat) 0x0803
      (BitVec.ofNat 8 k.val) row p false 3 0) k (BitVec.ofNat 8 k.val) := by
  have hk : (BitVec.ofNat 8 k.val).toNat = k.val := by
    rw [BitVec.toNat_ofNat]
    omega
  rw [hk]
  have hcls : classInForce (isolateChannel (dequeue c 0x0803 (BitVec.ofNat 8 k.val)) k.val) 0x0803 row ≠ .d :=
    classInForce_ne_d (c := isolateChannel (dequeue c 0x0803 (BitVec.ofNat 8 k.val)) k.val) _ hn hrow
  have hreact := (reacted_faultWith _ 0x0803 (BitVec.ofNat 8 k.val) row p false 3 0 hcls).1
  have hiso : (isolateChannel (dequeue c 0x0803 (BitVec.ofNat 8 k.val)) k.val).ldg.ch[k].iso = true :=
    congrArg LdgChan.iso (getElem_vupd_self _ _ _ _)
  exact { kept := hreact.kept
          iso := by rw [hreact.ldg]; exact hiso
          restarted := by rw [hreact.ldg]; rfl
          wins := by rw [hreact.ldg]; rfl
          latch := latched_faultWith _ _ _ _ _ _ _ _ hcls }

/-! ### The class's own step (Table 11-4) -/

section
variable (c : Core) (code : BitVec 16) (inst : BitVec 8)

/-- Outside the rows that FLTR isolates, the class's own step sets the hold-off and the bar alone. -/
theorem classResult_eq (cls : FCls) (lasting : Bool) (h : lasting = true → code ≠ 0x0405 ∧ code ≠ 0x1203) :
    ∃ hold bar, classResult c code inst cls lasting = { c with gdr := { c.gdr with holdOff := hold, barred := bar } } := by
  unfold classResult
  cases cls with
  | a =>
    dsimp only
    split
    · exact ⟨true, c.gdr.barred, rfl⟩
    · exact ⟨c.gdr.holdOff, true, rfl⟩
  | b => exact ⟨c.gdr.holdOff, c.gdr.barred, rfl⟩
  | c =>
    refine ⟨c.gdr.holdOff, c.gdr.barred, ?_⟩
    cases lasting with
    | false => rfl
    | true =>
      obtain ⟨h1, h2⟩ := h rfl
      have hraised : isolateRaised c code inst = c := by
        rw [isolateRaised, beq_false_of_ne h1, beq_false_of_ne h2]
        rfl
      exact hraised
  | d =>
    dsimp only
    split
    · exact ⟨c.gdr.holdOff, true, rfl⟩
    · exact ⟨c.gdr.holdOff, c.gdr.barred, rfl⟩

/-- An error classified: the row's own text, and the class's step. -/
theorem classify_eq {lasting : Bool} {st : ProbeSt} (h : lasting = true → code ≠ 0x0405 ∧ code ≠ 0x1203) (hrot : code ≠ 0x1805)
    {d : Core} (hd : (if lasting then lastingAct (updLatch c code inst fun x => { x with probe := st }) code inst
      else transientAct (updLatch c code inst fun x => { x with probe := st }) code inst) = d) :
    ∃ hold bar, classify c code inst lasting st = { d with gdr := { d.gdr with holdOff := hold, barred := bar } } := by
  obtain ⟨hold, bar, hres⟩ := classResult_eq d code inst (latchClass c code inst) lasting h
  refine ⟨hold, bar, ?_⟩
  rw [classify]
  dsimp only
  rw [hd, hres, if_neg (by simpa using hrot)]

theorem faultActive_clearActive : faultActive (clearActive c code inst) code inst = false := by
  rw [faultActive, List.any_eq_false]
  refine forall_mem_vmap (fun _ e => ?_) _
  cases e with
  | none => simp
  | some x =>
    simp only [Option.map_some]
    split
    · simp
    · rename_i hne
      simpa using fun h1 h2 => absurd h2 (by simpa [h1] using hne)

end

/-! ### A lasting phase (R222, R238) -/

section
variable (c : Core)

theorem chiselPhase_other {n k : Nat} (cause : Nat) (hk : k < 4) (hne : k ≠ n) :
    (chiselPhase c n cause).gdr.ph[k] = c.gdr.ph[k] := by
  simp [chiselPhase, chiselSel, hne]

/-- The controller with a phase that still works in Chisel Off. -/
def Core.phaseLeft (c : Core) (n : Nat) : Core :=
  let st := (vget c.gdr.ph n {}).st
  if st == .off || st == .probe || st == .chisel1 || st == .chisel2 then c else chiselPhase c n 4

theorem phaseLeft_other {n k : Nat} (hk : k < 4) (hne : k ≠ n) : (c.phaseLeft n).gdr.ph[k] = c.gdr.ph[k] := by
  unfold Core.phaseLeft
  dsimp only
  split
  · rfl
  · exact chiselPhase_other c 4 hk hne

/-- The controller with a phase isolated, which may leave the stage without a phase. -/
def Core.phaseIsolated (c : Core) (n : Nat) : Core :=
  { c with gdr := { c.gdr with
    reOffset := true
    ph := vupd c.gdr.ph n fun p => { p with iso := true, st := if p.st == .probe then .off else p.st } } }

/-- The stage stopped where no phase is left. -/
def Core.stopsEmpty (c : Core) : Core := if nPresent c = 0 then { c with gdr := { c.gdr with st := .stopped } } else c

theorem isolatePhase_eq (n : Nat) : isolatePhase c n = ((c.phaseLeft n).phaseIsolated n).stopsEmpty := rfl

theorem stopsEmpty_gdr : c.stopsEmpty.gdr.ph = c.gdr.ph ∧ c.stopsEmpty.gdr.reOffset = c.gdr.reOffset := by
  unfold Core.stopsEmpty
  split <;> exact ⟨rfl, rfl⟩

/-- Isolating a phase isolates it alone, and asks for new offsets. -/
theorem isolatePhase_leaves (n : Fin 4) : (isolatePhase c n.val).gdr.ph[n].iso = true ∧
    (isolatePhase c n.val).gdr.reOffset = true ∧ ∀ k : Fin 4, k ≠ n → (isolatePhase c n.val).gdr.ph[k] = c.gdr.ph[k] := by
  obtain ⟨hph, hoffset⟩ := stopsEmpty_gdr ((c.phaseLeft n.val).phaseIsolated n.val)
  rw [isolatePhase_eq, hph]
  refine ⟨congrArg PhaseG.iso (getElem_vupd_self _ _ _ _), hoffset, fun k hk => ?_⟩
  have hne : k.val ≠ n.val := fun h => hk (Fin.ext h)
  exact (getElem_vupd_ne _ _ _ _ _ hne).trans (phaseLeft_other c k.isLt hne)

end

/-! ### HOLD_OFF_EXPIRY (R291) -/

section
variable (c : Core)

theorem gatesFree_eq : ∃ path lsw, path.held = false ∧ gatesFree c = { c with path := path, lsw := lsw } := by
  unfold gatesFree
  dsimp only
  split
  · rw [batfetFull_eq]
    exact ⟨_, _, rfl, rfl⟩
  · exact ⟨_, _, rfl, rfl⟩

/-- The direction of a Parked stage is the path's to choose; nothing else of it changes. -/
theorem takeDirection_gdr : ∃ r, (takeDirection c).gdr = { c.gdr with reverse := r } := by
  unfold takeDirection
  split
  · exact ⟨c.gdr.reverse, rfl⟩
  · exact ⟨_, rfl⟩

variable {c}

/-- The controller at the full start of its stage, ahead of the precharge. -/
def Core.starts (c : Core) : Core :=
  let c := endTransientA (loopRestart c)
  { c with gdr := { c.gdr with st := .parked, starting := true, parkAsk := false } }

theorem stageStart_of_mayStart (hmay : stageMayStart c = true) :
    stageStart c true = takeDirection (prechargeBegin c.starts (phasePresent c) true) := by
  rw [stageStart, hmay]
  rfl

/-- A full start of the stage begins with the precharge of every present phase (R230). -/
theorem stageStart_full (hmay : stageMayStart c = true) : (stageStart c true).gdr.st = .parked ∧
    (stageStart c true).gdr.holdOff = c.gdr.holdOff ∧ (stageStart c true).gdr.starting = true ∧
      ∀ n : Fin 4, phasePresent c n.val = true → (stageStart c true).gdr.ph[n].st = .precharge := by
  obtain ⟨r, hr⟩ := takeDirection_gdr (prechargeBegin c.starts (phasePresent c) true)
  rw [stageStart_of_mayStart hmay, hr]
  exact ⟨rfl, rfl, rfl, fun n hn => by simp [prechargeBegin, hn]⟩

/-- The stage restarts with its gates free. -/
theorem stageRestart_of_mayStart (hmay : stageMayStart c = true) : (stageRestart c).gdr.st = .parked ∧
    (stageRestart c).gdr.holdOff = c.gdr.holdOff ∧ (stageRestart c).gdr.starting = true ∧
      (stageRestart c).path.held = false ∧
      ∀ n : Fin 4, phasePresent c n.val = true → (stageRestart c).gdr.ph[n].st = .precharge := by
  obtain ⟨path, lsw, hheld, hfree⟩ := gatesFree_eq c
  obtain ⟨hst, hoff, hstarting, hph⟩ := stageStart_full (c := { c with path := path, lsw := lsw }) hmay
  rw [stageRestart, hfree, stageStart_path]
  exact ⟨hst, hoff, hstarting, hheld, hph⟩

end

/-- The controller with its hold-off over. -/
def Core.heldOff (c : Core) : Core := { c with gdr := { c.gdr with holdOff := false } }

theorem exec_holdOffExpiry {s : State} (hrun : s.core.life.st = .run) (hhold : s.core.gdr.holdOff = true) :
    exec .holdOffExpiry s =
      .next { s with core := if restartDue s.core.heldOff then stageRestart s.core.heldOff else s.core.heldOff } := by
  have hkept : (if restartDue s.core.heldOff then stageRestart s.core.heldOff else s.core.heldOff).kept = s.core.kept := by
    split
    · exact stageRestart_kept _
    · rfl
  show execHoldOffExpiry s = _
  refine onCoreIf_of_kept ?_ rfl hkept
  rw [(inRun_iff _).2 hrun, hhold]
  rfl

end Sys2Proof.Machine
end

section
/-! PROOFS. The rotation: the instances it tests, its failures and what the scrub finds (chapter 11, Table 11-6). -/

namespace Sys2Proof.Machine

/-! ### A failed item's block out of service -/

theorem withdrawGrant_flt (c : Core) (a : Nat) (k : Column) : (withdrawGrant c a k).flt = c.flt := by
  unfold withdrawGrant
  dsimp only
  generalize (_ || _ : Bool) = tried
  cases tried <;> rfl

theorem lowerAll_flt (as : List Nat) (c : Core) : (lowerAll c as).flt = c.flt := by
  induction as generalizing c with
  | nil => rfl
  | cons a as ih =>
    refine (ih _).trans ?_
    rw [book_flt, withdrawGrant_flt, book_flt, withdrawGrant_flt]

/-- What takes a block out of service without a reset leaves of the rotation. -/
structure Rotates (c d : Core) : Prop where
  kept : d.kept = c.kept
  rotInst : d.flt.rotInst = c.flt.rotInst

theorem Rotates.refl (c : Core) : Rotates c c := ⟨rfl, rfl⟩

theorem classInForce_of_kept {c d : Core} (h : d.kept = c.kept) (code : BitVec 16) (row : FCls) :
    classInForce d code row = classInForce c code row := by
  have hmq : d.mq = c.mq := congrArg Kept.mq h
  unfold classInForce Core.maq
  rw [hmq]

section
variable {c : Core}

theorem rotates_isolatePort (p : Nat) (hn : noResetRaised c) : Rotates c (isolatePort c p) := by
  have hkept : (updPlb (lowerAll c (portAccts c p)) p fun g =>
      { g with st := .isolated, byConf := true, queue := [], await := none }).kept = c.kept := lowerAll_kept c _
  have hn' := noResetRaised_of_kept hkept hn
  refine ⟨(fault_kept _ _ (not_raises_of_noResetRaised hn') (by decide)).trans hkept, ?_⟩
  refine (faultWith_rotInst _ _ _ _ _ _ _ _ (classInForce_ne_d _ hn' (by decide))).trans ?_
  exact congrArg FltG.rotInst (lowerAll_flt _ c)

/-- Only a port's isolation raises a fault of its own. -/
theorem rotates_rotOut (x : Nat × BitVec 8) (hn : x.1 ≠ 10 ∨ noResetRaised c) : Rotates c (rotOut c x) := by
  obtain ⟨k, inst⟩ := x
  unfold rotOut
  split
  case h_4 =>
    split
    · exact rotates_isolatePort _ (hn.resolve_left (not_not_intro ‹_›))
    · exact .refl c
  case h_1 => exact ⟨rfl, rfl⟩
  case h_5 => exact .refl c
  all_goals split <;> exact ⟨rfl, rfl⟩

/-! ### A failed item (R298) -/

/-- The controller with the block of a failed item of class C out of service, and the item noted with its latch. -/
def Core.itemFailed (c : Core) (item : Nat) (inst : BitVec 8) : Core :=
  let d := if rotationClass item inst == .c then rotOut c (item, inst) else c
  { d with flt := { d.flt with rotBad := (c.flt.rotBad.filter fun x => x != (item, inst)) ++ [(item, inst)] } }

theorem rotationFails_eq (item : Nat) (inst : BitVec 8) : rotationFails c item inst =
    faultWith (c.itemFailed item inst) 0x1805 (rotLatch item inst) (rotationClass item inst) .pending true 9 0 := rfl

variable {item : Nat} {inst : BitVec 8}

theorem rotates_itemFailed (hn : item ≠ 10 ∨ noResetRaised c) : Rotates c (c.itemFailed item inst) := by
  unfold Core.itemFailed
  dsimp only
  split
  · obtain ⟨hkept, hrot⟩ := rotates_rotOut (item, inst) hn
    exact ⟨hkept, hrot⟩
  · exact ⟨rfl, rfl⟩

/-- A failed item below class D stands latched and counts as tested. -/
theorem rotationFails_latches (hn : item ≠ 10 ∨ noResetRaised c)
    (h : classInForce c 0x1805 (rotationClass item inst) ≠ .d) :
    Rotates c (rotationFails c item inst) ∧ latched (rotationFails c item inst) 0x1805 (rotLatch item inst) := by
  obtain ⟨hkept, hrot⟩ := rotates_itemFailed (inst := inst) hn
  rw [← classInForce_of_kept hkept] at h
  have hreact := (reacted_faultWith _ 0x1805 (rotLatch item inst) _ .pending true 9 0 h).1
  exact ⟨⟨hreact.kept.trans hkept, (faultWith_rotInst _ _ _ _ _ _ _ _ h).trans hrot⟩, latched_faultWith _ _ _ _ _ _ _ _ h⟩

/-- A failed item of class D resets; so may the isolation of its port before it. -/
theorem rotationFails_resets (hrun : c.life.st = .run) (h : classInForce c 0x1805 (rotationClass item inst) = .d) :
    (rotationFails c item inst).life.st = .reset := by
  have hgoes : Goes true c.kept (c.itemFailed item inst).kept := by
    unfold Core.itemFailed
    dsimp only
    split
    · exact rotOut_goes (item, inst) (.inl rfl)
    · exact .inl rfl
  rw [rotationFails_eq]
  rcases hgoes with hkept | ⟨-, hreset, -⟩
  · have hst : (c.itemFailed item inst).life.st = .run := (congrArg Kept.st hkept).trans hrun
    exact (faultWith_d _ _ _ _ _ ((classInForce_of_kept hkept _ _).trans h) hst).1
  · rcases faultWith_goes (b := true) 0x1805 (rotLatch item inst) (rotationClass item inst) .pending true 9 0
      (c := c.itemFailed item inst) (.inl rfl) (.inl rfl) with hkept | ⟨-, hst, -⟩
    · exact (congrArg Kept.st hkept).trans hreset
    · exact hst

/-! ### What the scrub finds (R297, Table 11-7) -/

/-- A word of the mirrored bank is of class C, and its mirror serves. -/
theorem memoryError_latches (hn : noResetRaised c) : (memoryError c 1).kept = c.kept ∧ latched (memoryError c 1) 0x1804 1 :=
  ⟨faultWith_kept _ _ _ _ _ _ _ (not_raises_of_noResetRaised hn) (by decide),
    latched_faultWith _ _ _ _ _ _ _ _ (classInForce_ne_d _ hn (by decide))⟩

theorem memoryError_resets {b : BitVec 8} (hrun : c.life.st = .run) (hb : b ≠ 1) : (memoryError c b).life.st = .reset := by
  rw [memoryError, beq_false_of_ne hb]
  exact (faultWith_d _ _ _ _ _ (classInForce_d c _) hrun).1

end

/-! ### ROTATION_ITEM -/

/-- The controller with an item run on one block, and its effect on the block. -/
def Core.rotated (c : Core) (item : Fin 10) (inst : BitVec 8) : Core :=
  rotationEffect (rotationRun c item inst) (item.val + 1) inst

theorem rotated_kept (c : Core) (item : Fin 10) (inst : BitVec 8) : (c.rotated item inst).kept = c.kept := by
  rw [Core.rotated, rotationEffect_kept, rotationRun_kept]

/-- Running an item moves the parked gates of its phase or the injected channel, and nothing else of the controller. -/
theorem rotationEffect_eq (c : Core) (item : Nat) (inst : BitVec 8) : ∃ inject sw, rotationEffect c item inst =
    { c with ldg := { c.ldg with inject := inject }, gdr := { c.gdr with sw := sw } } := by
  unfold rotationEffect
  split
  · exact ⟨c.ldg.inject, _, rfl⟩
  · exact ⟨_, c.gdr.sw, rfl⟩
  · exact ⟨c.ldg.inject, c.gdr.sw, rfl⟩

theorem rotated_flt (c : Core) (item : Fin 10) (inst : BitVec 8) :
    (c.rotated item inst).flt = (rotationRun c item inst).flt := by
  obtain ⟨inject, sw, h⟩ := rotationEffect_eq (rotationRun c item inst) (item.val + 1) inst
  rw [Core.rotated, h]

theorem mem_rotInst_rotated (c : Core) (item : Fin 10) (inst : BitVec 8) :
    (item.val + 1, inst) ∈ (c.rotated item inst).flt.rotInst := by
  rw [rotated_flt]
  exact List.mem_cons_self

/-- With every block tested the item is done, and no longer overdue (R297, R303). -/
theorem rotationRun_of_all {c : Core} {item : Fin 10} {inst : BitVec 8}
    (h : ∀ i ∈ rotInstances c (item.val + 1), i = inst ∨ (item.val + 1, i) ∈ c.flt.rotInst) :
    (rotationRun c item inst).flt.rotDone = putBit c.flt.rotDone item.val true ∧
      (rotationRun c item inst).flt.overdue = putBit c.flt.overdue item.val false := by
  have hall : ((rotInstances c (item.val + 1)).all fun i =>
      ((item.val + 1, inst) :: c.flt.rotInst.filter fun x => x != (item.val + 1, inst)).contains (item.val + 1, i)) = true := by
    rw [List.all_eq_true]
    intro i hi
    rw [List.contains_iff_mem, List.mem_cons, List.mem_filter, Prod.mk.injEq, bne_iff_ne, ne_eq, Prod.mk.injEq]
    by_cases hinst : i = inst
    · exact .inl ⟨rfl, hinst⟩
    · exact .inr ⟨(h i hi).resolve_left hinst, fun h => hinst h.2⟩
  exact ⟨if_pos hall, if_pos hall⟩

section
variable {s : State} {item : Fin 10} {inst : BitVec 8} (hrun : s.core.life.st = .run)
  (hprobes : s.core.maq.fltr.probes = true)
include hrun hprobes

theorem exec_rotationItem (pass : Bool) (scrub : Option (BitVec 8)) : exec (.rotationItem item inst pass scrub) s =
    onCore s fun c =>
      if rotationSkips c (item.val + 1) inst then rotationRun c item inst
      else if rotationWaits c (item.val + 1) inst then c
      else
        let c := match scrub with
          | some b => if item.val + 1 = 5 then memoryError (c.rotated item inst) b else c.rotated item inst
          | none => c.rotated item inst
        if pass then c else rotationFails c (item.val + 1) inst := by
  have hguard : (inRun s.core && s.core.maq.fltr.probes) = true := by rw [(inRun_iff _).2 hrun, hprobes]; rfl
  show execRotationItem item inst pass scrub s = _
  exact onCoreIf_pos s _ _ hguard

theorem exec_rotationItem_skips (hskip : rotationSkips s.core (item.val + 1) inst = true) (pass : Bool)
    (scrub : Option (BitVec 8)) :
    exec (.rotationItem item inst pass scrub) s = .next { s with core := rotationRun s.core item inst } := by
  rw [exec_rotationItem hrun hprobes]
  exact onCore_of_kept (if_pos hskip) rfl

variable (hskip : rotationSkips s.core (item.val + 1) inst = false)
include hskip

theorem exec_rotationItem_waits (hwait : rotationWaits s.core (item.val + 1) inst = true) (pass : Bool)
    (scrub : Option (BitVec 8)) : exec (.rotationItem item inst pass scrub) s = .next s := by
  rw [exec_rotationItem hrun hprobes]
  exact onCore_of_kept (by rw [hskip, hwait]; rfl) rfl

variable (hwait : rotationWaits s.core (item.val + 1) inst = false)
include hwait

theorem exec_rotationItem_passes :
    exec (.rotationItem item inst true none) s = .next { s with core := s.core.rotated item inst } := by
  rw [exec_rotationItem hrun hprobes]
  exact onCore_of_kept (by rw [hskip, hwait]; rfl) (rotated_kept _ _ _)

theorem exec_rotationItem_fails : exec (.rotationItem item inst false none) s = .next { s with
    core := afterReset s.core (rotationFails (s.core.rotated item inst) (item.val + 1) inst) } := by
  rw [exec_rotationItem hrun hprobes, onCore_next, hskip, hwait]
  rfl

theorem exec_rotationItem_scrub (hitem : item.val = 4) (b : BitVec 8) : exec (.rotationItem item inst true (some b)) s =
    .next { s with core := afterReset s.core (memoryError (s.core.rotated item inst) b) } := by
  rw [exec_rotationItem hrun hprobes, onCore_next, hskip, hwait]
  dsimp only
  rw [hitem]
  rfl

/-- A failed item below class D stands latched, and its block counts as tested. -/
theorem exec_rotationItem_latches (hcls : classInForce s.core 0x1805 (rotationClass (item.val + 1) inst) ≠ .d)
    (hn : item.val ≠ 9 ∨ noResetRaised s.core) : ∃ t, exec (.rotationItem item inst false none) s = .next t ∧
      (item.val + 1, inst) ∈ t.core.flt.rotInst ∧ latched t.core 0x1805 (rotLatch (item.val + 1) inst) := by
  have hkept := rotated_kept s.core item inst
  rw [← classInForce_of_kept hkept] at hcls
  have hn' : item.val + 1 ≠ 10 ∨ noResetRaised (s.core.rotated item inst) :=
    hn.imp (fun h => by omega) (noResetRaised_of_kept hkept)
  obtain ⟨hrot, hlatch⟩ := rotationFails_latches hn' hcls
  refine ⟨_, exec_rotationItem_fails hrun hprobes hskip hwait, ?_⟩
  have hsame := afterReset_of_st_eq (congrArg Kept.st (hrot.kept.trans hkept))
  dsimp only
  rw [hsame, hrot.rotInst]
  exact ⟨mem_rotInst_rotated _ _ _, hlatch⟩

/-- A failed item of class D in force resets. -/
theorem exec_rotationItem_resets (hcls : classInForce s.core 0x1805 (rotationClass (item.val + 1) inst) = .d) :
    ∃ t, exec (.rotationItem item inst false none) s = .next t ∧ t.core.life.st = .reset := by
  have hkept := rotated_kept s.core item inst
  have hst : (s.core.rotated item inst).life.st = .run := (congrArg Kept.st hkept).trans hrun
  exact ⟨_, exec_rotationItem_fails hrun hprobes hskip hwait, (afterReset_st _ _).trans
    (rotationFails_resets hst ((classInForce_of_kept hkept _ _).trans hcls))⟩

end

/-! ### RECORD_COALESCE_EXPIRY (R290) -/

/-- The controller whose coalescing of a record is over, or begins again. -/
def Core.coalesced (c : Core) (code : BitVec 16) (inst : BitVec 8) (again : List (BitVec 16 × BitVec 8 × Nat)) : Core :=
  { c with flt := { c.flt with coal := (c.flt.coal.filter fun x => !(x.1 == code && x.2.1 == inst)) ++ again } }

/-- The further occurrences of a record queued as one, where there are any. -/
def Core.coalesceOver (c : Core) (code : BitVec 16) (inst : BitVec 8) (n : Nat) : Core :=
  if n = 0 then c.coalesced code inst []
  else queueFree (c.coalesced code inst [(code, inst, 0)]) .fault
    (latchInfo (c.coalesced code inst [(code, inst, 0)]) code inst n)

theorem exec_recordCoalesceExpiry {s : State} {code : BitVec 16} {inst : BitVec 8} {n : Nat}
    (h : s.core.flt.coal.find? (fun x => x.1 == code && x.2.1 == inst) = some (code, inst, n)) :
    exec (.recordCoalesceExpiry code inst) s = .next { s with core := s.core.coalesceOver code inst n } := by
  have hcmd : exec (.recordCoalesceExpiry code inst) s = execRecordCoalesceExpiry code inst s := rfl
  have hkept : (s.core.coalesceOver code inst n).kept = s.core.kept := by
    unfold Core.coalesceOver
    split
    · rfl
    · rw [queueFree_eq]
      rfl
  rw [hcmd]
  refine onCore_of_kept ?_ hkept
  rw [h]
  by_cases h0 : n = 0 <;> simp [h0, Core.coalesced, Core.coalesceOver]

end Sys2Proof.Machine
end

section
/-! PROOFS. The results of Probes, one lemma for each kind of error, and the obligation on Probes (chapter 11). -/

namespace Sys2Proof.Machine

section
variable {s : State}

/-! ### A missing measurement -/

section
variable {k : Fin 8} {x : ProbeQ} (hx : x ∈ s.core.flt.q) (hcode : x.code = 0x0803) (hinst : x.inst = BitVec.ofNat 8 k.val)
  (hshare : sharing s.core 0x0803 x.inst = [])
include hx hcode hshare

theorem exec_probeResult_measured (hrun : x.running = true) (sec : Nat) :
    exec (.probeResult 0x0803 x.inst true sec) s = .next { s with core := dequeue s.core 0x0803 x.inst } :=
  exec_probeResult hshare ⟨x, hx, hcode, rfl, hrun⟩ rfl rfl

variable (hn : noResetRaised s.core)
include hn hinst

theorem exec_probeResult_missing (hrun : x.running = true) (sec : Nat) :
    ∃ t, exec (.probeResult 0x0803 x.inst false sec) s = .next t ∧ MeasurementLost s.core t.core k x.inst := by
  have hlost := measurementLost_faultWith k ((rowClass 0x0803).getD .b) .lasting hn (by decide)
  rw [← hinst] at hlost
  exact ⟨_, exec_probeResult hshare ⟨x, hx, hcode, rfl, hrun⟩ rfl hlost.kept, hlost⟩

theorem exec_probeTimeout_missing :
    ∃ t, exec (.probeTimeout 0x0803 x.inst) s = .next t ∧ MeasurementLost s.core t.core k x.inst := by
  have hlost := measurementLost_faultWith k .c .notRun hn (by decide)
  rw [← hinst] at hlost
  exact ⟨_, exec_probeTimeout hshare ⟨x, hx, hcode, rfl⟩ rfl hlost.kept, hlost⟩

end

/-! ### An excess pack current that was transient (0x0405) -/

theorem probeEnded_transient {c : Core} {code : BitVec 16} {inst : BitVec 8} {sec : Nat} (hown : code ≠ 0x0803 ∧ code ≠ 0x0801)
    (hfew : (addTransient c code inst sec).2 = false) : (probeEnded c code inst true sec).1 =
      classify (addTransient c code inst sec).1 code inst false .transient := by
  rw [probeEnded, beq_false_of_ne hown.1, beq_false_of_ne hown.2]
  dsimp only
  rw [hfew]
  rfl

theorem exec_probeResult_transient {sec : Nat} (hq : ∃ x ∈ s.core.flt.q, x.code = 0x0405 ∧ x.inst = 0 ∧ x.running = true)
    (hshare : sharing s.core 0x0405 0 = []) (hfew : (addTransient (dequeue s.core 0x0405 0) 0x0405 0 sec).2 = false) :
    ∃ t, exec (.probeResult 0x0405 0 true sec) s = .next t ∧ faultActive t.core 0x0405 0 = false ∧
      t.core.chg = s.core.chg ∧ t.core.flt.q = (dequeue s.core 0x0405 0).flt.q := by
  have hact : ∀ c : Core, transientAct c 0x0405 0 = clearActive c 0x0405 0 := fun _ => rfl
  have hended := probeEnded_transient (by decide) hfew
  obtain ⟨hkept, hchg, hflt⟩ : (addTransient (dequeue s.core 0x0405 0) 0x0405 0 sec).1.kept = s.core.kept ∧
      (addTransient (dequeue s.core 0x0405 0) 0x0405 0 sec).1.chg = s.core.chg ∧
      (addTransient (dequeue s.core 0x0405 0) 0x0405 0 sec).1.flt.q = (dequeue s.core 0x0405 0).flt.q := ⟨rfl, rfl, rfl⟩
  generalize (addTransient (dequeue s.core 0x0405 0) 0x0405 0 sec).1 = c at hended hkept hchg hflt
  obtain ⟨hold, bar, hclass⟩ := classify_eq c 0x0405 0 (lasting := false) (st := .transient) (fun h => absurd h (by decide))
    (by decide) (hact _)
  exact ⟨_, exec_probeResult hshare hq (hended.trans hclass) hkept, faultActive_clearActive _ 0x0405 0, hchg, hflt⟩

/-! ### A lasting phase and a lasting load switch channel -/

section
variable {code : BitVec 16} {inst : BitVec 8} {sec : Nat}
  (hq : ∃ x ∈ s.core.flt.q, x.code = code ∧ x.inst = inst ∧ x.running = true) (hshare : sharing s.core code inst = [])
include hq hshare

/-- A failed Probe of any other error does what the row gives for a lasting one, and the class's own step. -/
theorem exec_probeResult_lasting (hown : code ≠ 0x0803 ∧ code ≠ 0x0801 ∧ code ≠ 0x1805)
    (hraised : code ≠ 0x0405 ∧ code ≠ 0x1203) {d : Core}
    (hd : lastingAct (updLatch (dequeue s.core code inst) code inst fun x => { x with probe := .lasting }) code inst = d)
    (hkept : d.kept = s.core.kept) : ∃ hold bar, exec (.probeResult code inst false sec) s =
      .next { s with core := { d with gdr := { d.gdr with holdOff := hold, barred := bar } } } := by
  obtain ⟨h3, h1, h5⟩ := hown
  obtain ⟨hold, bar, hclass⟩ := classify_eq (dequeue s.core code inst) code inst (lasting := true) (st := .lasting)
    (fun _ => hraised) h5 hd
  refine ⟨hold, bar, exec_probeResult hshare hq ?_ hkept⟩
  rw [← hclass, probeEnded, beq_false_of_ne h3, beq_false_of_ne h1]
  rfl

end

theorem exec_probeResult_phase (n : Fin 4) {sec : Nat}
    (hq : ∃ x ∈ s.core.flt.q, x.code = 0x0A04 ∧ x.inst = BitVec.ofNat 8 (n.val + 1) ∧ x.running = true)
    (hshare : sharing s.core 0x0A04 (BitVec.ofNat 8 (n.val + 1)) = []) :
    ∃ t, exec (.probeResult 0x0A04 (BitVec.ofNat 8 (n.val + 1)) false sec) s = .next t ∧
      t.core.gdr.ph[n].iso = true ∧ t.core.gdr.reOffset = true ∧
      ∀ k : Fin 4, k ≠ n → t.core.gdr.ph[k] = s.core.gdr.ph[k] := by
  have h8 : n.val < 8 := by omega
  have hact : ∀ c : Core, lastingAct c 0x0A04 (BitVec.ofNat 8 (n.val + 1)) = isolatePhase c n.val := fun c => by
    have hne : (BitVec.ofNat 8 (n.val + 1) == 0) = false := by simpa using ofNat_succ_ne_zero h8
    show (if _ then _ else _ : Core) = _
    rw [hne, instIx_ofNat h8]
    rfl
  have hleaves := isolatePhase_leaves (updLatch (dequeue s.core 0x0A04 (BitVec.ofNat 8 (n.val + 1))) 0x0A04
    (BitVec.ofNat 8 (n.val + 1)) fun x => { x with probe := .lasting }) n
  have hkept := isolatePhase_kept (updLatch (dequeue s.core 0x0A04 (BitVec.ofNat 8 (n.val + 1))) 0x0A04
    (BitVec.ofNat 8 (n.val + 1)) fun x => { x with probe := .lasting }) n.val
  rw [← hact] at hleaves hkept
  obtain ⟨hold, bar, hexec⟩ := exec_probeResult_lasting (sec := sec) hq hshare (by decide) (by decide) rfl hkept
  exact ⟨_, hexec, hleaves⟩

theorem exec_probeResult_loadSwitch (n : Fin 8) {sec : Nat}
    (hq : ∃ x ∈ s.core.flt.q, x.code = 0x0E01 ∧ x.inst = BitVec.ofNat 8 (n.val + 1) ∧ x.running = true)
    (hshare : sharing s.core 0x0E01 (BitVec.ofNat 8 (n.val + 1)) = []) :
    ∃ t, exec (.probeResult 0x0E01 (BitVec.ofNat 8 (n.val + 1)) false sec) s = .next t ∧
      t.core.lsw.ch[n] = { s.core.lsw.ch[n] with iso := true } := by
  have hact : ∀ c : Core, lastingAct c 0x0E01 (BitVec.ofNat 8 (n.val + 1)) =
      updLsw c n.val fun x => { x with iso := true } := fun c => by
    show updLsw c (instIx _) _ = _
    rw [instIx_ofNat n.isLt]
  obtain ⟨hold, bar, hexec⟩ := exec_probeResult_lasting (sec := sec) hq hshare (by decide) (by decide) (hact _) rfl
  exact ⟨_, hexec, getElem_vupd_self _ _ _ _⟩

end

end Sys2Proof.Machine

open Sys2Proof Sys2Proof.Machine

/-- Settles O51: each command by its equation, a result by what the row and its class do (`classify_eq`), and a failed item of
the rotation by `rotationFails_latches` or `rotationFails_resets`. -/
theorem probesClassifyFaults : Obligations.ProbesClassifyFaults := by
  unfold Obligations.ProbesClassifyFaults
  intro s hrun
  refine ⟨fun n hfree hsole hoff => ?_, fun k sec x hx hcode hinst hshare => ⟨?_, ?_, ?_⟩, fun sec hq hshare hfew => ?_,
    fun n sec hq hshare => exec_probeResult_phase n hq hshare, fun n sec hq hshare => exec_probeResult_loadSwitch n hq hshare,
    fun hhold => ⟨fun hdue => ?_, fun hdue hmay => ?_⟩, fun item inst hprobes => ⟨?_, ?_, fun hskip hwait => ⟨?_, ?_, ?_, ?_⟩⟩,
    fun hprobes => ?_, fun code inst n hfind => ⟨fun h0 => ?_, fun h0 => ?_⟩⟩
  · refine ⟨_, exec_probeStart_phase (by omega) (by decide) hsole hrun hfree, rfl, ?_, fun k hk => ?_,
      fun x hx h1 h2 => Core.probing_running _ _ _ hx h1 h2, List.length_map _⟩
    · have hprobed : s.core.gdr.ph[n].probed.st = .probe := by rw [PhaseG.probed, hoff]; rfl
      exact (congrArg PhaseG.st (getElem_vupd_self _ _ _ _)).trans hprobed
    · exact getElem_vupd_ne _ _ _ _ _ fun h => hk (Fin.ext h)
  · exact fun hx' => exec_probeResult_measured hx hcode hshare hx' sec
  · intro hx' hn
    obtain ⟨t, hexec, hlost⟩ := exec_probeResult_missing hx hcode hinst hshare hn hx' sec
    exact ⟨t, hexec, hlost.iso, hlost.restarted, hlost.wins, hlost.latch⟩
  · intro hn
    obtain ⟨t, hexec, hlost⟩ := exec_probeTimeout_missing hx hcode hinst hshare hn
    exact ⟨t, hexec, hlost.iso, hlost.latch⟩
  · obtain ⟨t, hexec, hactive, hchg, hq'⟩ := exec_probeResult_transient hq hshare hfew
    refine ⟨t, hexec, hactive, hchg, fun x hx => ?_⟩
    rw [hq'] at hx
    have hnot := (List.mem_filter.1 hx).2
    rw [Bool.not_eq_true', Bool.and_eq_false_iff] at hnot
    exact hnot.imp ne_of_beq_false ne_of_beq_false
  · have hnot : restartDue s.core.heldOff = false := hdue
    rw [exec_holdOffExpiry hrun hhold, hnot]
    rfl
  · have hstart : restartDue s.core.heldOff = true := hdue
    rw [exec_holdOffExpiry hrun hhold, hstart]
    obtain ⟨hst, hoff, hstarting, hheld, hph⟩ := stageRestart_of_mayStart (c := s.core.heldOff) hmay
    exact ⟨_, rfl, hst, hoff, hstarting, hheld, hph⟩
  · exact fun hskip hwait pass scrub => exec_rotationItem_waits hrun hprobes hskip hwait pass scrub
  · exact fun hskip pass scrub => exec_rotationItem_skips hrun hprobes hskip pass scrub
  · obtain ⟨inject, sw, heff⟩ := rotationEffect_eq (rotationRun s.core item inst) (item.val + 1) inst
    refine ⟨_, exec_rotationItem_passes hrun hprobes hskip hwait, ?_, fun hall => ?_⟩
    · rw [Core.rotated, heff]
      rfl
    · rw [rotated_flt]
      exact rotationRun_of_all hall
  · intro hcls hn
    obtain ⟨t, hexec, hmem, hlatch⟩ := exec_rotationItem_latches hrun hprobes hskip hwait hcls hn
    refine ⟨t, hexec, hmem, ?_⟩
    simpa [rotLatch] using hlatch
  · exact exec_rotationItem_resets hrun hprobes hskip hwait
  · intro hitem hn b
    have hkept := rotated_kept s.core item inst
    have hst : (s.core.rotated item inst).life.st = .run := (congrArg Kept.st hkept).trans hrun
    refine ⟨_, exec_rotationItem_scrub hrun hprobes hskip hwait hitem b, fun hb => ?_, fun hb => ?_⟩
    · obtain ⟨hsame, hlatch⟩ := memoryError_latches (noResetRaised_of_kept hkept hn)
      subst hb
      dsimp only
      rw [afterReset_of_st_eq (congrArg Kept.st (hsame.trans hkept))]
      exact hlatch
    · exact (afterReset_st _ _).trans (memoryError_resets hst hb)
  · show execRotationPeriodEnd s = _
    exact onCoreIf_of_kept (by rw [(inRun_iff _).2 hrun, hprobes]; rfl) rfl rfl
  · rw [exec_recordCoalesceExpiry hfind, Core.coalesceOver, if_pos h0, Core.coalesced, List.append_nil]
  · refine ⟨_, exec_recordCoalesceExpiry hfind, ?_, ?_⟩
    all_goals rw [Core.coalesceOver, if_neg h0, queueFree_eq]
    · exact List.mem_append_right _ List.mem_cons_self
    · rfl
end

section
/-! PROOFS. One period of a switch, of a leg and of a phase (chapter 08, R215–R219). -/

namespace Sys2Proof.Machine

/-! ### A switch -/

/-- The switch `q` is what `s` becomes in a period of `per` counts in which it carries out a command (R215–R218). -/
structure SwG.Carried (s q : SwG) (per : Nat) (a : SwCmd) : Prop where
  commanded : vget q.cnt 0 0 = vget s.cnt 0 0 + (if a.kind = .pulse then (a.w : Int) else 0)
  cmd : q.cmd = a
  emitted : q.emitted ≤ per
  residue : q.residue.natAbs ≤ per
  on : q.on = true → a.kind = .on

section
variable (p : PeriodIn) (s : SwG)

theorem PeriodIn.room_le (off : Nat) : p.room off ≤ p.per := by
  unfold room
  split
  · exact Nat.zero_le _
  · exact Nat.sub_le _ _

/-- No pulse goes past the end of its period (R218). -/
theorem residueMerge_emitted (r : Int) : (residueMerge p r).2.1 ≤ p.per := by
  unfold residueMerge
  split
  · dsimp only
    split
    · exact Nat.le_trans (Nat.min_le_right _ _) (p.room_le _)
    · exact Nat.zero_le _
  · exact Nat.zero_le _

theorem natAbs_residueClamp_le (per : Nat) (v : Int) : (residueClamp per v).natAbs ≤ per := by
  unfold residueClamp
  omega

theorem SwG.cancel_residue : s.cancel.residue = 0 := by
  unfold cancel
  split
  · assumption
  · rfl

theorem SwG.cancel_age : s.cancel.age = 0 := by
  unfold cancel
  split <;> rfl

/-- A cancellation counts neither as a command nor as a pulse (R219, R268). -/
theorem SwG.cancel_leaves : vget s.cancel.cnt 0 0 = vget s.cnt 0 0 ∧ s.cancel.cmd = s.cmd ∧ s.cancel.emitted = s.emitted ∧
    s.cancel.on = s.on := by
  unfold cancel
  split
  · exact ⟨rfl, rfl, rfl, rfl⟩
  · exact ⟨by rw [vget_vupd_ne _ _ _ _ _ (by decide), vget_vupd_ne _ _ _ _ _ (by decide)], rfl, rfl, rfl⟩

variable {p s}

/-- The age limit of a residue keeps what the period has carried out: its forced pulse is no commanded one (R219). -/
theorem carried_residueAge {q : SwG} {a : SwCmd} (h : s.Carried q p.per a) : s.Carried (residueAge p q) p.per a := by
  unfold residueAge
  split
  · exact h
  · split
    · rename_i hpos
      rw [Bool.and_eq_true, decide_eq_true_eq] at hpos
      have hroom : min p.thr (p.room q.lastOff) ≤ p.per := Nat.le_trans (Nat.min_le_right _ _) (p.room_le _)
      have hres := h.residue
      exact { commanded := by
                rw [vget_vupd_ne _ _ _ _ _ (by decide), vget_vupd_ne _ _ _ _ _ (by decide)]
                exact h.commanded
              cmd := h.cmd
              emitted := hroom
              residue := by
                dsimp only
                omega
              on := h.on }
    · obtain ⟨hcnt, hcmd, hemit, hon⟩ := q.cancel_leaves
      exact { commanded := hcnt.trans h.commanded
              cmd := hcmd.trans h.cmd
              emitted := hemit ▸ h.emitted
              residue := by simp [q.cancel_residue]
              on := fun hq => h.on (hon ▸ hq) }

variable (p s)

theorem SwG.period_carries : s.Carried (s.period p) p.per p.cmd := by
  have hemit := residueMerge_emitted p s.residue
  unfold period
  generalize residueMerge p s.residue = m at hemit
  obtain ⟨hit, e, r⟩ := m
  refine carried_residueAge { commanded := ?_, cmd := rfl, emitted := hemit, residue := natAbs_residueClamp_le _ _, on := ?_ }
  · rw [vget_vupd_ne _ _ _ _ _ (by decide), vget_vupd_ne _ _ _ _ _ (by decide), vget_vupd_self _ _ _ _ (by decide)]
  · intro hon
    simp only [Bool.and_eq_true, beq_iff_eq] at hon
    exact hon.1.1

variable {p s}

/-- A switch without a residue that takes no pulse command has none after its period. -/
theorem SwG.period_residue_zero (hcmd : p.cmd.kind ≠ .pulse) (hres : s.residue = 0) (hage : s.age = 0) :
    (s.period p).residue = 0 := by
  have hmerge : residueMerge p s.residue = (false, 0, 0) := by rw [residueMerge, if_neg hcmd, hres]
  have hclamp : residueClamp p.per 0 = 0 := by
    unfold residueClamp
    omega
  unfold period
  rw [hmerge]
  simp [hclamp, residueAge, hage]

end

/-! ### A leg -/

/-- The switch `x` comes out of a period of its leg from `s`, beside some partner; the refresh of the leg's bootstrap and
the openings of its gates are noted with it (R216, R225). -/
def LegIn.Ran (k : LegIn) (s x : SwG) : Prop := ∃ q first from_ refT refDue refW opened,
  x = { k.run s q first from_ with refT := refT, refDue := refDue, refW := refW, opened := opened }

section
variable {k : LegIn}

theorem LegIn.Ran.carries {s x : SwG} (h : k.Ran s x) : s.Carried x k.per s.resolve := by
  obtain ⟨q, first, from_, refT, refDue, refW, opened, rfl⟩ := h
  have hrun : s.Carried (k.run s q first from_) k.per s.resolve := s.period_carries _
  exact ⟨hrun.commanded, hrun.cmd, hrun.emitted, hrun.residue, hrun.on⟩

/-- A switch without commands and without a residue keeps none (R252). -/
theorem LegIn.Ran.residue_zero {s x : SwG} (h : k.Ran s x) (hcmd : s.resolve.kind ≠ .pulse) (hres : s.residue = 0)
    (hage : s.age = 0) : x.residue = 0 := by
  obtain ⟨q, first, from_, refT, refDue, refW, opened, rfl⟩ := h
  exact SwG.period_residue_zero hcmd hres hage

/-- Both switches of a leg run their period, with a refresh of the bootstrap or without. -/
theorem ran_legPeriod (hi lo : SwG) : k.Ran hi (legPeriod k hi lo).1 ∧ k.Ran lo (legPeriod k hi lo).2.1 := by
  unfold legPeriod
  dsimp only
  split
  · exact ⟨⟨lo, true, 0, _, _, _, _, rfl⟩, ⟨hi, false, 0, _, _, _, _, rfl⟩⟩
  · split
    · exact ⟨⟨lo, true, _, _, _, _, _, rfl⟩, ⟨hi, false, _, _, _, _, _, rfl⟩⟩
    · exact ⟨⟨lo, true, 0, _, _, _, _, rfl⟩, ⟨hi, false, 0, _, _, _, _, rfl⟩⟩

end

/-! ### A phase -/

theorem partner_of_even (n : Nat) : partner (4 * n) = 4 * n + 1 := if_pos (by omega)

theorem partner_of_odd (n : Nat) : partner (4 * n + 3) = 4 * n + 2 := if_neg (by omega)

section
variable (c : Core) {n : Nat}

/-- The switches of another phase stand (R216). -/
theorem phasePeriod_sw_other {e : Nat} (he : e < 16) (hne : e / 4 ≠ n) : (phasePeriod c n).gdr.sw[e] = c.gdr.sw[e] := by
  refine (getElem_vmap _ _ _ _).trans ?_
  rw [if_neg (by omega), if_neg (by omega), if_neg (by omega), if_neg (by omega)]

/-- Each switch of the phase runs its period in a leg of the image's period. -/
theorem phasePeriod_sw {e : Nat} (he : e < 16) (hdiv : e / 4 = n) :
    ∃ k : LegIn, k.per = c.maq.stag.period ∧ k.Ran c.gdr.sw[e] (phasePeriod c n).gdr.sw[e] := by
  have hleg : ∀ out, ∃ k : LegIn, k.per = c.maq.stag.period ∧
      k.Ran (vget c.gdr.sw (4 * n + if out then 3 else 0) {}) (legOf c n out).1 ∧
      k.Ran (vget c.gdr.sw (partner (4 * n + if out then 3 else 0)) {}) (legOf c n out).2.1 := fun out =>
    ⟨_, rfl, ran_legPeriod _ _⟩
  have hsw : (phasePeriod c n).gdr.sw[e] = if e = 4 * n then (legOf c n false).1 else if e = 4 * n + 1 then (legOf c n false).2.1
      else if e = 4 * n + 2 then (legOf c n true).2.1 else if e = 4 * n + 3 then (legOf c n true).1 else c.gdr.sw[e] :=
    getElem_vmap _ _ _ _
  have hplace : ∀ {i : Nat}, i = e → vget c.gdr.sw i {} = c.gdr.sw[e] := by
    rintro i rfl
    exact vget_eq_getElem _ _ _ he
  obtain ⟨kin, hinPer, hin, hinLow⟩ := hleg false
  obtain ⟨kout, houtPer, hout, houtLow⟩ := hleg true
  rw [hsw]
  obtain h | h | h | h : e = 4 * n ∨ e = 4 * n + 1 ∨ e = 4 * n + 2 ∨ e = 4 * n + 3 := by omega
  · rw [hplace (by simpa using h.symm)] at hin
    rw [if_pos h]
    exact ⟨kin, hinPer, hin⟩
  · rw [hplace (by simpa [partner_of_even] using h.symm)] at hinLow
    rw [if_neg (by omega), if_pos h]
    exact ⟨kin, hinPer, hinLow⟩
  · rw [hplace (by simpa [partner_of_odd] using h.symm)] at houtLow
    rw [if_neg (by omega), if_neg (by omega), if_pos h]
    exact ⟨kout, houtPer, houtLow⟩
  · rw [hplace (by simpa using h.symm)] at hout
    rw [if_neg (by omega), if_neg (by omega), if_neg (by omega), if_pos h]
    exact ⟨kout, houtPer, hout⟩

end

end Sys2Proof.Machine
end

section
/-! PROOFS. A period of a phase: its switches, its current and the samples of its instant (chapters 08 and 09). -/

namespace Sys2Proof.Machine

/-! ### The samples of an instant (R245, R256) -/

/-- What the samples of an instant keep, whatever has arrived: the count of missing samples is the caller's. -/
structure Sampled (c d : Core) : Prop where
  kept : d.kept = c.kept
  adcMiss : d.loop.adcMiss = c.loop.adcMiss

theorem Sampled.trans {c d e : Core} (h : Sampled c d) (h' : Sampled d e) : Sampled c e :=
  ⟨h'.kept.trans h.kept, h'.adcMiss.trans h.adcMiss⟩

section
variable {c : Core} (smp : LoopSample) (hn : noResetRaised c)
include hn

theorem sampled_loopSample (d : Fin 8) (ph : Nat) : Sampled c (loopSample c d ph smp) := by
  unfold loopSample
  dsimp only
  split
  · exact ⟨rfl, rfl⟩
  · split
    · exact ⟨rfl, rfl⟩
    · split
      · obtain ⟨hkept, hover⟩ := overrun_overran (c := updDesc c d.val fun g => { g with count := 0 }) d hn
        exact ⟨hkept, hover.adcMiss⟩
      · exact ⟨rfl, rfl⟩

theorem sampled_sampleOuter (n : Fin 4) : Sampled c (sampleOuter c n smp) := by
  have hfold : ∀ (l : List (Fin 8)) (d : Core), Sampled c d → Sampled c (l.foldl (fun d k => loopSample d k n.val smp) d) := by
    intro l
    induction l with
    | nil => exact fun d hd => hd
    | cons k l ih => exact fun d hd => ih _ (hd.trans (sampled_loopSample smp (noResetRaised_of_kept hd.kept hn) k _))
  exact hfold _ c ⟨rfl, rfl⟩

theorem sampled_samplePhase (n : Fin 4) : Sampled c (samplePhase c n smp) := by
  unfold samplePhase
  split
  · exact ⟨rfl, rfl⟩
  · exact sampled_loopSample smp hn _ _

end

/-- Every sample of an instant has arrived. -/
def SamplesArrived (smp : LoopSample) : Prop := ∃ vds vsys vcin vstk port iss isp, smp =
  { vds := some vds, vsys := some vsys, vcin := some vcin, vstk := some vstk, port := some port, iss := some iss
    isp := some isp }

theorem arrived_of_missing {smp : LoopSample} (h : missing true smp = 0) : SamplesArrived smp := by
  have hsome : ∀ {α : Type} (o : Option α), b2n o.isNone = 0 → ∃ x, o = some x := by
    intro α o ho
    cases o with
    | none => simp [b2n] at ho
    | some x => exact ⟨x, rfl⟩
  obtain ⟨vds, vsys, vcin, vstk, port, iss, isp⟩ := smp
  simp only [missing, if_true, Nat.add_eq_zero_iff] at h
  obtain ⟨⟨⟨hvds, hvsys⟩, hvcin⟩, ⟨⟨hvstk, hport⟩, hiss⟩, hisp⟩ := h
  obtain ⟨_, rfl⟩ := hsome _ hvds
  obtain ⟨_, rfl⟩ := hsome _ hvsys
  obtain ⟨_, rfl⟩ := hsome _ hvcin
  obtain ⟨_, rfl⟩ := hsome _ hvstk
  obtain ⟨_, rfl⟩ := hsome _ hport
  obtain ⟨_, rfl⟩ := hsome _ hiss
  obtain ⟨_, rfl⟩ := hsome _ hisp
  exact ⟨_, _, _, _, _, _, _, rfl⟩

theorem arrived_vds {smp : LoopSample} (h : SamplesArrived smp) : ∃ uv, smp.vds = some uv := by
  obtain ⟨uv, _, _, _, _, _, _, rfl⟩ := h
  exact ⟨uv, rfl⟩

section
variable {c : Core} {smp : LoopSample} (h : SamplesArrived smp)
include h

/-- With every sample arrived each loop has its inputs (R256). -/
theorem loopInputs_arrived (d ph : Nat) : loopInputs c d ph smp ≠ none := by
  obtain ⟨_, _, _, _, _, _, _, rfl⟩ := h
  unfold loopInputs loopMeas
  dsimp only
  split
  · split <;> nofun
  all_goals nofun

/-- With every sample arrived an instant touches the loop engine alone. -/
theorem loopSample_arrived (d : Fin 8) (ph : Nat) : ∃ l, loopSample c d ph smp = { c with loop := l } := by
  unfold loopSample
  dsimp only
  split
  · exact ⟨_, rfl⟩
  · split
    · exact ⟨_, rfl⟩
    · split
      · rename_i hnone
        exact absurd hnone (loopInputs_arrived h _ _)
      · exact ⟨_, rfl⟩

theorem sampleOuter_arrived (n : Fin 4) : ∃ l, sampleOuter c n smp = { c with loop := l } := by
  have hfold : ∀ (ds : List (Fin 8)) (d : Core), (∃ l, d = { c with loop := l }) →
      ∃ l, ds.foldl (fun d k => loopSample d k n.val smp) d = { c with loop := l } := by
    intro ds
    induction ds with
    | nil => exact fun d hd => hd
    | cons k ds ih =>
      rintro d ⟨l, rfl⟩
      obtain ⟨l', hl'⟩ := loopSample_arrived (c := { c with loop := l }) h k n.val
      exact ih _ ⟨l', hl'⟩
  exact hfold _ c ⟨c.loop, rfl⟩

theorem samplePhase_arrived (n : Fin 4) : ∃ l, samplePhase c n smp = { c with loop := l } := by
  unfold samplePhase
  split
  · exact ⟨c.loop, rfl⟩
  · exact loopSample_arrived h _ _

end

/-! ### The parts of a period start -/

/-- A period of a phase up to its current: dead times, Backstop, the switches and the current (R215, R241, R252). -/
def Core.periodBegun (c : Core) (n : Nat) (first : Bool) (smp : LoopSample) : Core :=
  let c := backstopEnter (bufferSwap c first) n
  let c := if first then { c with loop := { c.loop with cyc := 0 } } else c
  latchCurrent (backstopRun (phasePeriod c n) n) n first smp

/-- The samples at the period start of a phase, the outer loops' at the first present phase (R242). -/
def Core.samplesTaken (c : Core) (n : Fin 4) (first : Bool) (smp : LoopSample) : Core :=
  samplePhase (if first then sampleOuter { c with gdr := { c.gdr with soft := softNext c } } n smp else c) n smp

section
variable {c : Core} {n : Fin 4} {smp : LoopSample}

theorem leftovers_of_no_runs (ds : List Nat) {c : Core} (h : c.loop.runs = []) : leftovers c ds = c := by
  induction ds with
  | nil => rfl
  | cons d ds ih =>
    refine Eq.trans ?_ ih
    show leftovers (if c.loop.runs.any _ then _ else _) ds = _
    rw [h]
    rfl

/-- Where no run was waiting, a period starts without an overrun of the last one. -/
theorem periodStart_of_no_runs (h : c.loop.runs = []) : periodStart c n smp =
    (c.periodBegun n.val (firstPhase c == some n.val) smp).samplesTaken n (firstPhase c == some n.val) smp := by
  have hruns : ∀ first, (backstopEnter (bufferSwap c first) n.val).loop.runs = [] := fun first => by
    unfold backstopEnter
    split
    · exact h
    · exact (congrArg (List.filter _) h).trans rfl
  unfold periodStart
  dsimp only
  rw [leftovers_of_no_runs _ (hruns _)]
  rfl

theorem periodBegun_kept (first : Bool) : (c.periodBegun n.val first smp).kept = c.kept := by
  unfold Core.periodBegun
  dsimp only
  rw [latchCurrent_kept, backstopRun_kept, phasePeriod_kept]
  cases first <;> exact (backstopEnter_kept _ _).trans (bufferSwap_kept _ _)

theorem latchCurrent_adcMiss (c : Core) (n : Nat) (first : Bool) (smp : LoopSample) :
    (latchCurrent c n first smp).loop.adcMiss = satNat 32 (c.loop.adcMiss + missing first smp) := by
  unfold latchCurrent
  dsimp only
  split <;> rfl

theorem backstopEnter_adcMiss (c : Core) (n : Nat) : (backstopEnter c n).loop.adcMiss = c.loop.adcMiss := by
  unfold backstopEnter
  split <;> rfl

theorem periodBegun_adcMiss (first : Bool) : (c.periodBegun n.val first smp).loop.adcMiss =
    min 4294967295 (c.loop.adcMiss + missing first smp) := by
  have hbegun : (if first then { backstopEnter (bufferSwap c first) n.val with
      loop := { (backstopEnter (bufferSwap c first) n.val).loop with cyc := 0 } }
      else backstopEnter (bufferSwap c first) n.val : Core).loop.adcMiss = c.loop.adcMiss := by
    split <;> exact backstopEnter_adcMiss _ _
  refine (latchCurrent_adcMiss _ _ _ _).trans ?_
  rw [Nat.min_comm]
  exact congrArg (fun m => satNat 32 (m + missing first smp)) hbegun

theorem sampled_samplesTaken (first : Bool) (hn : noResetRaised c) : Sampled c (c.samplesTaken n first smp) := by
  unfold Core.samplesTaken
  split
  · have houter := sampled_sampleOuter (c := { c with gdr := { c.gdr with soft := softNext c } }) smp hn n
    have hsoft : Sampled c { c with gdr := { c.gdr with soft := softNext c } } := ⟨rfl, rfl⟩
    exact (hsoft.trans houter).trans (sampled_samplePhase smp (noResetRaised_of_kept (hsoft.trans houter).kept hn) n)
  · exact sampled_samplePhase smp hn n

/-- With every sample arrived, the samples touch the loop engine and the soft-start ramp alone. -/
theorem samplesTaken_arrived (first : Bool) (h : SamplesArrived smp) : ∃ l soft,
    c.samplesTaken n first smp = { c with loop := l, gdr := { c.gdr with soft := soft } } := by
  unfold Core.samplesTaken
  split
  · obtain ⟨l, houter⟩ := sampleOuter_arrived (c := { c with gdr := { c.gdr with soft := softNext c } }) h n
    rw [houter]
    obtain ⟨l', hphase⟩ := samplePhase_arrived (c := { c with gdr := { c.gdr with soft := softNext c }, loop := l }) h n
    exact ⟨l', _, hphase⟩
  · obtain ⟨l, hphase⟩ := samplePhase_arrived (c := c) h n
    exact ⟨l, c.gdr.soft, hphase⟩

end

end Sys2Proof.Machine
end

section
/-! PROOFS. SWITCHING_PERIOD_START and the obligation on the period of a phase (chapter 08, R215–R218, R241, R252). -/

namespace Sys2Proof.Machine

/-! ### The command -/

section
variable {s : State} {n : Fin 4} {smp : LoopSample} (hrun : s.core.life.st = .run) (hsw : s.core.gdr.st = .switching)
  (hph : s.core.gdr.ph[n].st = .run ∨ s.core.gdr.ph[n].st = .calibrating)
include hrun hsw hph

theorem exec_switchingPeriodStart {d : Core} (hd : periodStart s.core n smp = d) (hkept : d.kept = s.core.kept) :
    exec (.switchingPeriodStart n smp) s = .next { s with core := d } := by
  have hnot : inSafeHold s.core = false := by rw [inSafeHold, hrun]; rfl
  have hgoes : (inRun s.core && s.core.gdr.st == .switching && ((vget s.core.gdr.ph n.val {}).st == .run ||
      (vget s.core.gdr.ph n.val {}).st == .calibrating)) = true := by
    rw [vget_fin, (inRun_iff _).2 hrun, hsw]
    rcases hph with h | h <;> rw [h] <;> rfl
  show execSwitchingPeriodStart n smp s = _
  refine onCore_of_kept ?_ hkept
  dsimp only
  rw [hnot, hgoes]
  exact hd

/-- The samples that have not arrived are counted (R256). -/
theorem exec_switchingPeriodStart_counts (hruns : s.core.loop.runs = []) (hn : noResetRaised s.core) :
    ∃ t, exec (.switchingPeriodStart n smp) s = .next t ∧ t.core.loop.adcMiss = min 4294967295
      (s.core.loop.adcMiss + missing (firstPhase s.core == some n.val) smp) := by
  have hbegun := periodBegun_kept (c := s.core) (n := n) (smp := smp) (firstPhase s.core == some n.val)
  have hsampled := sampled_samplesTaken (n := n) (smp := smp) (firstPhase s.core == some n.val)
    (noResetRaised_of_kept hbegun hn)
  exact ⟨_, exec_switchingPeriodStart hrun hsw hph (periodStart_of_no_runs hruns) (hsampled.kept.trans hbegun),
    hsampled.adcMiss.trans (periodBegun_adcMiss _)⟩

end

/-! ### A period with every sample arrived -/

/-- The controller with the switches of a phase run for the period, and the peak of its analog control (R215, R253). -/
def Core.switched (c : Core) (n : Nat) : Core := backstopRun (phasePeriod c n) n

/-- The controller with the current of a phase latched, its loop engine and the sums of the ADC moved on (R241). -/
def Core.sensed (c : Core) (n : Nat) (i : Int) (l : LoopG) (soft : Option Nat) (sumPh sumIsc : Int) : Core :=
  { c with loop := l, gdr := { c.gdr with
    ph := vupd c.gdr.ph n fun p => { p with i := i }, soft := soft, sumPh := sumPh, sumIsc := sumIsc } }

section
variable (c : Core) (n : Nat)

theorem switched_kept : (c.switched n).kept = c.kept := by rw [Core.switched, backstopRun_kept, phasePeriod_kept]

/-- The analog control moves the peak of its phase alone. -/
theorem switched_ph (hn : n < 4) : ∃ peak, (c.switched n).gdr.ph[n] = { c.gdr.ph[n] with peak := peak } := by
  rw [Core.switched, backstopRun, getElem_vupd_self]
  split
  · exact ⟨_, rfl⟩
  · exact ⟨c.gdr.ph[n].peak, rfl⟩

/-- What is latched leaves alone what the current is sensed from. -/
theorem senseCurrent_sensed (uv i : Int) (l : LoopG) (soft : Option Nat) (sumPh sumIsc : Int) (hn : n < 4) :
    senseCurrent (c.sensed n i l soft sumPh sumIsc) n uv = senseCurrent c n uv := by
  have hpat : (vget (c.sensed n i l soft sumPh sumIsc).gdr.ph n {}).pat = (vget c.gdr.ph n {}).pat :=
    (congrArg PhaseG.pat (vget_vupd_self c.gdr.ph n (fun p => { p with i := i }) {} hn)).trans rfl
  have hplace : senseSwitch (c.sensed n i l soft sumPh sumIsc) n = senseSwitch c n := by
    unfold senseSwitch
    rw [hpat]
    rfl
  unfold senseCurrent
  rw [hplace]
  rfl

/-- The current latched is the one that its estimate still gives (R227, R241). -/
theorem sensed_current (uv : Int) (l : LoopG) (soft : Option Nat) (sumPh sumIsc : Int) (hn : n < 4) :
    (c.sensed n (senseCurrent c n uv) l soft sumPh sumIsc).gdr.ph[n].i =
      senseCurrent (c.sensed n (senseCurrent c n uv) l soft sumPh sumIsc) n uv := by
  rw [senseCurrent_sensed c n uv _ l soft sumPh sumIsc hn]
  exact congrArg PhaseG.i (getElem_vupd_self _ _ _ _)

/-- A period of a phase leaves the state of the stage, the path, the vault and the ledger. -/
theorem switched_leaves (i : Int) (l : LoopG) (soft : Option Nat) (sumPh sumIsc : Int) {d : Core}
    (hd : (c.switched n).sensed n i l soft sumPh sumIsc = d) :
    d.life = c.life ∧ d.gdr.st = c.gdr.st ∧ d.vlt = c.vlt ∧ d.path = c.path ∧ d.ldg = c.ldg := by
  subst hd
  exact ⟨rfl, rfl, rfl, rfl, rfl⟩

theorem latchCurrent_arrived (l : LoopG) {first : Bool} {smp : LoopSample} {uv : Int} (h : smp.vds = some uv) :
    ∃ l' sumPh sumIsc, latchCurrent { c with loop := l } n first smp =
      c.sensed n (senseCurrent c n uv) l' c.gdr.soft sumPh sumIsc := by
  unfold latchCurrent
  rw [h]
  exact ⟨_, _, _, rfl⟩

/-- The loop engine does not enter the period of the switches. -/
theorem switched_loop (l : LoopG) : ({ c with loop := l } : Core).switched n = { c.switched n with loop := l } := rfl

end

section
variable {c : Core} {n : Fin 4} {smp : LoopSample} {uv : Int} (huv : smp.vds = some uv)
include huv

theorem periodBegun_arrived (first : Bool) {d : Core} (hd : (backstopEnter (bufferSwap c first) n.val).switched n.val = d) :
    ∃ l sumPh sumIsc, c.periodBegun n.val first smp =
      d.sensed n.val (senseCurrent d n.val uv) l d.gdr.soft sumPh sumIsc := by
  obtain ⟨l, hl⟩ : ∃ l, (if first then { backstopEnter (bufferSwap c first) n.val with
      loop := { (backstopEnter (bufferSwap c first) n.val).loop with cyc := 0 } }
      else backstopEnter (bufferSwap c first) n.val : Core) = { backstopEnter (bufferSwap c first) n.val with loop := l } := by
    split
    · exact ⟨_, rfl⟩
    · exact ⟨(backstopEnter (bufferSwap c first) n.val).loop, rfl⟩
  have hbegun : c.periodBegun n.val first smp = latchCurrent { d with loop := l } n.val first smp := by
    rw [← hd, ← switched_loop, ← hl]
    rfl
  rw [hbegun]
  exact latchCurrent_arrived d n.val l huv

/-- A period start with every sample arrived: the switches of the phase, then its current. -/
theorem periodStart_arrived (hruns : c.loop.runs = []) (h : SamplesArrived smp) : ∃ first l soft sumPh sumIsc,
    ∀ d, (backstopEnter (bufferSwap c first) n.val).switched n.val = d →
      periodStart c n smp = d.sensed n.val (senseCurrent d n.val uv) l soft sumPh sumIsc := by
  obtain ⟨l, sumPh, sumIsc, hbegun⟩ := periodBegun_arrived (c := c) (n := n) huv (firstPhase c == some n.val) rfl
  obtain ⟨l', soft, hsamples⟩ := samplesTaken_arrived (c := c.periodBegun n.val (firstPhase c == some n.val) smp) (n := n)
    (firstPhase c == some n.val) h
  refine ⟨firstPhase c == some n.val, l', soft, sumPh, sumIsc, fun d hd => ?_⟩
  rw [periodStart_of_no_runs hruns, hsamples, hbegun, hd]
  rfl

end

theorem exec_switchingPeriodStart_arrived {s : State} {n : Fin 4} {smp : LoopSample} {uv : Int} (hrun : s.core.life.st = .run)
    (hsw : s.core.gdr.st = .switching) (hph : s.core.gdr.ph[n].st = .run ∨ s.core.gdr.ph[n].st = .calibrating)
    (hruns : s.core.loop.runs = []) (h : SamplesArrived smp) (huv : smp.vds = some uv) : ∃ first l soft sumPh sumIsc,
    ∀ d, (backstopEnter (bufferSwap s.core first) n.val).switched n.val = d →
      exec (.switchingPeriodStart n smp) s = .next { s with
        core := d.sensed n.val (senseCurrent d n.val uv) l soft sumPh sumIsc } := by
  obtain ⟨first, l, soft, sumPh, sumIsc, hstart⟩ := periodStart_arrived (c := s.core) (n := n) huv hruns h
  refine ⟨first, l, soft, sumPh, sumIsc, fun d hd => exec_switchingPeriodStart hrun hsw hph (hstart d hd) ?_⟩
  have hkept : d.kept = s.core.kept := by
    rw [← hd, switched_kept, backstopEnter_kept, bufferSwap_kept]
  exact hkept

/-! ### Backstop (R236, R252) -/

section
variable {c : Core} {n : Fin 4}

theorem backstopEnter_of_not (h : c.gdr.ph[n].bsNext = false) : backstopEnter c n.val = c := by
  have hnot : (vget c.gdr.ph n.val {}).bsNext = false := (congrArg PhaseG.bsNext (vget_fin _ _ _)).trans h
  rw [backstopEnter, hnot]
  rfl

/-- A phase that enters Backstop has its residues cancelled and takes no command of the engine. -/
theorem backstopEnter_of_next (h : c.gdr.ph[n].bsNext = true) : (backstopEnter c n.val).gdr.ph[n].backstop = true ∧
    (backstopEnter c n.val).gdr.ph[n].bsNext = false ∧ ∀ (e : Nat) (he : e < 16), e / 4 = n.val →
      (backstopEnter c n.val).gdr.sw[e] = { (c.gdr.sw[e]).cancel with cmd := {}, next := {} } := by
  have hnext : (vget c.gdr.ph n.val {}).bsNext = true := (congrArg PhaseG.bsNext (vget_fin _ _ _)).trans h
  rw [backstopEnter, hnext]
  refine ⟨congrArg PhaseG.backstop (getElem_vupd_self _ _ _ _), congrArg PhaseG.bsNext (getElem_vupd_self _ _ _ _),
    fun e he hdiv => ?_⟩
  simp [hdiv]

end

end Sys2Proof.Machine

open Sys2Proof Sys2Proof.Machine

/-- Settles O41: the switches by `SwG.period_carries`, the current by `senseCurrent_sensed`, and the samples by
`sampled_samplesTaken`. -/
theorem periodsCarryOutTheirCommands : Obligations.PeriodsCarryOutTheirCommands := by
  unfold Obligations.PeriodsCarryOutTheirCommands
  intro n smp s hrun hsw hph hruns
  refine ⟨fun hn => exec_switchingPeriodStart_counts hrun hsw hph hruns hn, fun hall hnext => ?_, fun hall hnext => ?_⟩
  all_goals
    have harr := arrived_of_missing hall
    obtain ⟨uv, huv⟩ := arrived_vds harr
    obtain ⟨first, l, soft, sumPh, sumIsc, hexec⟩ := exec_switchingPeriodStart_arrived hrun hsw hph hruns harr huv
  · obtain ⟨hback, hcleared, hcancelled⟩ := backstopEnter_of_next (c := bufferSwap s.core first) hnext
    obtain ⟨peak, hpeak⟩ := switched_ph (backstopEnter (bufferSwap s.core first) n.val) n.val n.isLt
    refine ⟨_, hexec _ rfl, ?_, ?_, fun e he => ?_⟩
    · exact (congrArg PhaseG.backstop (getElem_vupd_self _ _ _ _)).trans ((congrArg PhaseG.backstop hpeak).trans hback)
    · exact (congrArg PhaseG.bsNext (getElem_vupd_self _ _ _ _)).trans ((congrArg PhaseG.bsNext hpeak).trans hcleared)
    · obtain ⟨k, -, hran⟩ := phasePeriod_sw (backstopEnter (bufferSwap s.core first) n.val) e.isLt he
      rw [hcancelled e.val e.isLt he] at hran
      exact hran.residue_zero nofun (SwG.cancel_residue _) (SwG.cancel_age _)
  · rw [backstopEnter_of_not (c := bufferSwap s.core first) hnext] at hexec
    obtain ⟨hlife, hst, hleaves⟩ := switched_leaves (bufferSwap s.core first) n.val
      (senseCurrent ((bufferSwap s.core first).switched n.val) n.val uv) l soft sumPh sumIsc rfl
    refine ⟨_, hexec _ rfl, (congrArg LifeG.st hlife).trans hrun, fun uv' huv' => ?_, hst.trans hsw, fun e he => ?_,
      fun e he => ?_, hleaves⟩
    · obtain rfl : uv = uv' := Option.some.inj (huv.symm.trans huv')
      exact sensed_current _ n.val uv l soft sumPh sumIsc n.isLt
    · obtain ⟨k, hper, hran⟩ := phasePeriod_sw (bufferSwap s.core first) e.isLt he
      have hcarried := hran.carries
      rw [hper] at hcarried
      exact ⟨hcarried.commanded, hcarried.cmd, hcarried.emitted, hcarried.residue, hcarried.on⟩
    · exact phasePeriod_sw_other (bufferSwap s.core first) e.isLt he
end
